-- ==== Sys2Proof/Word.lean ====
section
/-! DEFINITION. The word types of the machine (R7, R29, R126). -/

namespace Sys2Proof

/-- One byte of memory (R58). -/
abbrev Byte := BitVec 8
/-- A 32-bit word: one slot of a bundle, one vector lane (R104, R126). -/
abbrev W32 := BitVec 32
/-- A 64-bit word: one scalar register (R126). -/
abbrev W64 := BitVec 64
/-- A vector register: 64 lanes of 32 bits, lane i at bits 32i .. 32i+31 (R30, R126). -/
abbrev VReg := BitVec 2048
/-- Flags of all 64 lanes: lane i's seven flags of Table 2-8 at bits 7i .. 7i+6 (R51). -/
abbrev LaneFlags := BitVec 448

/-- Where an uncorrectable error was met (R371, R382): a line of memory; a scalar register's entry, a vector register's entry and
lane, or a predicate's bit, of a strand; a word of its spill bank; a lane of a core's park entry; a row of a wing's tile slot; a
row of an engine's results; a line copy of a core's L1 or a die's L2. -/
inductive ErrPlace where
  | line
  | scalar (n r i : Nat)
  | vector (n r i lane : Nat)
  | pred (n k bit : Nat)
  | spill (n w : Nat)
  | park (c e lane : Nat)
  | row (wing slot r : Nat)
  | engine (wing e r : Nat)
  | l1 (c line : Nat)
  | l2 (d line : Nat)
  deriving DecidableEq, Repr

/-- An uncorrectable error: the physical address that its report names, and where it was met (R382, R385). -/
structure MemErr where
  pa : Nat
  place : ErrPlace
  deriving DecidableEq, Repr

/-- The resumption of a stopped strand, with the bytes, by their offsets, that the external debugger has written into its block
(R387). -/
structure Resumption where
  strand : Nat
  edits : List (Nat × BitVec 8)
  deriving DecidableEq, Repr

end Sys2Proof
end

