-- ==== Sys2Proof/Config.lean ====
section
/-! DEFINITION. What the spec leaves to the implementation or does not state: free values, with no body, so that a
statement about one holds whatever it is (log entries 8 and 10). `freeNat n` is the n-th value drawn;
`State.freeCtr` counts the draws. -/

namespace Sys2Proof.Config

/-- A value that no rule states, or a choice among outcomes that R3 leaves open (log entry 8). -/
opaque freeNat : Nat → Nat
/-- SHAKE256 with 64 bytes of output: the spec names it and does not describe it (log entry 10). -/
opaque shake256 : List Byte → List Byte
/-- Falcon-1024 verification of a signature over a message under a public key (log entry 10). -/
opaque falconVerify : (key msg sig : List Byte) → Bool
/-- Falcon-1024 signing with the key pair derived from a seed (log entry 10). -/
opaque falconSign : (seed msg : List Byte) → List Byte
/-- Public half of the Falcon-1024 key pair derived from a seed (R399, log entry 10). -/
opaque falconPublic : (seed : List Byte) → List Byte
/-- The device seed from the SRAM physical-unclonable function (R397, log entry 10). -/
opaque deviceSeed : List Byte
/-- The Grelvofa root public key in the mask ROM (R397, log entry 10). -/
opaque rootKey : List Byte
/-- Digest input of the current Rostar policy (R399, log entry 10). -/
opaque rostarPolicy : List Byte

/-- Owner keys that the payload of a module-configuration record enrols; its layout is not stated (R397, log entry 10). -/
opaque enrolledKeys : (payload : List Byte) → List (List Byte)
/-- Generator state with which a stream chain converts an element of a lane that the popping instruction leaves inactive:
R45 gives it no draw, and the spec does not state its rounding (log entry 65). -/
opaque idleRng : (rng : BitVec 64) → (element : Nat) → BitVec 64
/-- Supply steps of a die between the second and the top one; the spec gives no number (R400, log entry 8). -/
opaque supplySteps : Nat
/-- The top supply step of a die, counted from the lowest, 0: a supply can be raised at least once (R400, log entry 8). -/
def topSupply : Nat := supplySteps + 1

end Sys2Proof.Config
end

