-- ==== Sys2Proof/Syntax.lean ====
section
/-! DEFINITION. The instruction type: one constructor per row of spec/opcode_table.json.

The first 200 rows are slot instructions (Tables 6-8 to 6-10, R135-R137); their arguments are the fields of the
slot word in the order of the table. The tile-task kinds (Table 6-11, R138) name the dispatched task they serve.
The remaining rows are the steps of the other agents (docent, dispatch, Curator, fabric, hosts); their arguments
name the unit they act on and, for an input from outside the module, its data. Operand field names: d, a, b are
operand codes, p and q peek bits of the sources, n the NF bit, k the predicate register and x its negation. Events that
only come from outside stand last among those with operands, then the constructors without any: Lean's compiler builds
no constructor with operands past its 244th. -/

namespace Sys2Proof

/-- Every step of the opcode table (R134-R139, R309, and the events of 95_what_each_step_holds.md). -/
inductive Instr where
  /-- `ADD` (R177). Scalar 64-bit wrapping add of sources A and B into D. -/
  | add (d a b : BitVec 6) (p q n : Bool) (k : BitVec 3) (x : Bool)
  /-- `SUB` (R177). Scalar 64-bit wrapping subtract. -/
  | sub (d a b : BitVec 6) (p q n : Bool) (k : BitVec 3) (x : Bool)
  /-- `MUL` (R177). Scalar low 64 bits of the product. -/
  | mul (d a b : BitVec 6) (p q n : Bool) (k : BitVec 3) (x : Bool)
  /-- `MULH` (R177). Scalar high 64 bits of the signed 128-bit product. -/
  | mulh (d a b : BitVec 6) (p q n : Bool) (k : BitVec 3) (x : Bool)
  /-- `MULHU` (R177). Scalar high 64 bits of the unsigned 128-bit product. -/
  | mulhu (d a b : BitVec 6) (p q n : Bool) (k : BitVec 3) (x : Bool)
  /-- `DIV` (R178). Scalar signed division truncating toward zero, with fixed results for zero divisor and overflow. -/
  | div (d a b : BitVec 6) (p q n : Bool) (k : BitVec 3) (x : Bool)
  /-- `DIVU` (R178). Scalar unsigned division. -/
  | divu (d a b : BitVec 6) (p q n : Bool) (k : BitVec 3) (x : Bool)
  /-- `REM` (R178). Scalar signed remainder with the sign of the dividend. -/
  | rem (d a b : BitVec 6) (p q n : Bool) (k : BitVec 3) (x : Bool)
  /-- `REMU` (R178). Scalar unsigned remainder. -/
  | remu (d a b : BitVec 6) (p q n : Bool) (k : BitVec 3) (x : Bool)
  /-- `AND` (R177). Scalar bitwise AND. -/
  | and (d a b : BitVec 6) (p q n : Bool) (k : BitVec 3) (x : Bool)
  /-- `OR` (R177). Scalar bitwise OR. -/
  | or (d a b : BitVec 6) (p q n : Bool) (k : BitVec 3) (x : Bool)
  /-- `XOR` (R177). Scalar bitwise XOR. -/
  | xor (d a b : BitVec 6) (p q n : Bool) (k : BitVec 3) (x : Bool)
  /-- `ANDN` (R177). Scalar A AND NOT B. -/
  | andn (d a b : BitVec 6) (p q n : Bool) (k : BitVec 3) (x : Bool)
  /-- `SHL` (R179). Scalar shift left by the full amount in B. -/
  | shl (d a b : BitVec 6) (p q n : Bool) (k : BitVec 3) (x : Bool)
  /-- `SHR` (R179). Scalar logical shift right. -/
  | shr (d a b : BitVec 6) (p q n : Bool) (k : BitVec 3) (x : Bool)
  /-- `SAR` (R179). Scalar arithmetic shift right. -/
  | sar (d a b : BitVec 6) (p q n : Bool) (k : BitVec 3) (x : Bool)
  /-- `ROT` (R179). Scalar rotate left by B mod 64. -/
  | rot (d a b : BitVec 6) (p q n : Bool) (k : BitVec 3) (x : Bool)
  /-- `MIN` (R177). Scalar signed minimum. -/
  | min (d a b : BitVec 6) (p q n : Bool) (k : BitVec 3) (x : Bool)
  /-- `MAX` (R177). Scalar signed maximum. -/
  | max (d a b : BitVec 6) (p q n : Bool) (k : BitVec 3) (x : Bool)
  /-- `MINU` (R177). Scalar unsigned minimum. -/
  | minu (d a b : BitVec 6) (p q n : Bool) (k : BitVec 3) (x : Bool)
  /-- `MAXU` (R177). Scalar unsigned maximum. -/
  | maxu (d a b : BitVec 6) (p q n : Bool) (k : BitVec 3) (x : Bool)
  /-- `CLZ` (R180). Count of leading zero bits of A. -/
  | clz (d a : BitVec 6) (p n : Bool) (k : BitVec 3) (x : Bool)
  /-- `CTZ` (R180). Count of trailing zero bits of A. -/
  | ctz (d a : BitVec 6) (p n : Bool) (k : BitVec 3) (x : Bool)
  /-- `POPC` (R180). Population count of A. -/
  | popc (d a : BitVec 6) (p n : Bool) (k : BitVec 3) (x : Bool)
  /-- `BFX` (R182). Extract a bit field of A and sign-extend it. -/
  | bfx (d a : BitVec 6) (p : Bool) (sv l : BitVec 6)
  /-- `BFXU` (R182). Extract a bit field of A and zero-extend it. -/
  | bfxu (d a : BitVec 6) (p : Bool) (sv l : BitVec 6)
  /-- `BFI` (R182). Insert the low bits of A into a field of the third source. -/
  | bfi (d a : BitVec 6) (p : Bool) (sv l : BitVec 6)
  /-- `SEXT` (R181). Sign-extend the low N bits of A. -/
  | sext (d a m : BitVec 6) (p n : Bool) (k : BitVec 3) (x : Bool)
  /-- `ZEXT` (R181). Zero-extend the low N bits of A. -/
  | zext (d a m : BitVec 6) (p n : Bool) (k : BitVec 3) (x : Bool)
  /-- `SEL` (R183). Select A or B by the condition popped from the destination. -/
  | sel (d a b : BitVec 6) (p q n : Bool) (k : BitVec 3) (x : Bool)
  /-- `MOV` (R180). Scalar copy of A. -/
  | mov (d a : BitVec 6) (p n : Bool) (k : BitVec 3) (x : Bool)
  /-- `MOVI` (R184). Write the sign-extended immediate. -/
  | movi (d : BitVec 6) (im : BitVec 12)
  /-- `LEA` (R184). Write A plus the sign-extended immediate. -/
  | lea (d a : BitVec 6) (p : Bool) (im : BitVec 12)
  /-- `CMP` (R185). Scalar compare writing 1 or 0. -/
  | cmp (d a b : BitVec 6) (p q u : Bool) (c : BitVec 3)
  /-- `FADD` (R204). Scalar FP32 add rounded once. -/
  | fadd (d a b : BitVec 6) (p q n : Bool) (k : BitVec 3) (x : Bool)
  /-- `FSUB` (R204). Scalar FP32 subtract. -/
  | fsub (d a b : BitVec 6) (p q n : Bool) (k : BitVec 3) (x : Bool)
  /-- `FMUL` (R204). Scalar FP32 multiply. -/
  | fmul (d a b : BitVec 6) (p q n : Bool) (k : BitVec 3) (x : Bool)
  /-- `FMA` (R204). Scalar FP32 fused multiply-add with the destination as addend. -/
  | fma (d a b : BitVec 6) (p q n : Bool) (k : BitVec 3) (x : Bool)
  /-- `FDIV` (R204). Scalar FP32 divide. -/
  | fdiv (d a b : BitVec 6) (p q n : Bool) (k : BitVec 3) (x : Bool)
  /-- `FSQRT` (R204). Scalar FP32 square root. -/
  | fsqrt (d a : BitVec 6) (p n : Bool) (k : BitVec 3) (x : Bool)
  /-- `FMIN` (R206). Scalar FP32 minimum with NaN rules. -/
  | fmin (d a b : BitVec 6) (p q n : Bool) (k : BitVec 3) (x : Bool)
  /-- `FMAX` (R206). Scalar FP32 maximum with NaN rules. -/
  | fmax (d a b : BitVec 6) (p q n : Bool) (k : BitVec 3) (x : Bool)
  /-- `FCMP` (R208). Scalar FP32 compare writing 1 or 0. -/
  | fcmp (d a b : BitVec 6) (p q n : Bool) (c : BitVec 3)
  /-- `FCVT` (R213). Convert one scalar value between element formats. -/
  | fcvt (d a : BitVec 6) (p : Bool) (sv t : BitVec 4) (r : BitVec 3) (u : Bool)
  /-- `VADD` (R186). Vector INT32 wrapping add. -/
  | vadd (d a b : BitVec 6) (p q n : Bool) (k : BitVec 3) (x : Bool)
  /-- `VSUB` (R186). Vector INT32 wrapping subtract. -/
  | vsub (d a b : BitVec 6) (p q n : Bool) (k : BitVec 3) (x : Bool)
  /-- `VMUL` (R186). Vector INT32 low product. -/
  | vmul (d a b : BitVec 6) (p q n : Bool) (k : BitVec 3) (x : Bool)
  /-- `VMULH` (R186). Vector INT32 high product. -/
  | vmulh (d a b : BitVec 6) (p q n : Bool) (k : BitVec 3) (x : Bool)
  /-- `VMAC` (R186). Vector INT32 wrapping multiply-accumulate. -/
  | vmac (d a b : BitVec 6) (p q n : Bool) (k : BitVec 3) (x : Bool)
  /-- `VMAC2` (R188). Packed INT16 pair multiply-accumulate into saturating INT32 lanes. -/
  | vmac2 (d a : BitVec 6) (m : BitVec 3) (l p n : Bool) (k : BitVec 3) (x : Bool)
  /-- `VDOT4` (R186). Packed INT8 four-way dot product accumulated with one saturation. -/
  | vdot4 (d a b : BitVec 6) (p q n : Bool) (k : BitVec 3) (x : Bool)
  /-- `VABS` (R186). Vector saturating absolute value. -/
  | vabs (d a : BitVec 6) (p n : Bool) (k : BitVec 3) (x : Bool)
  /-- `VNEG` (R186). Vector saturating negation. -/
  | vneg (d a : BitVec 6) (p n : Bool) (k : BitVec 3) (x : Bool)
  /-- `VMIN` (R186). Vector signed minimum. -/
  | vmin (d a b : BitVec 6) (p q n : Bool) (k : BitVec 3) (x : Bool)
  /-- `VMAX` (R186). Vector signed maximum. -/
  | vmax (d a b : BitVec 6) (p q n : Bool) (k : BitVec 3) (x : Bool)
  /-- `VAND` (R186). Vector bitwise AND. -/
  | vand (d a b : BitVec 6) (p q n : Bool) (k : BitVec 3) (x : Bool)
  /-- `VOR` (R186). Vector bitwise OR. -/
  | vor (d a b : BitVec 6) (p q n : Bool) (k : BitVec 3) (x : Bool)
  /-- `VXOR` (R186). Vector bitwise XOR. -/
  | vxor (d a b : BitVec 6) (p q n : Bool) (k : BitVec 3) (x : Bool)
  /-- `VSHL` (R187). Vector per-lane shift left. -/
  | vshl (d a b : BitVec 6) (p q n : Bool) (k : BitVec 3) (x : Bool)
  /-- `VSHR` (R187). Vector per-lane logical shift right. -/
  | vshr (d a b : BitVec 6) (p q n : Bool) (k : BitVec 3) (x : Bool)
  /-- `VSAR` (R187). Vector per-lane arithmetic shift right. -/
  | vsar (d a b : BitVec 6) (p q n : Bool) (k : BitVec 3) (x : Bool)
  /-- `VSHRR` (R189). Vector rounding shift right with saturation to INT16 or INT32. -/
  | vshrr (d a : BitVec 6) (w : Bool) (sv : BitVec 5) (p n : Bool) (k : BitVec 3) (x : Bool)
  /-- `VSAT` (R190). Vector clamp of each lane to N signed or unsigned bits. -/
  | vsat (d a : BitVec 6) (u : Bool) (sv : BitVec 5) (p n : Bool) (k : BitVec 3) (x : Bool)
  /-- `VPACK` (R192). Narrow 64 INT32 lanes into packed elements of one part of the third source. -/
  | vpack (d a : BitVec 6) (w t u : Bool) (h : BitVec 2) (p n : Bool) (k : BitVec 3) (x : Bool)
  /-- `VUNPK` (R193). Widen one part of packed elements to INT32 lanes. -/
  | vunpk (d a : BitVec 6) (w u : Bool) (h : BitVec 2) (p n : Bool) (k : BitVec 3) (x : Bool)
  /-- `VCMP` (R191). Vector integer compare into a predicate. -/
  | vcmp (y c : BitVec 3) (a b : BitVec 6) (p q u : Bool) (k : BitVec 3) (x : Bool)
  /-- `VSEL` (R186). Vector per-lane select by the condition popped from the destination. -/
  | vsel (d a b : BitVec 6) (p q n : Bool) (k : BitVec 3) (x : Bool)
  /-- `VSLIDE` (R195). Move every element one position up or down, filling from a scalar or neighbour register. -/
  | vslide (d a f : BitVec 6) (p q v w : Bool) (e : BitVec 2)
  /-- `VBCAST` (R196). Broadcast the low 32 bits of a scalar into every active lane. -/
  | vbcast (d a : BitVec 6) (p n : Bool) (k : BitVec 3) (x : Bool)
  /-- `VEXT` (R197). Extract one lane into a scalar. -/
  | vext (d a : BitVec 6) (p u : Bool) (l : BitVec 6)
  /-- `VINS` (R197). Insert a scalar into one lane of the third source. -/
  | vins (d a : BitVec 6) (p : Bool) (l : BitVec 6)
  /-- `VPERM` (R198). Gather lanes of A by indices in B. -/
  | vperm (d a b : BitVec 6) (p q n : Bool) (k : BitVec 3) (x : Bool)
  /-- `VCOMPR` (R199). Compress the selected lanes of A to the bottom. -/
  | vcompr (d a b : BitVec 6) (p q n : Bool) (k : BitVec 3) (x : Bool)
  /-- `VEXPD` (R199). Expand consecutive lanes of A into the selected lanes. -/
  | vexpd (d a b : BitVec 6) (p q n : Bool) (k : BitVec 3) (x : Bool)
  /-- `VRED` (R200). Integer reduction of a vector by the fixed pairwise tree into a scalar. -/
  | vred (d a : BitVec 6) (o : BitVec 3) (t sv p n : Bool) (k : BitVec 3) (x : Bool)
  /-- `VSCAN` (R200). Integer left-fold scan across lanes. -/
  | vscan (d a : BitVec 6) (o : BitVec 3) (t p n : Bool) (k : BitVec 3) (x : Bool)
  /-- `VPOPC` (R186). Per-lane population count. -/
  | vpopc (d a : BitVec 6) (p n : Bool) (k : BitVec 3) (x : Bool)
  /-- `VFADD` (R204). Vector FP32 add. -/
  | vfadd (d a b : BitVec 6) (p q n : Bool) (k : BitVec 3) (x : Bool)
  /-- `VFSUB` (R204). Vector FP32 subtract. -/
  | vfsub (d a b : BitVec 6) (p q n : Bool) (k : BitVec 3) (x : Bool)
  /-- `VFMUL` (R204). Vector FP32 multiply. -/
  | vfmul (d a b : BitVec 6) (p q n : Bool) (k : BitVec 3) (x : Bool)
  /-- `VFMA` (R204). Vector FP32 fused multiply-add. -/
  | vfma (d a b : BitVec 6) (p q n : Bool) (k : BitVec 3) (x : Bool)
  /-- `VFNMA` (R204). Vector FP32 c minus a times b, rounded once. -/
  | vfnma (d a b : BitVec 6) (p q n : Bool) (k : BitVec 3) (x : Bool)
  /-- `VFMIN` (R206). Vector FP32 minimum. -/
  | vfmin (d a b : BitVec 6) (p q n : Bool) (k : BitVec 3) (x : Bool)
  /-- `VFMAX` (R206). Vector FP32 maximum. -/
  | vfmax (d a b : BitVec 6) (p q n : Bool) (k : BitVec 3) (x : Bool)
  /-- `VFABS` (R207). Clear the sign bit of each active lane. -/
  | vfabs (d a : BitVec 6) (p n : Bool) (k : BitVec 3) (x : Bool)
  /-- `VFNEG` (R207). Invert the sign bit of each active lane. -/
  | vfneg (d a : BitVec 6) (p n : Bool) (k : BitVec 3) (x : Bool)
  /-- `VFDIV` (R204). Vector FP32 divide. -/
  | vfdiv (d a b : BitVec 6) (p q n : Bool) (k : BitVec 3) (x : Bool)
  /-- `VFSQRT` (R204). Vector FP32 square root. -/
  | vfsqrt (d a : BitVec 6) (p n : Bool) (k : BitVec 3) (x : Bool)
  /-- `VFRCP` (R204). Vector correctly rounded reciprocal. -/
  | vfrcp (d a : BitVec 6) (p n : Bool) (k : BitVec 3) (x : Bool)
  /-- `VFRSQ` (R204). Vector correctly rounded reciprocal square root. -/
  | vfrsq (d a : BitVec 6) (p n : Bool) (k : BitVec 3) (x : Bool)
  /-- `VFEXP2` (R204). Vector correctly rounded 2 to the power a. -/
  | vfexp2 (d a : BitVec 6) (p n : Bool) (k : BitVec 3) (x : Bool)
  /-- `VFLOG2` (R204). Vector correctly rounded base-2 logarithm. -/
  | vflog2 (d a : BitVec 6) (p n : Bool) (k : BitVec 3) (x : Bool)
  /-- `VFCMP` (R208). Vector FP32 compare into a predicate. -/
  | vfcmp (y c : BitVec 3) (a b : BitVec 6) (p q n : Bool) (k : BitVec 3) (x : Bool)
  /-- `VFCLASS` (R209). Classify each FP32 lane into one bit. -/
  | vfclass (d a : BitVec 6) (p n : Bool) (k : BitVec 3) (x : Bool)
  /-- `VFRED` (R210). Floating-point tree reduction of a vector into a scalar. -/
  | vfred (d a : BitVec 6) (o : BitVec 2) (r : BitVec 3) (sv p n : Bool) (k : BitVec 3) (x : Bool)
  /-- `VFDOT2` (R211). BF16 pair dot product accumulated into FP32 with one rounding. -/
  | vfdot2 (d a b : BitVec 6) (p q n : Bool) (k : BitVec 3) (x : Bool)
  /-- `VCVT` (R214). Convert every element of a register group between formats. -/
  | vcvt (d a : BitVec 6) (p : Bool) (sv t : BitVec 4) (r : BitVec 3) (u : Bool)
  /-- `VCVTI` (R215). Convert FP32 lanes to INT32 or UINT32. -/
  | vcvti (d a : BitVec 6) (r : BitVec 3) (t u p n : Bool) (k : BitVec 3) (x : Bool)
  /-- `VCVTF` (R215). Convert INT32 or UINT32 lanes to FP32. -/
  | vcvtf (d a : BitVec 6) (r : BitVec 3) (u p n : Bool) (k : BitVec 3) (x : Bool)
  /-- `VSCALE` (R216). Multiply each lane by a power of two given by an integer lane. -/
  | vscale (d a b : BitVec 6) (p q n : Bool) (k : BitVec 3) (x : Bool)
  /-- `VCBX` (R217). Expand 8-bit codebook indices through a captured bank copy. -/
  | vcbx (d a : BitVec 6) (b t : BitVec 3) (p n : Bool) (k : BitVec 3) (x : Bool)
  /-- `VQNT` (R218). Quantise FP32 lanes to nearest codebook indices. -/
  | vqnt (d a : BitVec 6) (b : BitVec 3) (w p n : Bool) (h : BitVec 3)
  /-- `VQ4N_S` (R219). Choose the Q4N block scale code for 64 FP32 lanes. -/
  | vq4nS (d a b : BitVec 6) (p q n : Bool)
  /-- `VQ4N` (R219). Form the Q4N codes of a 64-element block into one part of the third source. -/
  | vq4n (d a b : BitVec 6) (p q n : Bool) (h : BitVec 3)
  /-- `VMXQ` (R220). Quantise 64 lanes into two Microscaling blocks with E8M0 scales. -/
  | vmxq (d a e : BitVec 6) (p n : Bool) (f : BitVec 2) (h : BitVec 3)
  /-- `VFLGR` (R222). Read every lane's sticky flags into a vector. -/
  | vflgr (d : BitVec 6)
  /-- `VFLGC` (R223). Clear the masked sticky flags in enabled lanes. -/
  | vflgc (m : BitVec 7) (k : BitVec 3) (x : Bool)
  /-- `LD_B` (R257). Load a byte sign-extended. -/
  | ldB (d a : BitVec 6) (p : Bool) (im : BitVec 12)
  /-- `LD_BU` (R257). Load a byte zero-extended. -/
  | ldBu (d a : BitVec 6) (p : Bool) (im : BitVec 12)
  /-- `LD_H` (R257). Load 2 bytes sign-extended. -/
  | ldH (d a : BitVec 6) (p : Bool) (im : BitVec 12)
  /-- `LD_HU` (R257). Load 2 bytes zero-extended. -/
  | ldHu (d a : BitVec 6) (p : Bool) (im : BitVec 12)
  /-- `LD_W` (R257). Load 4 bytes sign-extended. -/
  | ldW (d a : BitVec 6) (p : Bool) (im : BitVec 12)
  /-- `LD_WU` (R257). Load 4 bytes zero-extended. -/
  | ldWu (d a : BitVec 6) (p : Bool) (im : BitVec 12)
  /-- `LD_D` (R257). Load 8 bytes. -/
  | ldD (d a : BitVec 6) (p : Bool) (im : BitVec 12)
  /-- `ST_B` (R258). Store the low byte of D. -/
  | stB (d a : BitVec 6) (p : Bool) (im : BitVec 12)
  /-- `ST_H` (R258). Store the low 2 bytes of D. -/
  | stH (d a : BitVec 6) (p : Bool) (im : BitVec 12)
  /-- `ST_W` (R258). Store the low 4 bytes of D. -/
  | stW (d a : BitVec 6) (p : Bool) (im : BitVec 12)
  /-- `ST_D` (R258). Store 8 bytes of D. -/
  | stD (d a : BitVec 6) (p : Bool) (im : BitVec 12)
  /-- `VLD` (R259). Decoding or raw contiguous vector load. -/
  | vld (d a : BitVec 6) (p r : Bool) (t : BitVec 3) (n : Bool) (k : BitVec 3) (x : Bool)
  /-- `VLDS` (R260). Strided vector load, one element per active lane. -/
  | vlds (d a b : BitVec 6) (p : Bool) (t : BitVec 2) (k : BitVec 3) (x : Bool)
  /-- `VLDG` (R260). Gather load by INT32 offsets. -/
  | vldg (d a b : BitVec 6) (p : Bool) (t : BitVec 2) (k : BitVec 3) (x : Bool)
  /-- `VST` (R259). Formatted or raw contiguous vector store. -/
  | vst (d a : BitVec 6) (p r : Bool) (t : BitVec 3) (n : Bool) (k : BitVec 3) (x : Bool)
  /-- `VSTS` (R260). Strided vector store. -/
  | vsts (d a b : BitVec 6) (p : Bool) (t : BitVec 2) (k : BitVec 3) (x : Bool)
  /-- `VSTG` (R260). Scatter store by INT32 offsets. -/
  | vstg (d a b : BitVec 6) (p : Bool) (t : BitVec 2) (k : BitVec 3) (x : Bool)
  /-- `VLDN` (R259). Load a group of vector registers. -/
  | vldn (d a : BitVec 6) (p : Bool) (c : BitVec 3) (r : Bool) (t : BitVec 3) (n : Bool) (k : BitVec 3) (x : Bool)
  /-- `VSTN` (R259). Store a group of vector registers. -/
  | vstn (d a : BitVec 6) (p : Bool) (c : BitVec 3) (r : Bool) (t : BitVec 3) (n : Bool) (k : BitVec 3) (x : Bool)
  /-- `LDT` (R262). Read part of one tile row from the wing's tile cache. -/
  | ldt (d a b : BitVec 6) (p q r : Bool) (t : BitVec 3)
  /-- `STT` (R263). Write part of one tile row into the wing's tile copy. -/
  | stt (d a b : BitVec 6) (p q r : Bool) (t : BitVec 3)
  /-- `SBIND` (R267). Bind a stream register to a stream descriptor. -/
  | sbind (d a : BitVec 6) (p : Bool) (q : BitVec 4)
  /-- `SCHAIN` (R269). Set the operator chain of a stream. -/
  | schain (d a b : BitVec 6) (p r : Bool) (q : BitVec 4)
  /-- `SUNBIND` (R267). Unbind a stream register. -/
  | sunbind (q : BitVec 4)
  /-- `SPOS` (R271). Read, or with SET set, the position of a stream. -/
  | spos (d a : BitVec 6) (p : Bool) (q : BitVec 4) (sv : Bool)
  /-- `AMO` (R272). Atomic read-modify-write under a use code. -/
  | amo (d a b : BitVec 6) (o : BitVec 4) (u : BitVec 3)
  /-- `CAS` (R272). Atomic compare-and-swap of 8 bytes. -/
  | cas (d a b : BitVec 6) (u : BitVec 3)
  /-- `LDA` (R273). Acquiring 8-byte load from the home. -/
  | lda (d a : BitVec 6) (p : Bool) (im : BitVec 12)
  /-- `STA` (R273). Release store that first waits as FENCE.H and FENCE.P. -/
  | sta (d a : BitVec 6) (p : Bool) (im : BitVec 12)
  /-- `FENCE_O` (R249). Ordinary fence at a scope. -/
  | fenceO (sv : BitVec 3)
  /-- `SPILL` (R276). Write a register into the strand's spill bank. -/
  | spill (d : BitVec 6) (v : Bool) (o : BitVec 16)
  /-- `FILL` (R276). Read a register back from the spill bank. -/
  | fill (d : BitVec 6) (v : Bool) (o : BitVec 16)
  /-- `PARK` (R277). Write a vector into an entry of the core's park area. -/
  | park (d : BitVec 6) (e : BitVec 9)
  /-- `UNPARK` (R277). Read and free an entry of the park area. -/
  | unpark (d : BitVec 6) (e : BitVec 9)
  /-- `MCST` (R278). Multicast one vector to the same address in listed modules. -/
  | mcst (d a b : BitVec 6) (p q : Bool)
  /-- `PREFL` (R279). Request a line fill into L1 and L2 or L2 only. -/
  | prefl (l : BitVec 2) (a : BitVec 6) (p : Bool) (im : BitVec 12)
  /-- `CBLD` (R280). Load a codebook image into a bank as a writer. -/
  | cbld (b : BitVec 3) (a : BitVec 6) (p : Bool) (im : BitVec 12)
  /-- `CBST` (R280). Store the current copy of a bank as an image. -/
  | cbst (b : BitVec 3) (a : BitVec 6) (p : Bool) (im : BitVec 12)
  /-- `CBWR` (R281). Write one codebook entry and set its valid bit. -/
  | cbwr (k : BitVec 3) (a b : BitVec 6) (p q : Bool)
  /-- `CBINV` (R281). Clear the valid bit of one entry or of all entries. -/
  | cbinv (k : BitVec 3) (b : BitVec 6) (q l : Bool)
  /-- `WAITV` (R275). Wait with acquiring reads until a memory word satisfies a condition. -/
  | waitv (d a b : BitVec 6) (p q : Bool) (c : BitVec 3) (w : Bool)
  /-- `TFLUSH` (R283). Write back every dirty copy of the target tiles in the module. -/
  | tflush (a b : BitVec 6) (p q : Bool)
  /-- `TINV` (R283). Write back the target tiles and remove them from the issuing wing. -/
  | tinv (a b : BitVec 6) (p q : Bool)
  /-- `BR` (R148). Predicated branch to a line and bundle. -/
  | br (k : BitVec 3) (x : Bool) (sv : BitVec 18) (b : BitVec 3)
  /-- `BRC` (R149). Branch on a condition of a scalar register. -/
  | brc (a : BitVec 6) (p : Bool) (c : BitVec 3) (sv : BitVec 12) (b : BitVec 3)
  /-- `CALL` (R148). Predicated call writing the return PC into s30. -/
  | call (k : BitVec 3) (x : Bool) (sv : BitVec 18) (b : BitVec 3)
  /-- `CALLI` (R150). Indirect call through a PC value in a register. -/
  | calli (a : BitVec 6) (p : Bool) (k : BitVec 3) (x : Bool)
  /-- `RET` (R150). Jump to a PC value held in a register. -/
  | ret (a : BitVec 6) (p : Bool) (k : BitVec 3) (x : Bool)
  /-- `JT` (R151). Bounded jump through a table of PC values in memory. -/
  | jt (d a b : BitVec 6) (p q : Bool) (k : BitVec 3) (x : Bool)
  /-- `LOOP` (R152). Decrement a plain counter and branch while it is nonzero. -/
  | loop (d : BitVec 6) (sv : BitVec 16) (b : BitVec 3)
  /-- `GBR` (R116). Gang branch decided by strand 0's predicate. -/
  | gbr (k : BitVec 3) (x : Bool) (sv : BitVec 18) (b : BitVec 3)
  /-- `JSET` (R155). Set join bits after earlier accesses have performed. -/
  | jset (m : BitVec 16)
  /-- `JCLR` (R155). Clear join bits. -/
  | jclr (m : BitVec 16)
  /-- `JWAIT` (R155). Wait until all or any named join bits are set. -/
  | jwait (y : Bool) (m : BitVec 16)
  /-- `SEMWAIT` (R331). Join a semaphore's FIFO wait list for an amount. -/
  | semwait (d : BitVec 6) (sv : BitVec 4) (n : BitVec 12)
  /-- `SEMPOST` (R331). Add an amount to a semaphore, refused on overflow. -/
  | sempost (d : BitVec 6) (sv : BitVec 4) (n : BitVec 12)
  /-- `MXLOCK` (R332). Acquire a mutex, waiting in its list. -/
  | mxlock (d : BitVec 6) (m : BitVec 4)
  /-- `MXTRY` (R332). Try to acquire a mutex without waiting. -/
  | mxtry (d : BitVec 6) (m : BitVec 4)
  /-- `MXUNLK` (R332). Free a held mutex at the end of the clock. -/
  | mxunlk (d : BitVec 6) (m : BitVec 4)
  /-- `TENQ` (R309). Enqueue a tile-task record into a task queue. -/
  | tenq (d a b : BitVec 6) (p q : Bool)
  /-- `TWAIT` (R311). Wait until a completion counter reaches a target. -/
  | twait (d a : BitVec 6) (p : Bool) (c : BitVec 3)
  /-- `TSTAT` (R311). Read a counter's value, fault word, fault address or flags, optionally clearing. -/
  | tstat (d : BitVec 6) (c : BitVec 3) (sv : BitVec 2) (l : Bool)
  /-- `TCANCEL` (R314). Cancel tasks from a sequence number and restart a stopped queue. -/
  | tcancel (d a b : BitVec 6) (p q : Bool)
  /-- `LAUNCH` (R156). Publish a launch record into a launch queue by the producer protocol. -/
  | launch (d a b : BitVec 6) (p q : Bool)
  /-- `QLINK` (R157). Bind a vector queue's push side to a peer strand's queue. -/
  | qlink (d a : BitVec 6) (p : Bool) (r : BitVec 5)
  /-- `QUNLINK` (R157). Unbind a queue link after its pushes arrive. -/
  | qunlink (r : BitVec 5)
  /-- `QDEPTH` (R157). Read count plus pending of the queue pushed into. -/
  | qdepth (d : BitVec 6) (r : BitVec 5)
  /-- `QFLUSH` (R157). Wait until a queue has no reservations, then empty it. -/
  | qflush (r : BitVec 5) (v : Bool)
  /-- `PRCHK` (R159). Read clocks remaining before the forced save. -/
  | prchk (d : BitVec 6)
  /-- `PGPASS` (R338). Hand a page to a new writer set and release a flag at one stamp. -/
  | pgpass (d a b : BitVec 6) (p q w : Bool) (t : BitVec 2) (c : Bool)
  /-- `TRAP` (R160). Raise SYSC when the tested operand is nonzero. -/
  | trap (a : BitVec 6) (p : Bool) (c : BitVec 12)
  /-- `SYSC` (R160). Raise SYSC with a code. -/
  | sysc (c : BitVec 12)
  /-- `BRK` (R160). Raise BRK with a code. -/
  | brk (c : BitVec 12)
  /-- `MFS` (R162). Read a system register. -/
  | mfs (d : BitVec 6) (n : BitVec 8)
  /-- `MTS` (R162). Write a system register without behaviour of its own; RO targets ignore it. -/
  | mts (a : BitVec 6) (p : Bool) (n : BitVec 8)
  /-- `MTS_FLG` (R52). Write 1s to FLG to clear those flags in every lane, ordered by R54. -/
  | mtsFlg (a : BitVec 6) (p : Bool)
  /-- `MTS_SRNG` (R46). Set the generator state, zero giving the fixed seed. -/
  | mtsSrng (a : BitVec 6) (p : Bool)
  /-- `MTS_STATUS` (R365). Write STATUS: EXL as allowed and W1C PINLOST. -/
  | mtsStatus (a : BitVec 6) (p : Bool)
  /-- `MTS_EPC` (R366). Write EPC, clearing ESLOT and every SLIP mark. -/
  | mtsEpc (a : BitVec 6) (p : Bool)
  /-- `MTS_ECAUSE` (R366). Write ECAUSE, with ESLOT 3 written as 0. -/
  | mtsEcause (a : BitVec 6) (p : Bool)
  /-- `TLBINV` (R163). Request a shootdown of a range or of every translation of the ASID. -/
  | tlbinv (a b : BitVec 6) (p q l : Bool)
  /-- `EXT` (R123). Extend the IMM12 of slot A or B to a 32-bit immediate. -/
  | ext (t : BitVec 2) (im : BitVec 20)
  /-- `PCHK` (R166). Raise POISON if the operand carries the poison tag. -/
  | pchk (a : BitVec 6) (p v : Bool)
  /-- `CODE_FETCH` (R108). The strand checks the PC and link word before issuing a bundle. -/
  | codeFetch (n : Nat)
  /-- `WRITE_BACK` (R176). An issued operation writes its result back after its latency, committing its reserved queue position. -/
  | writeBack (n id : Nat)
  /-- `LOAD_RETURN` (R253). Data of an outstanding load, tile read or atomic returns and writes back. -/
  | loadReturn (n id : Nat) (win : List (BitVec 8)) (refused : Bool)
  /-- `WRITE_QUEUE_PERFORM` (R113). A retired write in the strand's write queue performs and takes its stamp. -/
  | writeQueuePerform (n : Nat)
  /-- `TRAP_ENTRY` (R364). After earlier write-backs drain, the strand records the frame and enters TRAPBASE. -/
  | trapEntry (n : Nat)
  /-- `LINK_COMMIT` (R333). A queue-link push commits its entry in the peer's queue. -/
  | linkCommit (n r : Nat)
  /-- `STREAM_PATTERN_READ` (R266). The stream engine produces a pattern vector for a bound stream. -/
  | streamPatternRead (n q : Nat)
  /-- `JOIN_WAIT_SATISFY` (R155). A waiting JWAIT completes when its join bits are satisfied. -/
  | joinWaitSatisfy (n : Nat)
  /-- `SEMAPHORE_GRANT` (R331). The head SEMWAIT of a wait list is granted when the count suffices. -/
  | semaphoreGrant (core sem : Nat)
  /-- `MUTEX_GRANT` (R332). A free mutex passes to the head of its wait list. -/
  | mutexGrant (core mx : Nat)
  /-- `WAITV_REREAD` (R337). WAITV reads its word again after a write at the home or 4,096 clocks. -/
  | waitvReread (n id : Nat)
  /-- `TWAIT_SATISFY` (R311). A waiting TWAIT completes when its counter reaches the target. -/
  | twaitSatisfy (n : Nat)
  /-- `FENCE_RESOLVE` (R249). A fence's wait ends and it resolves. -/
  | fenceResolve (n : Nat)
  /-- `STRAND_HALTED` (R165). HALT takes effect once earlier operations drain; mutexes are released. -/
  | strandHalted (n : Nat)
  /-- `CODEBOOK_WRITER_RETIRE` (R75). A bank writer retires, swapping copies and advancing the generation. -/
  | codebookWriterRetire (core bank : Nat)
  /-- `TILE_FILL_COMPLETE` (R288). A fill completes: copy valid, or fault delivered to joined requests. -/
  | tileFillComplete (wing id : Nat)
  /-- `DOCENT_GRANT` (R317). Each clock the docent dispatches, parks or skips up to four eligible tasks. -/
  | docentGrant (wing : Nat)
  /-- `TASK_COMPLETE` (R308). A task's writes perform, versions advance, flags merge and its counter increments. -/
  | taskComplete (uid : Nat)
  /-- `QUEUE_DETACH` (R304). An idle task queue detaches and its header is written. -/
  | queueDetach (qpa : Nat)
  /-- `MMA` (R322). Stream unscaled A tiles through the active weights into accumulators. -/
  | mma (uid : Nat)
  /-- `MMAS` (R322). Stream E8M0-scaled A tiles through the active weights. -/
  | mmas (uid : Nat)
  /-- `WPRE` (R320). Fill an engine's shadow weight buffer through the decompressor. -/
  | wpre (uid : Nat)
  /-- `WSWP` (R320). Exchange an engine's active and shadow buffers. -/
  | wswp (uid : Nat)
  /-- `DRAIN` (R324). Promote and write accumulator rows into a tile with conversion. -/
  | drain (uid : Nat)
  /-- `ACLR` (R325). Clear accumulator rows, partials, counts and poison. -/
  | aclr (uid : Nat)
  /-- `TCPY` (R325). Copy codes and scales tile by tile. -/
  | tcpy (uid : Nat)
  /-- `TSET` (R325). Fill a rectangle of tiles with a code, scale and super-scale. -/
  | tset (uid : Nat)
  /-- `TXPS` (R325). Transpose a 64 by 64 block between tiles. -/
  | txps (uid : Nat)
  /-- `TRED` (R325). Add tile X into tile Y element by element. -/
  | tred (uid : Nat)
  /-- `ITIN` (R295). Hand the prefetch engine an itinerary of tile fills. -/
  | itin (uid : Nat)
  /-- `TWB` (R325). Write back every dirty copy of a rectangle in the module. -/
  | twb (uid : Nat)
  /-- `KVQ` (R326). Quantise FP32 or BF16 source tiles into a scaled or codebook tile. -/
  | kvq (uid : Nat)
  /-- `CRS` (R327). Send posted reduce writes of a local tile into a window tile. -/
  | crs (uid : Nat)
  /-- `CAG` (R327). Send posted row stores of a local tile to a window tile. -/
  | cag (uid : Nat)
  /-- `CBAR` (R327). Posted barrier add to a window word, then wait on a local word. -/
  | cbar (uid : Nat)
  /-- `REQUEST_PACKET_ARRIVAL` (R354). A request packet arrives and is committed, held, dropped or discarded by sequence and epoch. -/
  | requestPacketArrival (src dst seq epoch part kind pa : Nat) (data : List (BitVec 8))
  /-- `ACK_TIMER` (R354). A cumulative acknowledgement is sent within 256 clocks of an unacknowledged commit. -/
  | ackTimer (src : Nat)
  /-- `ACK_RECEIVED` (R355). A cumulative acknowledgement releases retained packets and allowance units. -/
  | ackReceived (dst c : Nat) (refusals : List Nat)
  /-- `RETENTION_RESEND` (R355). After 65,536 clocks without advance, retained packets of a pair are resent. -/
  | retentionResend (dst : Nat)
  /-- `DESTINATION_FAILURE_REPORT` (R355). After 2^24 clocks without advance the Curator is told the destination failed. -/
  | destinationFailureReport (dst : Nat)
  /-- `LAUNCH_ACCEPT` (R85). The front-end accepts one published record, checks it and gives it a handle. -/
  | launchAccept (num : Nat)
  /-- `SKIP_DISCARD` (R86). HEAD reaching a skipped slot discards it without a handle. -/
  | skipDiscard (num : Nat)
  /-- `GROUP_PREPARE` (R94). Dispatch zeroes buffers, loads banks and sets start state before START. -/
  | groupPrepare (entry : Nat)
  /-- `GROUP_START` (R95). Every strand of a group issues its first bundle when CLKCNT equals START. -/
  | groupStart (entry : Nat)
  /-- `GROUP_RESUME` (R381). A bind record with RES set restores a saved group and re-injects live entries. -/
  | groupResume (entry : Nat)
  /-- `GROUP_COMPLETE` (R388). A group completes once strands, tasks and posted writes have ended. -/
  | groupComplete (lid grp : Nat)
  /-- `LAUNCH_COMPLETE` (R391). The front-end writes the completion record and frees the handle. -/
  | launchComplete (lid : Nat)
  /-- `FORCED_SAVE` (R376). At the deadline, unfinished strands are saved with their open operations. -/
  | forcedSave (lid grp : Nat)
  /-- `DEBUG_STOP` (R387). A single strand is stopped by a forced save for the external debugger. -/
  | debugStop (n : Nat)
  /-- `WALK_COMPLETE` (R66). A page-table walk ends, installs or faults a translation, sets A or D by compare-and-write or restarts, and resolves the waiting access or releases joined misses. -/
  | walkComplete (wing asid va : Nat)
  /-- `PATROL_SCRUB` (R235). The scrubber reads a line and corrects a correctable error unless a demand write intervened. -/
  | patrolScrub (line : Nat)
  /-- `HOST_SNOOP_WRITE` (R246). A host write reaches the module as a snoop invalidation stamped at the home. -/
  | hostSnoopWrite (port pa : Nat) (data : List (BitVec 8))
  /-- `HOST_MEM_ACCESS` (R247). A host CXL.mem access performs at the home as a SEQ access. -/
  | hostMemAccess (port : Nat) (wr : Bool) (pa len : Nat) (data : List (BitVec 8))
  /-- `LINK_RETRAIN_FAIL` (R344). A link that fails retraining carries nothing further and the Curator is told. -/
  | linkRetrainFail (glob : Bool) (idx : Nat)
  /-- `CONTEXT_REGISTER` (R80). The Curator registers a context record's physical address. -/
  | contextRegister (pa : Nat)
  /-- `QUEUE_REGISTER` (R83). Rostar registers a launch queue with its context and ticket count. -/
  | queueRegister (num qbase ctx tickets : Nat)
  /-- `TICKET_SET` (R100). Rostar changes a queue's ticket count, effective from the next charge. -/
  | ticketSet (num tickets : Nat)
  /-- `SKIP` (R86). Rostar skips a claimed, unpublished slot, advancing TAIL. -/
  | skip (num slot : Nat)
  /-- `BIND` (R92). Placement command writing a bind record, checked in the same clock. -/
  | bind (w0 w8 w16 w24 : BitVec 64)
  /-- `CANCEL` (R97). Placement command cancelling a launch handle. -/
  | cancel (w0 w8 w16 w24 : BitVec 64)
  /-- `PREEMPT_REQUEST` (R374). The Curator sets PREQ and DLINE in every strand of a group. -/
  | preemptRequest (lid grp len : Nat)
  /-- `DEBUG_RESUME` (R387). The Curator resumes a stopped strand in place. -/
  | debugResume (r : Resumption)
  /-- `PAGE_MIGRATE` (R301). The Curator writes back, unpins and invalidates tiles of a moved page. -/
  | pageMigrate (asid va : Nat)
  /-- `CONTEXT_TEARDOWN` (R394). The Curator writes back, releases, detaches and frees a context's state. -/
  | contextTeardown (asid : Nat)
  /-- `MEMUE_UNDO` (R383). For a restartable launch, kill, undo the write log and relaunch. -/
  | memueUndo (lid : Nat) (err : MemErr)
  /-- `IDENTITY_SHADOW_WRITE` (R348). The Curator writes entries of the shadow identity table. -/
  | identityShadowWrite (idx : Nat) (w : BitVec 32)
  /-- `IDENTITY_SWAP` (R348). All thirteen identity-table copies swap banks together. -/
  | identitySwap (own : Option Nat)
  /-- `WINDOW_REGISTER_WRITE` (R351). The Curator writes a window register. -/
  | windowRegisterWrite (w : Nat) (w0 w8 : BitVec 64)
  /-- `TAKEOVER_HOLD` (R357). A peer's entry for a failed number is set HOLD in both banks. -/
  | takeoverHold (lmn : Nat)
  /-- `TAKEOVER_REPORT` (R358). A peer reports its oldest retained and expected numbers for the failed number. -/
  | takeoverReport (lmn : Nat)
  /-- `SPARE_SETUP` (R358). The spare takes the image, sequence numbers, number and epoch of the failed module. -/
  | spareSetup (lmn : Nat) (entries : List (Nat × BitVec 32)) (seqs : List (Nat × Nat × Nat)) (image : List (Nat × BitVec 8))
  /-- `ATTESTATION_REQUEST` (R399). A nonce through the CXL mailbox returns a signed attestation report. -/
  | attestationRequest (nonce : List (BitVec 8))
  /-- `MARGIN_SAMPLE` (R400). Every 2^24 clocks the Curator samples margins, raising supply or withdrawing units. -/
  | marginSample (margins : List (Nat × Bool))
  /-- `POWER_SAMPLE` (R401). Every 2^16 clocks the Curator measures draw and throttles. -/
  | powerSample (draw : Nat)
  /-- `THERMAL_TRIP` (R402). At 110 degrees C every clock stops at once. -/
  | thermalTrip (temp : Nat)
  /-- `HOST_SNOOP_READ` (R246). A host read of a host line that the module holds modified arrives as a snoop, and the module recalls the copy and answers. -/
  | hostSnoopRead (port pa len : Nat)
  /-- `FLIT_CRC_RETRY` (R344). A flit arriving with a CRC error is resent by the link layer. -/
  | flitCrcRetry (glob : Bool) (idx : Nat)
  /-- `CURATOR_DBGCTL_WRITE` (R386). The Curator writes a strand's DBGCTL, setting or clearing single-step and external-debug stopping. -/
  | curatorDbgctlWrite (n : Nat) (v : BitVec 64)
  /-- `NOP` (R134). The all-zero slot of any class reads nothing, writes nothing and never stalls. -/
  | nop
  /-- `FENCE_P` (R249). Posted fence waiting for window acknowledgements. -/
  | fenceP
  /-- `FENCE_H` (R249). Host fence waiting for host visibility of earlier writes. -/
  | fenceH
  /-- `FENCE_E` (R249). Engine fence waiting for every earlier enqueued task. -/
  | fenceE
  /-- `GANG` (R114). Barrier of the core's four strands that enters gang mode. -/
  | gang
  /-- `SPLIT` (R118). Leave gang mode after the long word. -/
  | split
  /-- `YIELD` (R158). Cooperatively save the strand when pre-emption is requested. -/
  | yield
  /-- `ERET` (R161). Re-inject frame entries, leave the handler and continue at EPC. -/
  | eret
  /-- `RPLY` (R161). Re-inject the frame entries of the replay queue. -/
  | rply
  /-- `HALT` (R165). Stop the strand once earlier operations have written back and performed. -/
  | halt
  /-- `PTS_TICK` (R232). Every agent's pts rises by 1 when CLKCNT reaches a multiple of 1,024. -/
  | ptsTick
  /-- `SHOOTDOWN` (R78). The Curator drops old translations module-wide for a TLBINV request. -/
  | shootdown
  /-- `MODULE_RESET` (R397). The ROM verifies boot records, loads firmware and zeroes buffers. -/
  | moduleReset
  deriving DecidableEq, Repr

end Sys2Proof
end

