-- ==== Sys2Proof/Machine/State.lean ====
section
/-! DEFINITION. The state of one module as plain data: every register, buffer and table the spec names, held per
strand, core, wing, die and module (R22). Maps are lists of (key, value) pairs; an absent key reads as its default. -/

namespace Sys2Proof.Machine

/-- A sparse map: keys strictly rising, an absent key reads as the default the reader names. -/
abbrev AMap (α : Type) := List (Nat × α)

/-! ### Values -/

/-- A scalar entry: 64 bits and its poison tag (R126, R371). -/
structure SV where
  v : W64
  t : Bool
  deriving DecidableEq, Repr

/-- A vector entry: 64 lanes and 64 poison tags (R126, R371). -/
structure VV where
  v : VReg
  t : W64
  deriving DecidableEq, Repr

/-- A predicate: 64 bits and 64 poison tags (R126, R371). -/
structure PV where
  v : W64
  t : W64
  deriving DecidableEq, Repr

/-- One position of a queue register: a committed entry, or a reservation made by the operation named (R129). A `late`
entry was pushed by the slot-A operation named, and is withdrawn if an earlier slot traps (R364); a `linked` one came
over a queue link, with the sender's pts (R334). -/
inductive QCell (α : Type) where
  | full (x : α)
  | hole (id : Nat)
  | late (id : Nat) (x : α)
  | linked (x : α) (pts : W64)
  deriving DecidableEq, Repr

/-- A destination register. -/
inductive Dest where
  | s (r : Nat)
  | v (r : Nat)
  | k (r : Nat)
  /-- Local vector queue r, bound to register reg of strand peer (R157, R333). -/
  | lk (r peer reg : Nat)
  deriving DecidableEq, Repr

/-- One write-back: a scalar, a vector with the lanes it writes, or a predicate with the bits it writes (R127, R128). -/
inductive WB where
  | s (r : Nat) (x : SV)
  | v (r : Nat) (x : VV) (mask : W64)
  | k (r : Nat) (x : PV) (mask : W64)
  | lk (r peer reg : Nat) (x : VV)
  deriving DecidableEq, Repr

/-! ### Traps -/

/-- Cause codes of Table 16-1 (R361). -/
inductive Cause where
  | fetch | xlate | illins | illopnd | gangsync | qunf | qovf | poison | fmtmis | peer | wrperm | spovf | pinovf
  | fwdwait | invidx | memue | sysc | brk | debug | preempt
  deriving DecidableEq, Repr

/-- A trap as it is raised: cause, subcause, the slot, whether it was met in a fetch, EINFO and EADDR (R364, R367). -/
structure Trap where
  cause : Cause
  sub : Nat := 0
  slot : Nat := 0
  fx : Bool := false
  einfo : W64 := 0
  eaddr : W64 := 0
  /-- The cause code when `TWAIT` delivers a fault word (R311). -/
  code : Option Nat := none
  /-- Raised by a re-injected entry (R368). -/
  rq : Bool := false
  deriving DecidableEq, Repr

/-! ### Operations in flight -/

/-- An issued operation with a fixed write-back clock (R176, R253). -/
structure Flight where
  id : Nat
  seq : Nat
  slot : Nat
  due : Nat
  wbs : List WB
  flags : LaneFlags
  caps : List (Nat × Nat)
  deriving DecidableEq, Repr

/-- Where a physical access goes (Table 3-1, R351). -/
inductive Target where
  | mem (pa : Nat)
  | window (w dlm : Nat) (pa : Nat)
  deriving DecidableEq, Repr

/-- One single-copy atomic write of a strand: its virtual address, its target's first byte and the enabled bytes by
offset (R226). -/
structure Piece where
  va : W64
  tgt : Target
  bytes : List (Nat × Byte)
  /-- One access with the piece before it: an element that lies in two lines (R226). -/
  join : Bool
  deriving DecidableEq, Repr

/-- One read of an operation: address, target, length, the leaf that translated it, and the bytes once read with the
mark of their line (R226, R252). -/
structure Rd where
  va : W64
  tgt : Target
  len : Nat
  w0 : W64
  w1 : W64
  got : Option (List Byte × Bool)
  /-- One access with the read before it: an element that lies in two lines (R226). -/
  join : Bool
  deriving DecidableEq, Repr

/-- An open operation, which is also a replay entry (R369, R370, Table 16-5). -/
structure Entry where
  id : Nat
  seq : Nat
  slot : Nat
  pc : W64
  instr : Instr
  ext : Option (BitVec 20)
  /-- The strand's long word was ganged when it issued (R115). -/
  gang : Bool
  frame : Bool
  /-- Its checks are to be made again: it was captured for re-injection (R368, R370). -/
  slip : Bool
  done : Bool
  placed : Bool
  /-- A live entry of a save: re-injected at the resume (R376, R381). -/
  live : Bool
  resolved : Bool
  step : Nat
  aux : W64
  x : VV
  y : VV
  z : List VV
  pred : PV
  dests : List Dest
  caps : List (Nat × Nat)
  clk : Nat
  /-- The reads it makes, in order; and, for an atomic or a write that waits, the target it writes. -/
  rds : List Rd
  /-- Flags that its stream operands raised as they were converted (R53). -/
  fl : LaneFlags
  /-- The streams it popped, with position and whether a vector had been delivered as they stood before, and the draws it made
  (R46, R252). -/
  undo : List (Nat × Nat × Bool × Nat)
  deriving DecidableEq, Repr

/-- A queued write of a strand (R113, R234). -/
structure QWrite where
  id : Nat
  seq : Nat
  slot : Nat
  pc : W64
  instr : Instr
  ext : Option (BitVec 20)
  x : VV
  y : VV
  z : List VV
  pred : PV
  va : W64
  pieces : List Piece
  /-- Flags of its conversion, recorded when it performs (R54, R256), and those that its stream operands raised (R53). -/
  fl : LaneFlags
  sfl : LaneFlags
  /-- `MCST`: logical numbers of the remote peers, in list order (R278). -/
  peers : List Nat
  deriving DecidableEq, Repr

/-- A posted write of a strand not yet acknowledged (R243, R278). -/
structure Posted where
  id : Nat
  va : W64
  dst : Nat
  seqno : Nat
  window : Option Nat
  mcst : Bool
  acked : Bool
  refused : Bool
  deriving DecidableEq, Repr

/-- A window load or atomic sent and not returned (R244). -/
structure WinReq where
  id : Nat
  dst : Nat
  seqno : Nat
  deriving DecidableEq, Repr

/-! ### Strand -/

/-- The register files of a strand (Table 6-6). -/
structure Regs where
  sq : AMap (List (QCell SV))
  sp : AMap SV
  vq : AMap (List (QCell VV))
  vp : AMap VV
  kp : AMap PV
  deriving DecidableEq, Repr

/-- System registers and control state of a strand (Table 6-12). -/
structure Ctl where
  exl : Bool
  pinLost : Bool
  trapBase : W64
  epc : W64
  einfo : W64
  eaddr : W64
  fx : Bool
  rq : Bool
  eslot : BitVec 2
  sub : Byte
  cause : Byte
  dbgctl : BitVec 2
  preq : Bool
  dline : W32
  /-- t0 of the pre-emption request (R374). -/
  t0 : Nat
  srng : W64
  quant : BitVec 16
  splim : BitVec 17
  pts : W64
  flags : LaneFlags
  /-- In a handler that a gang's trap entered: the strand left a gang (Table 16-2, R117). -/
  leftGang : Bool
  /-- SVCAUSE: the cause of the last save or stop of the strand (R376, R387, Table 16-7). -/
  svcause : Byte := 0
  deriving DecidableEq, Repr

/-- A bundle whose slots B and C have not issued (R110, R111). -/
structure Pair where
  seq : Nat
  pc : W64
  /-- CNT, NXT and L of the line, for NextPC (R145). -/
  link : W32
  wa : W32
  wb : W32
  wc : W32
  /-- Slot A was not issued: a SLIP mark stood for it (R368). -/
  aMarked : Bool
  /-- First slot to issue: 0 or 1 both, 2 C only (R366). -/
  from_ : Nat
  deriving DecidableEq, Repr

/-- A fetched bundle whose slot A has not issued (R108). -/
structure Bundle where
  seq : Nat
  pc : W64
  link : W32
  wa : W32
  wb : W32
  wc : W32
  /-- Slot A was issued before (a SLIP mark), or ESLOT is past it (R366, R368). -/
  aDone : Bool
  from_ : Nat
  deriving DecidableEq, Repr

/-- The slot being executed: its bundle's number, PC, link word, immediate extension, and whether it is ganged. -/
structure Ctx where
  seq : Nat
  pc : W64
  link : W32
  ext : Option (BitVec 20)
  gang : Bool
  deriving DecidableEq, Repr

/-- The issue state of a strand (R106 to R113, R364, R368). -/
structure Front where
  ctx : Ctx
  pc : W64
  /-- Falling off a line with L = 1: the next fetch raises FETCH END (R107). -/
  fellOff : Bool
  latch : Option Bundle
  pairs : List Pair
  seq : Nat
  held : Option (Nat × W64 × Trap)
  trapping : Option (Nat × W64 × Trap)
  wake : Nat
  /-- The slot just executed stalled (R131). -/
  stalled : Bool
  /-- The slot just executed trapped. -/
  trapped : Bool
  /-- SLIP marks in force, by bundle number and PC, and those the trap frame holds for the return, by the distance from
  the trapping bundle (R366, R368). -/
  marks : List (Nat × W64)
  frameMarks : List (Nat × W64)
  firstSlot : Nat
  /-- Open slot-C operation that holds later bundles (R426). -/
  waitC : Option Nat
  /-- PC value of the bundle whose `HALT` took effect (R390). -/
  haltedPc : Option W64
  yielded : Bool
  stopped : Bool
  /-- A bundle has issued since the last DEBUG (R119). -/
  stepped : Bool
  /-- Link entries popped, by bundle number, with the senders' pts: they order what follows the next resynchronising
  bundle (R334). -/
  edges : List (Nat × W64)
  deriving DecidableEq, Repr

/-- A bound stream register (R265 to R271). -/
structure Stream where
  desc : List W64
  chain : W64
  scale : W32
  preds : AMap PV
  /-- P of MODE 1 (R266). -/
  parts : Nat
  /-- Vectors of the stream under its chain (R269). -/
  length : Nat
  pos : Nat
  /-- A vector was delivered since SBIND or SPOS.SET (R269). -/
  delivered : Bool
  /-- The pattern vector being read, and its reads. -/
  next : Nat
  rds : List Rd
  /-- The operation number at which its reads were planned (R78). -/
  planned : Nat
  /-- Pattern vectors read and kept, and the flags that their decoding raised (R53). -/
  raw : AMap VV
  rawFlags : AMap LaneFlags
  /-- The faulting pattern vector, if any (R270). -/
  fault : Option (Nat × Trap)
  deriving DecidableEq, Repr

/-- A completion counter (R312, Table 13-7). -/
structure Tc where
  count : W64
  fault : W64
  addr : W64
  flags : BitVec 7
  /-- Greatest pts of the tasks whose completions it counted: the join edge (R241). -/
  pts : W64
  deriving DecidableEq, Repr

/-- The push side of a local vector queue bound to a peer's queue (R157, R333). -/
structure Link where
  peer : Nat
  reg : Nat
  broken : Bool
  deriving DecidableEq, Repr

/-- A link push written back and not committed (R333). -/
structure LinkPush where
  id : Nat
  seq : Nat
  reg : Nat
  peer : Nat
  peerReg : Nat
  val : VV
  due : Nat
  pts : W64
  deriving DecidableEq, Repr

/-- What a strand took from its bind record and launch (R95). -/
structure Bound where
  lid : Nat
  grp : Nat
  pos : Nat
  groups : Nat
  qnum : Nat
  asid : Nat
  tenant : Nat
  part : Nat
  root : Nat
  ttbase : W64
  ttcount : Nat
  deriving DecidableEq, Repr

/-- One strand (R22, Table 4-6). -/
structure Strand where
  regs : Regs
  ctl : Ctl
  front : Front
  flights : List Flight
  open_ : List Entry
  /-- Slot-A operations completed while an earlier slot can still trap (R253, R364). -/
  past : List Entry
  /-- FRAME entries of the replay queue (R364). -/
  frame : List Entry
  wq : List QWrite
  posted : List Posted
  winReqs : List WinReq
  streams : AMap Stream
  tcs : AMap Tc
  links : AMap Link
  linkPend : List LinkPush
  /-- Spill bank by 4-byte word, with tags (R276). -/
  spill : AMap (W32 × Bool)
  bound : Option Bound
  running : Bool
  halted : Bool
  /-- Earliest clock at which each posted or unresolved wait is looked at again (R337). -/
  waitAt : Nat
  deriving DecidableEq, Repr

/-! ### Core -/

/-- One copy of a codebook bank (R73). -/
structure BankCopy where
  mode : Nat
  entries : AMap W64
  valid : BitVec 256
  readers : Nat
  deriving DecidableEq, Repr

/-- A codebook bank: both copies, which is current, the generation (R73, R75). -/
structure Bank where
  c0 : BankCopy
  c1 : BankCopy
  cur : Bool
  gen : BitVec 16
  deriving DecidableEq, Repr

/-- A counting semaphore: count and wait list of (strand, entry id, amount) (R328, R331). -/
structure Sem where
  count : Nat
  waits : List (Nat × Nat × Nat)
  /-- Greatest pts of the updates applied (R330). -/
  pts : W64
  deriving DecidableEq, Repr

/-- A mutex: holder position, wait list of (strand, entry id) (R328, R332). -/
structure Mutex where
  holder : Option Nat
  waits : List (Nat × Nat)
  /-- Strands whose `MXTRY` issued in this clock, with entry ids. -/
  tries : List (Nat × Nat)
  pts : W64
  deriving DecidableEq, Repr

/-- Updates of one clock, applied at its end in ascending position (R329). -/
inductive Upd where
  | jset (mask : BitVec 16) (pts : W64)
  | jclr (mask : BitVec 16)
  | post (sem n : Nat) (pts : W64)
  | unlock (mx pos : Nat) (pts : W64)
  deriving DecidableEq, Repr

/-- A translation held in a TLB: a whole leaf (R76). -/
structure Tlb where
  asid : Nat
  level : Nat
  base : Nat
  w0 : W64
  w1 : W64
  /-- Physical address of the entry's word 0, for A and D (R66). -/
  pte : Nat
  deriving DecidableEq, Repr

/-- A leased line copy (R230). -/
structure Copy where
  wts : W64
  rts : W64
  data : List Byte
  mark : Bool
  asid : Nat
  deriving DecidableEq, Repr

/-- Gang state of a core (R114 to R120). -/
structure Gang where
  on : Bool
  /-- Strands (0-3) whose `GANG` waits, with its entry id. -/
  arrived : AMap Nat
  /-- Strands out of the gang in a handler or stopped for it (R117). -/
  away : List Nat
  /-- From this clock the gang issues. -/
  since : Nat
  deriving DecidableEq, Repr

/-- One core (R22, R73, R328). -/
structure Core where
  banks : AMap Bank
  join : BitVec 16
  /-- Greatest pts of the updates of each join bit (R330). -/
  joinPts : AMap W64
  sems : AMap Sem
  muts : AMap Mutex
  upds : List (Nat × Upd)
  gang : Gang
  park : AMap VV
  parkGranted : Bool
  tlb : List Tlb
  l1 : AMap Copy
  ctx : Option Nat
  deriving DecidableEq, Repr

/-! ### Wing and die -/

/-- A tile tag (R284). -/
structure Tag where
  asid : Nat
  tid : Nat
  c3 : Nat
  c2 : Nat
  c1 : Nat
  c0 : Nat
  deriving DecidableEq, Repr

/-- A tensor descriptor as read (Table 3-5). -/
structure Tensor where
  base : W64
  ext : List Nat
  str : List W64
  rank : Nat
  cbk : Nat
  sck : Nat
  fmt : Nat
  padc : Nat
  deriving DecidableEq, Repr

/-- A slot of a tile cache with its sidecar (R284, Table 12-1). -/
structure Slot where
  tag : Tag
  tens : Tensor
  v : Bool
  dirty : Bool
  fill : Bool
  wbf : Bool
  parks : Bool
  cat : Nat
  once : Bool
  pins : Byte
  ver : BitVec 16
  wts : W64
  rts : W64
  prow : W64
  zbm : BitVec 512
  scl : AMap Byte
  sup : AMap W32
  rows : AMap VReg
  /-- The leaves that its fill translated through (R294). -/
  pages : List Tlb
  /-- What the copy holds exclusively: a physical line, and the part of the copy written there since: row r, or the scales of
  row r as 64 + r (R231, R233, R294). -/
  own : List (Nat × Nat)
  deriving DecidableEq, Repr

/-- Who waits for a tile. -/
inductive Waiter where
  | op (n id : Nat)
  | task (uid : Nat)
  | stream (n q : Nat)
  | itin (uid : Nat)
  | fill (wing id : Nat)
  /-- The launch front-end, for the completion record of a launch (R392). -/
  | front (lid : Nat)
  /-- The preparation of a bind record, for a codebook image (R94). -/
  | prep (uid : Nat)
  deriving DecidableEq, Repr

/-- A fill in flight, with the requests joined to it (R288). -/
structure Fill where
  id : Nat
  tag : Tag
  set : Nat
  /-- The way it fills, once a victim has been chosen (R288, R292). -/
  way : Nat
  placed : Bool
  minv : Nat
  hint : Nat
  bound : Bound
  waiters : List Waiter
  started : Nat
  /-- Reads of rows, scales and super-scales, once they are planned (R288). -/
  planned : Bool
  rds : List Rd
  pages : List Tlb
  tens : Tensor
  /-- Pins of the copy that it refills (R293). -/
  pins : Byte
  /-- The descriptor has been read (R288 step 2). -/
  desc : Bool
  /-- The slot is kept for a task that writes every non-pad element of the tile (R317). -/
  zero : Bool
  /-- Pin and unpin hints of the itineraries that joined it: core, hint (R293, R295). -/
  hints : List (Nat × Nat)
  /-- A window copy installed that still serves joined requests (R299). -/
  done : Bool
  deriving DecidableEq, Repr

/-- A parked request of the wing's replay queue (R290). -/
structure Parked where
  who : Waiter
  tags : List (Tag × Nat)
  deriving DecidableEq, Repr

/-- What a request packet does at its target (R344): a posted store; one of a tile row, whose last byte is written in its
`bits` low bits alone (0: in all) and whose data may be damaged; a reduce write of a format with a rounding mode and the
generator's state, of data that may be damaged; a multicast write with the later targets of its chain and their numbers; the
posted add of `CBAR`; a load of `len` bytes; an atomic of an `AMO` operation (10 is `CAS`). -/
inductive PktKind where
  | store | row (bits : Nat) (dmg : Bool) | reduce (fmt rm : Nat) (rng : W64) (dmg : Bool) | mcst (chain : List (Nat × Nat)) | add
  | load (len : Nat) | atomic (op : Nat)
  deriving DecidableEq, Repr

/-- A packet that a task has still to send: the address it stands for, the module, and what it does there (R299, R327). -/
structure Outgoing where
  va : W64
  dst : Nat
  kind : PktKind
  pa : Nat
  bytes : List (Nat × Byte)
  window : Nat
  deriving DecidableEq, Repr

/-- What became of a task (R306, R313, R314). -/
inductive TaskPhase where
  | queued
  | parked
  | dispatched (due : Nat)
  | waiting
  | done
  deriving DecidableEq, Repr

/-- A tile task (R303 to R309). -/
structure Task where
  uid : Nat
  qpa : Nat
  seqno : Nat
  rec_ : List W64
  strand : Nat
  wing : Nat
  bound : Bound
  /-- Bank captures: core (512 once the core has changed owner), bank, copy; and what the copy holds (R75). -/
  caps : List (Nat × Nat × Nat)
  copy : BankCopy
  rng : W64
  fork : W64
  phase : TaskPhase
  flags : BitVec 7
  /-- The engine effect was carried out. -/
  ran : Bool
  fault : Option Trap
  cancelled : Bool
  /-- Posted writes of the task not yet acknowledged, and packets not yet sent (R299, R327). -/
  pend : Nat
  out : List Outgoing
  /-- Tiles that it reads or writes while it is parked or dispatched (R291), and those that it writes with their home slices
  (R296, R297). -/
  tiles : List Tag
  wrote : List (Tag × Nat)
  /-- `ITIN`: operands left, and how many tiles of the first are done; `CBAR`: 1 once its add is sent (R295, R327). -/
  ops : List (W64 × W64)
  step : Nat
  deriving DecidableEq, Repr

/-- An attached task queue (R304). -/
structure TaskQueue where
  qpa : Nat
  wing : Nat
  asid : Nat
  seqno : W64
  ret : W64
  stop : Bool
  stopTrap : Option Trap
  /-- The greatest pts of its tasks that are over (R241). -/
  pts : W64
  deriving DecidableEq, Repr

/-- A matrix engine (R318 to R321). -/
structure Buf where
  wt : Nat
  ke : Nat
  /-- Expanded weights by 128 i + n, in the expanded type. -/
  w : AMap Nat
  /-- Exponents by 8 n + u; 255 is kept as the NaN scale. -/
  eb : AMap Int
  poison : Bool
  deriving DecidableEq, Repr

/-- One engine: weight buffers, accumulators, partials, counts, row poison, claim and the context it last served. -/
structure Engine where
  act : Buf
  shadow : Buf
  acc : AMap W32
  part : AMap (BitVec 26)
  cnt : AMap Nat
  rowPoison : BitVec 256
  claim : Option Nat
  ctx : Option Nat
  deriving DecidableEq, Repr

/-- A ticketed arbiter: V, pass values by queue, launch and source pointers (R102). -/
structure Arbiter where
  vt : Nat
  pass : AMap Nat
  inB : List Nat
  lptr : AMap Nat
  sptr : AMap Nat
  deriving DecidableEq, Repr

/-- An outstanding miss of a wing: the page, the table to walk, whether D is wanted, and when it arrived (R66, R77). -/
structure Miss where
  asid : Nat
  page : Nat
  root : Nat
  tenant : Nat
  wantD : Bool
  clk : Nat
  deriving DecidableEq, Repr

/-- What a walk found wrong with a page, delivered to the accesses that retry in the next clock (R77, R79). -/
structure MissFault where
  asid : Nat
  page : Nat
  cause : Cause
  sub : Nat
  clk : Nat
  deriving DecidableEq, Repr

/-- A walk-cache entry of a die: one page-table entry of any level (Table 3-10). -/
structure WalkEnt where
  asid : Nat
  level : Nat
  tag : Nat
  pa : Nat
  w0 : W64
  w1 : W64
  deriving DecidableEq, Repr

/-- One wing. -/
structure Wing where
  slots : AMap Slot
  tree : AMap (BitVec 16)
  replay : List Parked
  fills : List Fill
  engines : AMap Engine
  docent : Arbiter
  prefetch : Arbiter
  tlb : List Tlb
  /-- Outstanding misses (R76, R77). -/
  misses : List Miss
  missFaults : List MissFault
  /-- Requests released from the replay queue in the last clock, in the order in which they took their entries (R290). -/
  released : List Waiter
  withheld : Nat
  deriving DecidableEq, Repr

/-- One die. -/
structure Die where
  l2 : AMap Copy
  walk : List WalkEnt
  /-- pts of the die's translation walker (R225, R230). -/
  walkPts : W64
  arb : Arbiter
  supply : Nat
  deriving DecidableEq, Repr

/-! ### Module -/

/-- The home record of a line (R230). -/
structure Home where
  wts : W64
  mrts : W64
  excl : Option Nat
  deriving DecidableEq, Repr

/-- A catalogue entry (R297). -/
structure CatEntry where
  tag : Tag
  ver : BitVec 16
  holders : W64
  excl : Option Nat
  slice : Nat
  deriving DecidableEq, Repr

/-- A context record as read (Table 4-1). -/
structure Context where
  pa : Nat
  words : List W64
  deriving DecidableEq, Repr

/-- A registered launch queue (R83, R85, R86, R100). -/
structure LaunchQueue where
  num : Nat
  qbase : W64
  ctx : Nat
  tickets : Nat
  failed : Bool
  skips : List W64
  waitSkips : List W64
  deriving DecidableEq, Repr

/-- The first fault of a launch (R391). -/
structure FirstFault where
  grp : Nat
  pos : Nat
  pc : W64
  addr : W64
  cause : Nat
  sub : Nat
  clk : Nat
  deriving DecidableEq, Repr

/-- Where a group of a launch stands. -/
inductive GroupPhase where
  | pending (entry : Nat)
  | running
  | saved
  | saving
  | killed
  | ended (status : Nat)
  deriving DecidableEq, Repr

/-- A group that has been bound at least once in the current attempt (R90 to R99). -/
structure Group where
  lid : Nat
  grp : Nat
  strands : List Nat
  phase : GroupPhase
  /-- Faulted rather than cancelled when it ends (R389). -/
  faulted : Bool
  /-- The trap that ended it, as the completion record names it (R391). -/
  fault : Option FirstFault
  deriving DecidableEq, Repr

/-- An entry of the active launch table (R85, R87). -/
structure Launch where
  lid : Nat
  qnum : Nat
  rec_ : List W64
  rejected : Bool
  cancelled : Bool
  pts : W64
  ff : Option FirstFault
  rstLost : Bool
  started : Bool
  plive : Bool
  refusedW : Bool
  uerr : Bool
  uecnt : Nat
  uepa : Nat
  relaunch : Nat
  /-- Write-log entries made: physical line, image, stamp, mark (R384). -/
  log : List (Nat × List Byte × W64 × Bool)
  recordStage : Nat
  /-- Clock in which its last group completed (R391), and the greatest pts of its tasks that are over (R392). -/
  endClk : Nat := 0
  taskPts : W64 := 0
  deriving DecidableEq, Repr

/-- A pending bind record (Table 4-5). -/
structure BindRec where
  start : Nat
  level : Nat
  lid : Nat
  grp : Nat
  smask : Nat
  unit : Nat
  res : Bool
  /-- The preparation (R94): the record's own number, for what returns through the fabric; whether it has ended; the reads of
  the codebook images once they are planned; the images as loaded banks; what went wrong. -/
  uid : Nat
  prepared : Bool
  planned : Bool := false
  rds : List Rd := []
  banks : AMap Bank := []
  fault : Option Trap := none
  deriving DecidableEq, Repr

/-- A saved group: strand images by position and core images (R379, R380). -/
structure SavedGroup where
  lid : Nat
  grp : Nat
  strands : AMap Strand
  cores : AMap Core
  svcause : Cause
  deriving DecidableEq, Repr

/-- A request packet held at its source until acknowledged (R353, R355). -/
structure Packet where
  seqno : Nat
  /-- The virtual address it stands for, for EADDR of a refusal (R350). -/
  va : W64
  kind : PktKind
  pa : Nat
  bytes : List (Nat × Byte)
  part : Nat
  /-- Issuing strand and operation, or the task, to which a refusal is reported. -/
  who : Waiter
  window : Option Nat
  sent : Bool
  /-- The value that it asked for has returned, which acknowledges its number (R354). -/
  back : Bool := false
  deriving DecidableEq, Repr

/-- The source side of a pair (R353, R355). -/
structure PairSrc where
  next : Nat
  unacked : List Packet
  advanced : Nat
  reported : Bool
  deriving DecidableEq, Repr

/-- A packet held in the reorder buffer (R354). -/
structure HeldPkt where
  seqno : Nat
  epoch : Nat
  part : Nat
  kind : Nat
  pa : Nat
  data : List Byte
  deriving DecidableEq, Repr

/-- The target side of a pair (R353, R354). -/
structure PairDst where
  expected : Nat
  held : List HeldPkt
  /-- Commits since the last acknowledgement; those among them that no returned value acknowledges, and the clock of the
  oldest. -/
  unackedN : Nat
  owed : Nat
  since : Nat
  /-- Numbers refused that an acknowledgement may still have to carry. -/
  refusals : List Nat
  deriving DecidableEq, Repr

/-- A link of the module: local link `idx`, or global port `idx` (Table 15-1). -/
structure Hop where
  glob : Bool
  idx : Nat
  deriving DecidableEq, Repr

/-- What the module sent out: packets with the number of their source, acknowledgements and returned data, and the responses of
others on their way, each over a link; host answers, mailbox answers. -/
inductive Out where
  | packet (hop : Hop) (src dst seqno epoch part : Nat) (kind : PktKind) (pa : Nat) (bytes : List (Nat × Byte))
  | ack (hop : Hop) (src c : Nat) (refusals : List Nat)
  | data (hop : Hop) (src seqno : Nat) (bytes : List Byte)
  /-- A response of other modules on its way through this one: its kind and content as they came (R344, R345). -/
  | response (hop : Hop) (src dst seqno kind : Nat) (bytes : List Byte)
  | hostData (port : Nat) (bytes : List Byte)
  | hostDone (port : Nat)
  | mailbox (bytes : List Byte)
  deriving DecidableEq, Repr

/-- The fabric interface: both banks of the identity table, own number, windows, pairs (R347 to R357). -/
structure Fabric where
  active : AMap W32
  shadow : AMap W32
  own : Option Nat
  windows : AMap (W64 × W64)
  /-- Who waits at a full allowance, in order of arrival, with the clock of the last retry and the units asked for (R352). -/
  allowQ : AMap (List (Waiter × Nat × Nat))
  src : AMap PairSrc
  dst : AMap PairDst
  /-- Who waits for the value of a window load or atomic (R244). -/
  awaits : List Waiter
  /-- Numbers that have been enabled for traffic (R353). -/
  enabled : List Nat
  reorder : Nat
  failedLinks : List (Bool × Nat)
  sent : List Out
  /-- What the Curator was told: 1 and a failed destination; 2, whether it is a global port, and a failed link; 3, a
  number taken over, the oldest number retained for it, the number expected from it (R344, R355, R358). -/
  reports : List (List Nat)
  /-- pts of the commit agent (R225). -/
  commitPts : W64
  /-- The ticketed arbiter of each port, by first hop: 32 KIND + IDX (Table 4-8, R102, Table 15-1). -/
  ports : AMap Arbiter
  deriving DecidableEq, Repr

/-- A shootdown requested (R78, R163): strand and operation that wait, ASID, virtual base, length, once the entries are
dropped the operation number below which accesses may still use an old one, and the page whose tiles the Curator removes after
it (R301). -/
structure Shoot where
  n : Nat
  id : Nat
  asid : Nat
  base : Nat
  len : Nat
  dropped : Option Nat
  move : Option Nat := none
  deriving DecidableEq, Repr

/-- The Curator's own store (R397 to R402). -/
structure Curator where
  flash : List (List Byte)
  floors : AMap Nat
  ownerKeys : List (List Byte)
  loaded : List (List Byte)
  certified : Bool
  recovery : Bool
  /-- Event log: a code below 8 plus 8 times a number (1 queue read failed, 2 record not written, 3 skip refused, its queue and
  1,024 times its slot, 4 tile data lost at the teardown of an ASID). -/
  log : List Nat
  withdrawn : List Nat
  throttle : Nat
  thermal : Bool
  result : W64
  shootdowns : List Shoot
  /-- Pages that a `PGPASS` has closed: physical base, size, operation (R338). -/
  closed : List (Nat × Nat × Nat)
  deriving DecidableEq, Repr

/-- Whose turn it is: an event, one strand's issue, a ganged core's long word, the other agents, the clock's end. -/
inductive Turn where
  | ev (i : Instr)
  | strand (n : Nat)
  | gang (core : Nat)
  /-- The agents other than strands act; the updates of the clock apply (R329). -/
  | late
  | close
  /-- Saves and stops whose clock has come begin or go on, before any strand issues (R375, R376). -/
  | early
  /-- A cancelled launch is killed from the next clock (R97). -/
  | kill (lid : Nat)
  deriving DecidableEq, Repr

/-- The whole module. -/
structure State where
  clk : Nat
  mem : List Host.Cell
  marks : List Nat
  homes : AMap Home
  strands : AMap Strand
  cores : AMap Core
  wings : AMap Wing
  dies : AMap Die
  catalogue : List CatEntry
  tqueues : List TaskQueue
  tasks : List Task
  contexts : List Context
  lqueues : AMap LaunchQueue
  /-- The queue number at which the front-end starts its next round (R85). -/
  nextQueue : Nat
  /-- pts of the launch front-end (R232) and of the four host-port agents (R225). -/
  frontPts : W64
  portPts : AMap W64
  launches : AMap Launch
  groups : List Group
  placement : AMap BindRec
  saved : List SavedGroup
  fabric : Fabric
  cur8 : Curator
  /-- The model's own fields (log entries 3 and 4): turns left in this clock, inputs not taken, the strand whose slot
  executes, operation numbers and the number at the start of the clock, draws of free values. -/
  agenda : List Turn
  inbox : List Instr
  cur : Nat
  opId : Nat
  clkOp : Nat
  freeCtr : Nat
  deriving DecidableEq, Repr

/-! ### Stops -/

/-- Reasons for which the machine stops with a fault. -/
inductive Fault where
  /-- A host agent, a fabric packet or the Curator names a physical address outside the memory it acts on (Table 3-1).
  Raised by the host and packet events. Safe: the spec gives such an access no effect, so nothing more is claimed about
  it. -/
  | reservedAddress
  deriving DecidableEq, Repr

/-- Reasons for which an instruction is refused. -/
inductive Refusal where
  /-- The arm of `exec` has no meaning yet. Raised by Dispatch only. Safe: no claim is made about it. -/
  | notModelled (mnemonic : String)
  deriving DecidableEq, Repr

/-- What every meaning answers. -/
abbrev Result := Host.Outcome State Fault Refusal

/-! ### Reset -/

def SV.zero : SV := ⟨0, false⟩
def VV.zero : VV := ⟨0, 0⟩
def PV.zero : PV := ⟨0, 0⟩

/-- Registers before a group start: queues empty, plain registers zero (log entry 1). -/
def Regs.reset : Regs := ⟨[], [], [], [], []⟩

/-- Control registers before a group start (log entry 1); SRNG as R46 gives for position 0. -/
def Ctl.reset : Ctl :=
  { exl := false, pinLost := false, trapBase := 0, epc := 0, einfo := 0, eaddr := 0, fx := false, rq := false,
    eslot := 0, sub := 0, cause := 0, dbgctl := 0, preq := false, dline := 0, t0 := 0,
    srng := 0x9E3779B97F4A7C15#64, quant := 0, splim := 0, pts := 0, flags := 0, leftGang := false }

def Front.reset : Front :=
  { ctx := ⟨0, 0, 0, none, false⟩, pc := 0, fellOff := false, latch := none, pairs := [], seq := 0, held := none, trapping := none, wake := 0,
    stalled := false, trapped := false, marks := [], frameMarks := [], firstSlot := 0, waitC := none, haltedPc := none,
    yielded := false, stopped := false, stepped := false, edges := [] }

/-- A strand that no group holds. -/
def Strand.reset : Strand :=
  { regs := .reset, ctl := .reset, front := .reset, flights := [], open_ := [], past := [], frame := [], wq := [], posted := [],
    winReqs := [], streams := [], tcs := [], links := [], linkPend := [], spill := [], bound := none,
    running := false, halted := false, waitAt := 0 }

def BankCopy.reset : BankCopy := ⟨0, [], 0, 0⟩
def Bank.reset : Bank := ⟨.reset, .reset, false, 0⟩
def Gang.reset : Gang := ⟨false, [], [], 0⟩

/-- A core that no context holds: banks in mode 0, join bits clear, semaphores zero, mutexes free (R73, Table 4-6). -/
def Core.reset : Core :=
  { banks := [], join := 0, joinPts := [], sems := [], muts := [], upds := [], gang := .reset, park := [],
    parkGranted := false, tlb := [], l1 := [], ctx := none }

def Arbiter.reset : Arbiter := ⟨0, [], [], [], []⟩
def Buf.reset : Buf := ⟨0, 0, [], [], false⟩
def Engine.reset : Engine := ⟨.reset, .reset, [], [], [], 0, none, none⟩
def Wing.reset : Wing := ⟨[], [], [], [], [], .reset, .reset, [], [], [], [], 0⟩
def Die.reset : Die := ⟨[], [], 0, .reset, 0⟩

/-- Identity tables with every entry V = 0, no own number, window registers zero (R353, R397). -/
def Fabric.reset : Fabric := ⟨[], [], none, [], [], [], [], [], [], 0, [], [], [], 0, []⟩

/-- The Curator after a good boot with empty flash contents named by log entry 9. -/
def Curator.reset : Curator := ⟨[], [], [], [], false, false, [], [], 0, false, 0, [], []⟩

/-- The module right after reset: no context, no queue, no launch, no group; memory lists nothing (R397, log entries
1, 2, 3). -/
def State.reset : State :=
  { clk := 0, mem := [], marks := [], homes := [], strands := [], cores := [], wings := [], dies := [],
    catalogue := [], tqueues := [], tasks := [], contexts := [], lqueues := [], nextQueue := 0, frontPts := 0,
    portPts := [], launches := [],
    groups := [], placement := [], saved := [], fabric := .reset, cur8 := .reset, agenda := [], inbox := [],
    cur := 0, opId := 0, clkOp := 0, freeCtr := 0 }

end Sys2Proof.Machine
end

