-- ==== Sys2Proof/Machine/Map.lean ====
section
/-! DEFINITION. Reading and writing sparse maps, and access to the units of the module by number (R15, R26, R95). -/

namespace Sys2Proof.Machine

/-! ### Sparse maps -/

/-- The value at a key, or the default. -/
def mget {α : Type} (m : AMap α) (k : Nat) (d : α) : α :=
  match m with
  | [] => d
  | (j, v) :: r => if j = k then v else mget r k d

/-- The value at a key, if listed. -/
def mget? {α : Type} (m : AMap α) (k : Nat) : Option α :=
  match m with
  | [] => none
  | (j, v) :: r => if j = k then some v else mget? r k

/-- Set the value at a key, keeping the keys rising. -/
def mset {α : Type} (m : AMap α) (k : Nat) (v : α) : AMap α :=
  match m with
  | [] => [(k, v)]
  | (j, w) :: r =>
    if k < j then (k, v) :: (j, w) :: r
    else if k = j then (k, v) :: r
    else (j, w) :: mset r k v

/-- Remove a key. -/
def mdel {α : Type} (m : AMap α) (k : Nat) : AMap α :=
  match m with
  | [] => []
  | (j, w) :: r => if j = k then mdel r k else (j, w) :: mdel r k

/-! ### Units (R15, R95): strand n = 256 die + 32 wing + 4 core + strand -/

def coreOf (n : Nat) : Nat := n / 4
def wingOf (n : Nat) : Nat := n / 32
def dieOf (n : Nat) : Nat := n / 256
def posInCore (n : Nat) : Nat := n % 4

/-- Die kinds (R15): dies 0 to 3 are Dawn, dies 4 to 7 are Dusk. -/
def dieIsDawn (d : Nat) : Bool := decide (d < 4)

def State.strand (s : State) (n : Nat) : Strand := mget s.strands n Strand.reset
def State.core (s : State) (c : Nat) : Core := mget s.cores c Core.reset
def State.wing (s : State) (w : Nat) : Wing := mget s.wings w Wing.reset
def State.die (s : State) (d : Nat) : Die := mget s.dies d Die.reset

def State.setStrand (s : State) (n : Nat) (x : Strand) : State := { s with strands := mset s.strands n x }
def State.setCore (s : State) (c : Nat) (x : Core) : State := { s with cores := mset s.cores c x }
def State.setWing (s : State) (w : Nat) (x : Wing) : State := { s with wings := mset s.wings w x }
def State.setDie (s : State) (d : Nat) (x : Die) : State := { s with dies := mset s.dies d x }

/-- The strand whose slot executes. -/
def State.me (s : State) : Strand := s.strand s.cur

/-- Change one strand. -/
def State.modStrand (s : State) (n : Nat) (f : Strand → Strand) : State := s.setStrand n (f (s.strand n))
/-- Change one core. -/
def State.modCore (s : State) (c : Nat) (f : Core → Core) : State := s.setCore c (f (s.core c))
/-- Change one wing. -/
def State.modWing (s : State) (w : Nat) (f : Wing → Wing) : State := s.setWing w (f (s.wing w))
/-- Change one die. -/
def State.modDie (s : State) (d : Nat) (f : Die → Die) : State := s.setDie d (f (s.die d))

/-- Draw a free value: the index of the draw and the state with the counter advanced (log entry 8). -/
def State.draw (s : State) : Nat × State := (s.freeCtr, { s with freeCtr := s.freeCtr + 1 })

/-- A new operation number. -/
def State.newId (s : State) : Nat × State := (s.opId, { s with opId := s.opId + 1 })

end Sys2Proof.Machine
end

