-- ==== Sys2Proof/Machine/Num.lean ====
section
/-! DEFINITION. Number formats, rounding and conversion (02_numbers.md, R29 to R50), and the exact
mathematics under them. Everything is computed on exact values; one rounding makes each result (R44, R47, R203).
All recursion is structural. -/

namespace Sys2Proof.Machine

/-! ### Bits and integers -/

/-- Number of bits of `n` (0 for 0). -/
def bitLen (n : Nat) : Nat := if n = 0 then 0 else Nat.log2 n + 1

/-- The signed reading of the low `w` bits of `n` (R29). -/
def sIntN (w n : Nat) : Int :=
  let m := n % 2 ^ w
  if w = 0 then 0 else if 2 ^ (w - 1) ≤ m then (m : Int) - (2 ^ w : Nat) else m

/-- The low `w` bits of an integer, as a pattern (Trunc of R49). -/
def truncN (w : Nat) (x : Int) : Nat := (x % ((2 ^ w : Nat) : Int)).toNat

/-- Bits `hi`..`lo` of `n`. -/
def bitsN (n hi lo : Nat) : Nat := (n >>> lo) % 2 ^ (hi + 1 - lo)

/-- Bit `i` of `n`. -/
def bitN (n i : Nat) : Bool := Nat.testBit n i

/-- Floor of the square root of `n`, computed bit by bit from bit `k` down (k + 1 bits of result). -/
def isqrtFrom (n : Nat) : Nat → Nat → Nat
  | 0, r => if (r + 1) * (r + 1) ≤ n then r + 1 else r
  | k + 1, r =>
    let r' := r + 2 ^ (k + 1)
    isqrtFrom n k (if r' * r' ≤ n then r' else r)

/-- Floor of the square root. -/
def isqrt (n : Nat) : Nat := isqrtFrom n (bitLen n / 2) 0

/-! ### Flags of one lane (Table 2-8) -/

def fIX : Nat := 1
def fUF : Nat := 2
def fOF : Nat := 4
def fDZ : Nat := 8
def fIV : Nat := 16
def fSA : Nat := 32
def fPS : Nat := 64

/-! ### Formats (R31, R42) -/

/-- The binary floating-point formats of Table 2-1. -/
inductive FFmt where
  | fp32 | bf16 | fp16 | e4m3 | e5m2 | e2m1 | a26
  deriving DecidableEq, Repr

/-- Fraction bits. -/
def FFmt.frac : FFmt → Nat
  | .fp32 => 23 | .bf16 => 7 | .fp16 => 10 | .e4m3 => 3 | .e5m2 => 2 | .e2m1 => 1 | .a26 => 17
/-- Width in bits. -/
def FFmt.width : FFmt → Nat
  | .fp32 => 32 | .bf16 => 16 | .fp16 => 16 | .e4m3 => 8 | .e5m2 => 8 | .e2m1 => 4 | .a26 => 26
/-- Exponent bias. -/
def FFmt.bias : FFmt → Nat
  | .fp32 => 127 | .bf16 => 127 | .fp16 => 15 | .e4m3 => 7 | .e5m2 => 15 | .e2m1 => 1 | .a26 => 127
/-- The magnitude code of max finite (Table 2-1). -/
def FFmt.maxCode : FFmt → Nat
  | .fp32 => 0x7F7FFFFF | .bf16 => 0x7F7F | .fp16 => 0x7BFF | .e4m3 => 0x7E | .e5m2 => 0x7B | .e2m1 => 7
  | .a26 => 254 * 2 ^ 17 + (2 ^ 17 - 1)
/-- The magnitude code of infinity; in E4M3 the NaN that stands for it, in E2M1 max finite (Tables 2-5b, 2-7). -/
def FFmt.infCode : FFmt → Nat
  | .fp32 => 0x7F800000 | .bf16 => 0x7F80 | .fp16 => 0x7C00 | .e4m3 => 0x7F | .e5m2 => 0x7C | .e2m1 => 7
  | .a26 => 255 * 2 ^ 17
/-- The canonical NaN (R33); E2M1 has none and takes 0 (Table 2-7). -/
def FFmt.nanCode : FFmt → Nat
  | .fp32 => 0x7FC00000 | .bf16 => 0x7FC0 | .fp16 => 0x7E00 | .e4m3 => 0x7F | .e5m2 => 0x7E | .e2m1 => 0
  | .a26 => 255 * 2 ^ 17 + 2 ^ 16
/-- Whether the format encodes infinities. -/
def FFmt.hasInf : FFmt → Bool
  | .e4m3 => false | .e2m1 => false | _ => true

/-- The sixteen element formats of Table 2-4. -/
inductive EFmt where
  | raw | int4 | int8 | int16 | int32 | int64 | fp32 | bf16 | fp16 | e4m3 | e5m2 | e2m1 | q4n | cb4 | cb6 | cb8
  deriving DecidableEq, Repr

/-- The format of a 4-bit code (Table 2-4). -/
def EFmt.ofCode (n : Nat) : EFmt :=
  match n % 16 with
  | 0 => .raw | 1 => .int4 | 2 => .int8 | 3 => .int16 | 4 => .int32 | 5 => .int64 | 6 => .fp32 | 7 => .bf16
  | 8 => .fp16 | 9 => .e4m3 | 10 => .e5m2 | 11 => .e2m1 | 12 => .q4n | 13 => .cb4 | 14 => .cb6 | _ => .cb8

/-- The 4-bit code of a format (Table 2-4). -/
def EFmt.code : EFmt → Nat
  | .raw => 0 | .int4 => 1 | .int8 => 2 | .int16 => 3 | .int32 => 4 | .int64 => 5 | .fp32 => 6 | .bf16 => 7
  | .fp16 => 8 | .e4m3 => 9 | .e5m2 => 10 | .e2m1 => 11 | .q4n => 12 | .cb4 => 13 | .cb6 => 14 | .cb8 => 15

/-- Element bits (Table 2-4). -/
def EFmt.bits : EFmt → Nat
  | .raw => 8 | .int4 => 4 | .int8 => 8 | .int16 => 16 | .int32 => 32 | .int64 => 64 | .fp32 => 32 | .bf16 => 16
  | .fp16 => 16 | .e4m3 => 8 | .e5m2 => 8 | .e2m1 => 4 | .q4n => 4 | .cb4 => 4 | .cb6 => 6 | .cb8 => 8

/-- The floating-point format of an element format, if it is one. -/
def EFmt.float? : EFmt → Option FFmt
  | .fp32 => some .fp32 | .bf16 => some .bf16 | .fp16 => some .fp16 | .e4m3 => some .e4m3 | .e5m2 => some .e5m2
  | .e2m1 => some .e2m1 | _ => none

/-- The width of an integer element format, if it is one. -/
def EFmt.int? : EFmt → Option Nat
  | .int4 => some 4 | .int8 => some 8 | .int16 => some 16 | .int32 => some 32 | .int64 => some 64 | _ => none

/-- The codebook formats (R40). -/
def EFmt.isCb : EFmt → Bool
  | .cb4 => true | .cb6 => true | .cb8 => true | _ => false

/-! ### Exact values -/

/-- An exact value: a NaN (signalling or quiet), an infinity, or (-1)^neg * m * 2^e. -/
inductive XVal where
  | nan (sig : Bool)
  | inf (neg : Bool)
  | fin (neg : Bool) (m : Nat) (e : Int)
  deriving DecidableEq, Repr

/-- The exact value of an integer. -/
def XVal.ofInt (x : Int) : XVal := .fin (decide (x < 0)) x.natAbs 0

/-- Whether the value is a NaN. -/
def XVal.isNan : XVal → Bool
  | .nan _ => true | _ => false
/-- Whether the value is a signalling NaN. -/
def XVal.isSig : XVal → Bool
  | .nan b => b | _ => false
/-- Whether the value is zero. -/
def XVal.isZero : XVal → Bool
  | .fin _ m _ => m == 0 | _ => false
/-- Whether the value is an infinity. -/
def XVal.isInf : XVal → Bool
  | .inf _ => true | _ => false
/-- The sign; NaNs count as positive. -/
def XVal.sign : XVal → Bool
  | .nan _ => false | .inf n => n | .fin n _ _ => n
/-- The value with its sign inverted. -/
def XVal.negate : XVal → XVal
  | .nan b => .nan b | .inf n => .inf (!n) | .fin n m e => .fin (!n) m e
/-- The magnitude. -/
def XVal.abs : XVal → XVal
  | .nan b => .nan b | .inf _ => .inf false | .fin _ m e => .fin false m e

/-- The value of a pattern (R31, R32, R33). -/
def FFmt.decode (f : FFmt) (p : Nat) : XVal :=
  let neg := bitN p (f.width - 1)
  let mag := p % 2 ^ (f.width - 1)
  let e := mag >>> f.frac
  let fr := mag % 2 ^ f.frac
  let qmin : Int := 1 - (f.bias : Int) - (f.frac : Int)
  if f.maxCode < mag then
    (if f.hasInf then
      (if mag = f.infCode then .inf neg
       else .nan (match f with
         | .e5m2 => false
         | _ => !(bitN fr (f.frac - 1))))
     else .nan false)
  else if e = 0 then .fin neg fr qmin
  else .fin neg (2 ^ f.frac + fr) (qmin + (e : Int) - 1)

/-! ### Rounding (R43 to R45) -/

/-- The rounding modes of Table 2-5a. -/
inductive RMode where
  | rne | rz | ru | rd | sr
  deriving DecidableEq, Repr

/-- The mode of a 3-bit field; 5 to 7 are refused at decode. -/
def RMode.ofField (n : Nat) : RMode :=
  match n with
  | 0 => .rne | 1 => .rz | 2 => .ru | 3 => .rd | _ => .sr

/-- Whether a magnitude `n + rem / den` (0 ≤ rem < den) of sign `neg` rounds away from zero to `n + 1`
(R43; under SR by R45 with draw `r`). -/
def roundUp (mode : RMode) (neg : Bool) (n rem den r : Nat) : Bool :=
  match mode with
  | .rne => decide (den < 2 * rem) || (decide (den = 2 * rem) && decide (n % 2 = 1))
  | .rz => false
  | .ru => !neg && decide (0 < rem)
  | .rd => neg && decide (0 < rem)
  | .sr => decide (den * 65536 ≤ rem * 65536 + r * den)

/-- Round the magnitude m * 2^e to an integer multiple of 2^q: the multiple and whether it is exact.
A shift far past the value's bits is cut short, which keeps the remainder below 2^-18 of the unit. -/
def roundAt (mode : RMode) (neg : Bool) (m : Nat) (e q : Int) (r : Nat) : Nat × Bool :=
  if q ≤ e then (m <<< (e - q).toNat, true)
  else
    let sh := Nat.min (q - e).toNat (bitLen m + 18)
    let den := 2 ^ sh
    let n := m >>> sh
    let rem := m % den
    (if roundUp mode neg n rem den r then n + 1 else n, rem == 0)

/-- A rounded result: the pattern and the flags it raises. -/
structure Rounded where
  pat : Nat
  flags : Nat
  deriving DecidableEq, Repr

/-- Place a sign on a magnitude code. -/
def FFmt.signed (f : FFmt) (neg : Bool) (mag : Nat) : Nat := if neg then mag + 2 ^ (f.width - 1) else mag

/-- The overflow result of Table 2-5b, or of saturation (R44 steps 2 and 5). -/
def FFmt.overflow (f : FFmt) (mode : RMode) (neg sat : Bool) : Rounded :=
  if sat || f == .e2m1 then ⟨f.signed neg f.maxCode, fOF + fIX + fSA⟩
  else
    let toMax := match mode with
      | .rz => true | .ru => neg | .rd => !neg | _ => false
    ⟨f.signed neg (if toMax then f.maxCode else f.infCode), fOF + fIX⟩

/-- Round(fmt, x, mode, sat) of R44 for a finite exact value; `r` is the draw of R45. -/
def FFmt.roundFin (f : FFmt) (mode : RMode) (sat : Bool) (r : Nat) (neg : Bool) (m : Nat) (e : Int) : Rounded :=
  if m = 0 then ⟨f.signed neg 0, 0⟩
  else
    let qmin : Int := 1 - (f.bias : Int) - (f.frac : Int)
    let ex : Int := e + (bitLen m : Int) - 1
    let qn : Int := ex - (f.frac : Int)
    let q := max qn qmin
    let (n, exact) := roundAt mode neg m e q r
    let code := (q - qmin).toNat * 2 ^ f.frac + n
    if f.maxCode < code then f.overflow mode neg sat
    else
      let (nt, _) := roundAt mode neg m e qn r
      let ext : Int := if nt = 2 ^ (f.frac + 1) then ex + 1 else ex
      let tiny := decide (ext < 1 - (f.bias : Int))
      ⟨f.signed neg code, if exact then 0 else if tiny then fIX + fUF else fIX⟩

/-- Convert an exact value to a floating-point format (R44, R47, R48 with Table 2-7). -/
def FFmt.encode (f : FFmt) (mode : RMode) (sat : Bool) (r : Nat) (x : XVal) : Rounded :=
  match x with
  | .nan sig => ⟨f.nanCode, if f == .e2m1 || sig then fIV else 0⟩
  | .inf neg =>
    if f == .e2m1 then ⟨f.signed neg f.maxCode, fSA⟩
    else if sat then ⟨f.signed neg f.maxCode, fSA⟩
    else ⟨f.signed neg f.infCode, if f == .e4m3 then fIV else 0⟩
  | .fin neg m e => f.roundFin mode sat r neg m e

/-- Round an exact value to an integer: the integer and whether it is exact. -/
def roundInt (mode : RMode) (r : Nat) (neg : Bool) (m : Nat) (e : Int) : Int × Bool :=
  let (n, exact) := roundAt mode neg m e 0 r
  (if neg then -(n : Int) else (n : Int), exact)

/-- The range of an integer target of `w` bits. -/
def intMin (w : Nat) (unsig : Bool) : Int := if unsig then 0 else -((2 ^ (w - 1) : Nat) : Int)
/-- The range of an integer target of `w` bits. -/
def intMax (w : Nat) (unsig : Bool) : Int := if unsig then ((2 ^ w : Nat) : Int) - 1 else ((2 ^ (w - 1) : Nat) : Int) - 1

/-- Clamp to a range. -/
def clampI (lo hi x : Int) : Int := if x < lo then lo else if hi < x then hi else x

/-- SatS or SatU (Table 0-3): the clamped value and whether it clamped. -/
def satI (w : Nat) (unsig : Bool) (x : Int) : Int × Bool :=
  let y := clampI (intMin w unsig) (intMax w unsig) x
  (y, y != x)

/-- Floating point to integer (R50, Table 2-7). A magnitude of 2^80 or more is out of every range before rounding. -/
def xToInt (w : Nat) (unsig : Bool) (mode : RMode) (sat : Bool) (r : Nat) (x : XVal) : Rounded :=
  let bad (neg : Bool) : Rounded :=
    if sat then ⟨truncN w (if neg then intMin w unsig else intMax w unsig), fSA + fIX⟩
    else ⟨if unsig then 0 else 2 ^ (w - 1), fIV⟩
  match x with
  | .nan _ => ⟨if sat || unsig then 0 else 2 ^ (w - 1), fIV⟩
  | .inf neg => bad neg
  | .fin neg m e =>
    if m ≠ 0 ∧ 80 < e + (bitLen m : Int) then bad neg
    else
      let (n, exact) := roundInt mode r neg m e
      if n < intMin w unsig ∨ intMax w unsig < n then bad neg
      else ⟨truncN w n, if exact then 0 else fIX⟩

/-- Integer to integer (R49): narrowing keeps low bits or clamps. -/
def intToInt (wd : Nat) (unsigD : Bool) (sat : Bool) (x : Int) : Rounded :=
  if sat then
    let (y, c) := satI wd unsigD x
    ⟨truncN wd y, if c then fSA else 0⟩
  else ⟨truncN wd x, 0⟩

/-- Convert one element between element formats, integers read signed (R47 to R50, R212). Formats outside
INT4..INT64 and FP32..E2M1 are refused at decode and give 0 here. -/
def convertElem (sf df : EFmt) (mode : RMode) (sat : Bool) (r : Nat) (p : Nat) : Rounded :=
  match sf.int?, df.int? with
  | some ws, some wd => intToInt wd false sat (sIntN ws p)
  | some ws, none =>
    match df.float? with
    | some g => g.encode mode sat r (.ofInt (sIntN ws p))
    | none => ⟨0, 0⟩
  | none, some wd =>
    match sf.float? with
    | some f => xToInt wd false mode sat r (f.decode p)
    | none => ⟨0, 0⟩
  | none, none =>
    match sf.float?, df.float? with
    | some f, some g => g.encode mode sat r (f.decode p)
    | _, _ => ⟨0, 0⟩

/-- Whether a conversion rounds, and so draws once under SR (R45): every one but integer to integer. -/
def convertDraws (sf df : EFmt) : Bool := !(sf.int?.isSome && df.int?.isSome)

/-! ### The stochastic generator (R46) -/

/-- One xorshift step. -/
def srngNext (x : W64) : W64 :=
  let x := x ^^^ (x <<< 13)
  let x := x ^^^ (x >>> 7)
  x ^^^ (x <<< 17)

/-- The state before `srngNext`: each of its three shifts undone (R46). -/
def srngPrev (x : W64) : W64 :=
  let x := x ^^^ (x <<< 17) ^^^ (x <<< 34) ^^^ (x <<< 51)
  let x := (List.range 9).foldl (fun y k => y ^^^ (x >>> (7 * (k + 1)))) x
  x ^^^ (x <<< 13) ^^^ (x <<< 26) ^^^ (x <<< 39) ^^^ (x <<< 52)

/-- `n` steps back. -/
def srngBack (x : W64) : Nat → W64
  | 0 => x
  | n + 1 => srngBack (srngPrev x) n

/-- How many steps, at most `fuel`, lead from `x` to `y`; `fuel` when none does. -/
def srngSteps (x y : W64) : Nat → Nat
  | 0 => 0
  | fuel + 1 => if x = y then 0 else srngSteps (srngNext x) y fuel + 1

/-- The value an `MTS` of zero, and position 0's start, gives. -/
def srngSeed : W64 := 0x9E3779B97F4A7C15#64

/-- The draw of a generator state: SRNG[63:48]. -/
def srngDraw (x : W64) : Nat := x.toNat >>> 48

/-! ### Exact arithmetic (R203, Table 9-3) -/

/-- Signed integer numerator of a finite value at exponent `q` (q ≤ e). -/
def scaledAt (q : Int) (neg : Bool) (m : Nat) (e : Int) : Int :=
  let n : Int := ((m <<< (e - q).toNat : Nat) : Int)
  if neg then -n else n

/-- Exact product; the flag tells the invalid case 0 × ∞ (Table 9-3). -/
def xMul (a b : XVal) : XVal × Bool :=
  match a, b with
  | .nan s, .nan t => (.nan (s || t), false)
  | .nan s, _ => (.nan s, false)
  | _, .nan t => (.nan t, false)
  | .inf s, .inf t => (.inf (s != t), false)
  | .inf s, .fin t m _ => if m = 0 then (.nan false, true) else (.inf (s != t), false)
  | .fin s m _, .inf t => if m = 0 then (.nan false, true) else (.inf (s != t), false)
  | .fin s m e, .fin t n f => (.fin (s != t) (m * n) (e + f), false)

/-- Exact sum of a list of values, with the zero rule of R203 for `mode`; the flag tells the invalid case of
opposite infinities. -/
def xSum (mode : RMode) (xs : List XVal) : XVal × Bool :=
  if xs.any XVal.isNan then (.nan (xs.any XVal.isSig), false)
  else
    let infs := xs.filter XVal.isInf
    if infs.any XVal.sign && infs.any (fun x => !x.sign) then (.nan false, true)
    else
      match infs with
      | x :: _ => (x, false)
      | [] =>
        let q : Int := xs.foldl (fun q x => match x with
          | .fin _ m e => if m = 0 then q else min q e
          | _ => q) 100000
        let t : Int := xs.foldl (fun t x => match x with
          | .fin n m e => if m = 0 then t else t + scaledAt q n m e
          | _ => t) 0
        if t = 0 then
          let allNeg := xs.all (fun x => match x with
            | .fin n m _ => n && m == 0
            | _ => false)
          let differ := xs.any XVal.sign && xs.any (fun x => !x.sign)
          (.fin (allNeg || (mode == .rd && differ)) 0 0, false)
        else (.fin (decide (t < 0)) t.natAbs q, false)

/-- Compare two exact values that are not NaN; -0 = +0. -/
def xCmp (a b : XVal) : Ordering :=
  match a, b with
  | .inf s, .inf t => if s = t then .eq else if s then .lt else .gt
  | .inf s, _ => if s then .lt else .gt
  | _, .inf t => if t then .gt else .lt
  | .fin s m e, .fin t n f =>
    let q := min e f
    compare (scaledAt q s m e) (scaledAt q t n f)
  | _, _ => .eq

/-- Less than, on values that are not NaN. -/
def xLt (a b : XVal) : Bool := xCmp a b == .lt

/-- A quotient with its sticky bit: a value between the same rounding boundaries as ma / mb × 2^e (mb ≠ 0). -/
def quotSticky (ma mb : Nat) (e : Int) : Nat × Int :=
  let s := bitLen mb + 64
  let n := ma <<< s
  let q := n / mb
  (2 * q + (if n % mb = 0 then 0 else 1), e - (s : Int) - 1)

/-- A square root with its sticky bit. -/
def sqrtSticky (m : Nat) (e : Int) : Nat × Int :=
  let s : Nat := 128 + (if (e - 128) % 2 = 0 then 0 else 1)
  let n := m <<< s
  let r := isqrt n
  (2 * r + (if r * r = n then 0 else 1), (e - (s : Int)) / 2 - 1)

/-- A reciprocal square root with its sticky bit (m ≠ 0). -/
def rsqrtSticky (m : Nat) (e : Int) : Nat × Int :=
  let m' := if e % 2 = 0 then m else 2 * m
  let e' := if e % 2 = 0 then e else e - 1
  let k := bitLen m' / 2 + 64
  let n := (2 ^ (2 * k)) / m'
  let r := isqrt n
  (2 * r + (if r * r * m' = 2 ^ (2 * k) then 0 else 1), -(e' / 2) - (k : Int) - 1)

/-- A special result (NaN or infinity) or a finite value to be rounded, with the flags of Table 9-3. -/
structure XRes where
  val : XVal
  flags : Nat
  deriving DecidableEq, Repr

/-- IV when some operand is a signalling NaN (R33). -/
def sigFlag (xs : List XVal) : Nat := if xs.any XVal.isSig then fIV else 0

/-- A NaN result for a NaN operand: canonical, IV already counted by `sigFlag`. -/
def quietX (x : XVal) : XVal := match x with
  | .nan _ => .nan false
  | y => y

def xAdd (mode : RMode) (a b : XVal) : XRes :=
  let (v, iv) := xSum mode [a, b]
  ⟨quietX v, sigFlag [a, b] ||| (if iv then fIV else 0)⟩

def xMulR (a b : XVal) : XRes :=
  let (v, iv) := xMul a b
  ⟨quietX v, sigFlag [a, b] ||| (if iv then fIV else 0)⟩

/-- Sum of exact products and addends, rounded by the caller (FMA, VFNMA, VFDOT2). -/
def xDot (mode : RMode) (ps : List (XVal × XVal)) (cs : List XVal) : XRes :=
  let prods := ps.map (fun p => xMul p.1 p.2)
  let iv1 := prods.any (fun p => p.2)
  let (v, iv2) := xSum mode (prods.map (fun p => quietX p.1) ++ cs)
  let sg := sigFlag (ps.map (fun p => p.1) ++ ps.map (fun p => p.2) ++ cs)
  if iv1 then ⟨.nan false, sg ||| fIV⟩ else ⟨quietX v, sg ||| (if iv2 then fIV else 0)⟩

def xDiv (a b : XVal) : XRes :=
  match a, b with
  | .nan _, _ => ⟨.nan false, sigFlag [a, b]⟩
  | _, .nan _ => ⟨.nan false, sigFlag [a, b]⟩
  | .inf _, .inf _ => ⟨.nan false, fIV⟩
  | .inf s, .fin t _ _ => ⟨.inf (s != t), 0⟩
  | .fin s _ _, .inf t => ⟨.fin (s != t) 0 0, 0⟩
  | .fin s m e, .fin t n f =>
    if n = 0 then (if m = 0 then ⟨.nan false, fIV⟩ else ⟨.inf (s != t), fDZ⟩)
    else if m = 0 then ⟨.fin (s != t) 0 0, 0⟩
    else
      let (q, g) := quotSticky m n (e - f)
      ⟨.fin (s != t) q g, 0⟩

def xSqrt (a : XVal) : XRes :=
  match a with
  | .nan _ => ⟨.nan false, sigFlag [a]⟩
  | .inf n => if n then ⟨.nan false, fIV⟩ else ⟨.inf false, 0⟩
  | .fin n m e =>
    if m = 0 then ⟨a, 0⟩ else if n then ⟨.nan false, fIV⟩
    else
      let (q, g) := sqrtSticky m e
      ⟨.fin false q g, 0⟩

def xRcp (a : XVal) : XRes := xDiv (.fin false 1 0) a

def xRsq (a : XVal) : XRes :=
  match a with
  | .nan _ => ⟨.nan false, sigFlag [a]⟩
  | .inf n => if n then ⟨.nan false, fIV⟩ else ⟨.fin false 0 0, 0⟩
  | .fin n m e =>
    if m = 0 then ⟨.inf n, fDZ⟩ else if n then ⟨.nan false, fIV⟩
    else
      let (q, g) := rsqrtSticky m e
      ⟨.fin false q g, 0⟩

/-! ### 2^a and log2 a by 256-bit fixed point (log entry 7) -/

/-- ln 2 × 2^256, truncated. -/
def ln2Fix : Nat := 0xb17217f7d1cf79abc9e3b39803f2f6af40f343267298b62d8a0d175b8baafa2b

/-- Sum of t^k / k! for k from `k` on, in fixed point of 256 bits, `n` terms. -/
def expSeries (t : Nat) : Nat → Nat → Nat → Nat
  | 0, _, _ => 0
  | n + 1, k, term => term + expSeries t n (k + 1) ((term * t) >>> 256 / (k + 1))

/-- 2^f in fixed point of 256 bits, for f in [0, 1) given in 256 bits. -/
def exp2Frac (f : Nat) : Nat := expSeries ((f * ln2Fix) >>> 256) 60 0 (2 ^ 256)

/-- Sum of z^(2k+1) / (2k+1) for `n` terms; z2 = z². -/
def atanhSeries (z2 : Nat) : Nat → Nat → Nat → Nat
  | 0, _, _ => 0
  | n + 1, k, zp => zp / (2 * k + 1) + atanhSeries z2 n (k + 1) ((zp * z2) >>> 256)

/-- ln x in fixed point of 256 bits, for x in [1, 2) given in 256 bits. -/
def lnFix (x : Nat) : Nat :=
  let z := ((x - 2 ^ 256) <<< 256) / (x + 2 ^ 256)
  2 * atanhSeries ((z * z) >>> 256) 85 0 z

/-- 2^a: exact for an integer a, else an approximation with its sticky bit set (R205). -/
def xExp2 (a : XVal) : XRes :=
  match a with
  | .nan _ => ⟨.nan false, sigFlag [a]⟩
  | .inf n => ⟨if n then .fin false 0 0 else .inf false, 0⟩
  | .fin n m e =>
    if m = 0 then ⟨.fin false 1 0, 0⟩
    else if 12 < e + (bitLen m : Int) then ⟨.fin false 1 (if n then -100000 else 100000), 0⟩
    else if 0 ≤ e ∨ m % 2 ^ (-e).toNat = 0 then
      let v : Int := if 0 ≤ e then scaledAt 0 n m e
        else if n then -((m >>> (-e).toNat : Nat) : Int) else ((m >>> (-e).toNat : Nat) : Int)
      ⟨.fin false 1 v, 0⟩
    else
      -- |a| in 256-bit fixed point, rounded away from an integer when its bits lie below 2^-256
      let fx : Nat := if -256 ≤ e then m <<< (256 + e).toNat else Nat.max 1 (m >>> (-256 - e).toNat)
      let ip := fx >>> 256
      let fp := fx % 2 ^ 256
      if n then ⟨.fin false (2 * exp2Frac (2 ^ 256 - fp) + 1) (-(ip : Int) - 1 - 257), 0⟩
      else ⟨.fin false (2 * exp2Frac fp + 1) ((ip : Int) - 257), 0⟩

/-- log2 a: exact for a power of two, else an approximation with its sticky bit set (Table 9-3). -/
def xLog2 (a : XVal) : XRes :=
  match a with
  | .nan _ => ⟨.nan false, sigFlag [a]⟩
  | .inf n => if n then ⟨.nan false, fIV⟩ else ⟨.inf false, 0⟩
  | .fin n m e =>
    if m = 0 then ⟨.inf true, fDZ⟩ else if n then ⟨.nan false, fIV⟩
    else
      let l := bitLen m - 1
      let ex : Int := e + (l : Int)
      if m = 2 ^ l then ⟨.ofInt ex, 0⟩
      else
        let x := if l ≤ 256 then m <<< (256 - l) else m >>> (l - 256)
        let fr := (lnFix x <<< 256) / ln2Fix
        let t : Int := ex * ((2 ^ 256 : Nat) : Int) + (fr : Int)
        -- sticky: the exact value lies strictly between neighbouring fixed-point numbers
        ⟨.fin (decide (t < 0)) (2 * t.natAbs + 1) (-257), 0⟩

/-- Multiply by a power of two (VSCALE, R204). -/
def xScale (a : XVal) (k : Int) : XRes :=
  match a with
  | .nan _ => ⟨.nan false, sigFlag [a]⟩
  | .inf n => ⟨.inf n, 0⟩
  | .fin n m e => ⟨.fin n m (if m = 0 then 0 else e + k), 0⟩

/-- Deliver a result to a format: rounded once, with the operation's own flags (R203). Infinities and NaNs that
the operation made are delivered as the format holds them. -/
def XRes.deliver (x : XRes) (f : FFmt) (mode : RMode) (r : Nat) : Rounded :=
  match x.val with
  | .fin neg m e =>
    let y := f.roundFin mode false r neg m e
    ⟨y.pat, y.flags ||| x.flags⟩
  | .inf neg => ⟨f.signed neg f.infCode, x.flags⟩
  | .nan _ => ⟨f.nanCode, x.flags⟩

/-- FP32 value of a pattern. -/
def f32 (p : Nat) : XVal := FFmt.fp32.decode p
/-- BF16 value of a pattern. -/
def bf16 (p : Nat) : XVal := FFmt.bf16.decode p

/-- Minimum or maximum of two FP32 patterns (R206): the chosen pattern, NaNs canonical, and IV. -/
def fMinMax (isMax : Bool) (a b : Nat) : Rounded :=
  let x := f32 a
  let y := f32 b
  let fl := sigFlag [x, y]
  if x.isNan then (if y.isNan then ⟨FFmt.fp32.nanCode, fl⟩ else ⟨b, fl⟩)
  else if y.isNan then ⟨a, fl⟩
  else
    let aLess : Bool := match xCmp x y with
      | .lt => true
      | .gt => false
      | .eq => x.sign
    ⟨if aLess != isMax then a else b, fl⟩

/-- A floating-point condition of Table 9-5: the truth and whether IV is set. -/
def fCond (c : Nat) (a b : Nat) : Bool × Bool :=
  let x := f32 a
  let y := f32 b
  let un := x.isNan || y.isNan
  let sig := x.isSig || y.isSig
  let o := xCmp x y
  match c with
  | 0 => (!un && o == .eq, sig)
  | 1 => (un || o != .eq, sig)
  | 2 => (!un && o == .lt, un)
  | 3 => (!un && o != .lt, un)
  | 4 => (!un && o != .gt, un)
  | 5 => (!un && o == .gt, un)
  | 6 => (un, sig)
  | _ => (!un, sig)

/-- The class bit of an FP32 pattern (R209). -/
def fClass (p : Nat) : Nat :=
  let neg := bitN p 31
  let e := bitsN p 30 23
  let fr := p % 2 ^ 23
  if e = 255 then
    (if fr = 0 then (if neg then 1 else 0x80) else (if bitN p 22 then 0x200 else 0x100))
  else if e = 0 then
    (if fr = 0 then (if neg then 8 else 0x10) else (if neg then 4 else 0x20))
  else if neg then 2 else 0x40

/-! ### Q4N and block scales (R34, R37 to R39) -/

/-- Level of a Q4N code in units of 2^-9 (Table 2-3): every level is a multiple of 2^-9. -/
def q4nLevelN (c : Nat) : Int :=
  match c with
  | 0 => -512 | 1 => -358 | 2 => -270 | 3 => -202 | 4 => -144 | 5 => -90 | 6 => -44 | 7 => 0
  | 8 => 40 | 9 => 80 | 10 => 126 | 11 => 174 | 12 => 230 | 13 => 292 | 14 => 374 | _ => 512

/-- The exact level. -/
def q4nLevel (c : Nat) : XVal := .fin (decide (q4nLevelN c < 0)) (q4nLevelN c).natAbs (-9)

/-- The scale value of a U8 code under an FP32 super-scale: RNE_FP32(u × S) (R34). Whether forming it raises flags is left
open; none are recorded (DESIGN CHOICE, log entry 64). -/
def u8Scale (u : Nat) (s : Nat) : Nat :=
  ((xMulR (.ofInt u) (f32 s)).deliver .fp32 .rne 0).pat

/-- The value of an E8M0 code (R34). -/
def e8m0 (c : Nat) : XVal := if c = 255 then .nan false else .fin false 1 ((c : Int) - 127)

/-- |n1 × 2^e1| compared with the fraction p / 512 × |m2 × 2^e2|, as exact integers at a common exponent: returns
the quotient's numerator and denominator at exponent 0 for sign `neg`. -/
def ratioQ (neg : Bool) (m1 : Nat) (e1 : Int) (m2 : Nat) (e2 : Int) : Int × Nat :=
  let q := min e1 e2
  let n : Int := ((m1 <<< (e1 - q).toNat : Nat) : Int)
  (if neg then -n else n, m2 <<< (e2 - q).toNat)

/-- Pick the Q4N code nearest to num / den, levels in units of 2^-9, ties to the smaller magnitude (R39). -/
def q4nNearest (num : Int) (den : Nat) : Nat :=
  ((List.range 16).foldl (fun (best : Nat × Nat) c =>
    let d := (512 * num - q4nLevelN c * den).natAbs
    if d < best.2 ∨ (d = best.2 ∧ (q4nLevelN c).natAbs < (q4nLevelN best.1).natAbs) then (c, d) else best)
    (7, (512 * num).natAbs)).1

/-- Quantise x to Q4N against the scale value c, both FP32 patterns (R39): the code and its flags. -/
def q4nQuant (x c : Nat) : Rounded :=
  match f32 x, f32 c with
  | .nan _, _ => ⟨7, fIV⟩
  | _, .nan _ => ⟨7, fIV⟩
  | _, .inf _ => ⟨7, fIV⟩
  | .inf n, .fin t m _ => if m = 0 then ⟨7, fIV⟩ else ⟨if n != t then 0 else 15, fSA ||| fIX⟩
  | .fin n m e, .fin t mc ec =>
    if mc = 0 then ⟨7, fIV⟩
    else
      let (num, den) := ratioQ (n != t) m e mc ec
      let k := q4nNearest num den
      let beyond := decide (den < num.natAbs)
      let ix := decide (512 * num ≠ q4nLevelN k * den)
      ⟨k, (if ix then fIX else 0) ||| (if beyond then fSA else 0)⟩

/-- A scaled element (R36): exact product of element and scale, rounded once to `f` under RNE without saturation;
an invalid product sets IV. -/
def scaledElem (f : FFmt) (a c : XVal) : Rounded := (xMulR a c).deliver f .rne 0

end Sys2Proof.Machine
end

