-- ==== Sys2Proof/Machine/Vec.lean ====
section
/-! DEFINITION. Lanes and packed elements of vector registers (R30), masks, and per-lane flags (R51). -/

namespace Sys2Proof.Machine

/-- Lane `i` of a vector. -/
def lane (v : VReg) (i : Nat) : W32 := v.extractLsb' (32 * i) 32

/-- A vector from its lanes, lane 0 first. -/
def vecOfList (l : List W32) : VReg := l.foldr (fun x acc => acc <<< 32 ||| x.setWidth 2048) 0

/-- A vector from a function of the lane. -/
def vecOf (f : Nat → W32) : VReg := vecOfList ((List.range 64).map f)

/-- A 64-bit mask from its bits, bit 0 first. -/
def maskOfList (l : List Bool) : W64 := l.foldr (fun x acc => acc <<< 1 ||| (BitVec.ofBool x).setWidth 64) 0

/-- A mask from a function of the lane. -/
def maskOf (f : Nat → Bool) : W64 := maskOfList ((List.range 64).map f)

/-- Flags from a list of seven-bit lanes, lane 0 first. -/
def flagsOfList (l : List Nat) : LaneFlags := l.foldr (fun x acc => acc <<< 7 ||| BitVec.ofNat 448 (x % 128)) 0

/-- Flags of lane `i`. -/
def laneFlags (f : LaneFlags) (i : Nat) : BitVec 7 := f.extractLsb' (7 * i) 7

/-- The flags of lane 0 alone. -/
def lane0Flags (x : Nat) : LaneFlags := BitVec.ofNat 448 (x % 128)

/-- Element `e` of width `w` (R30, 4-, 8-, 16-, 32-bit elements). -/
def elemN (v : VReg) (w e : Nat) : Nat := (v.toNat >>> (w * e)) % 2 ^ w

/-- Elements of width `w` packed from bit 0 up. -/
def packN (w : Nat) (l : List Nat) : Nat := l.foldr (fun x acc => acc <<< w ||| x % 2 ^ w) 0

/-- Packed elements as a vector. -/
def vecOfElems (w : Nat) (l : List Nat) : VReg := BitVec.ofNat 2048 (packN w l)

/-- The lane that holds element `e` of width `w` (R52). -/
def laneOfElem (w e : Nat) : Nat := w * e / 32

/-- A result element: its bits, its tag, its flags. -/
structure El where
  v : Nat
  t : Bool
  f : Nat
  deriving DecidableEq, Repr

/-- OR of the flags of the elements that lane `i` holds, `k` elements to a lane. -/
def groupElems (k : Nat) (l : List El) : List (List El) :=
  (List.range 64).map (fun i => (l.drop (k * i)).take k)

/-- A vector from elements of width `w`: a lane carries the tag when an element in it does. -/
def vvOfEls (w : Nat) (l : List El) : VV :=
  ⟨vecOfElems w (l.map El.v), maskOfList ((groupElems (32 / w) l).map (fun g => g.any El.t))⟩

/-- The per-lane flags of elements of width `w`, with PS in a lane that carries the tag (R51). -/
def flagsOfEls (w : Nat) (l : List El) : LaneFlags :=
  flagsOfList ((groupElems (32 / w) l).map (fun g =>
    g.foldl (fun a x => a ||| x.f) (if g.any El.t then fPS else 0)))

/-- Lanes of flags kept where the mask is set. -/
def maskFlags (f : LaneFlags) (m : W64) : LaneFlags :=
  flagsOfList ((List.range 64).map (fun i => if m.getLsbD i then (laneFlags f i).toNat else 0))

/-- A scalar in the low bits of a captured operand (Table 16-5). -/
def SV.toVV (x : SV) : VV := ⟨x.v.setWidth 2048, (BitVec.ofBool x.t).setWidth 64⟩
/-- The scalar of a captured operand. -/
def VV.toSV (x : VV) : SV := ⟨x.v.setWidth 64, x.t.getLsbD 0⟩
/-- The tag of lane `i`. -/
def VV.tag (x : VV) (i : Nat) : Bool := x.t.getLsbD i
/-- Lanes of `a` where the mask is set, of `b` elsewhere. -/
def VV.merge (m : W64) (a b : VV) : VV :=
  ⟨vecOf (fun i => if m.getLsbD i then lane a.v i else lane b.v i), (a.t &&& m) ||| (b.t &&& ~~~m)⟩

end Sys2Proof.Machine
end

