-- ==== Sys2Proof/Machine/Bank.lean ====
section
/-! DEFINITION. Codebook banks: copies, captures, writers (R73 to R75, R282), expansion of entries (R217, R255), and
the operator chain of streams (R268 to R270). -/

namespace Sys2Proof.Machine

/-! ### Copies and captures (Table 3-9) -/

def Core.bank (c : Core) (b : Nat) : Bank := mget c.banks b Bank.reset
def Core.setBank (c : Core) (b : Nat) (x : Bank) : Core := { c with banks := mset c.banks b x }

/-- The current copy C. -/
def Bank.current (b : Bank) : BankCopy := if b.cur then b.c1 else b.c0
/-- The other copy O. -/
def Bank.other (b : Bank) : BankCopy := if b.cur then b.c0 else b.c1
/-- The copy by its number. -/
def Bank.copy (b : Bank) (i : Nat) : BankCopy := if i = 0 then b.c0 else b.c1
/-- Number of the current copy. -/
def Bank.curIdx (b : Bank) : Nat := if b.cur then 1 else 0
/-- Replace the copy of a number. -/
def Bank.setCopy (b : Bank) (i : Nat) (c : BankCopy) : Bank := if i = 0 then { b with c0 := c } else { b with c1 := c }

/-- A reader captures the current copy: n(C) := n(C) + 1. -/
def Bank.capture (b : Bank) : Bank :=
  b.setCopy b.curIdx { b.current with readers := b.current.readers + 1 }

/-- A reader that had captured copy `i` is counted again after a context restore (Table 3-9). -/
def Bank.recapture (b : Bank) (i : Nat) : Bank := b.setCopy i { b.copy i with readers := (b.copy i).readers + 1 }

/-- A bank with no reader. -/
def Bank.unread (b : Bank) : Bank := { b with c0 := { b.c0 with readers := 0 }, c1 := { b.c1 with readers := 0 } }

/-- A reader of copy `i` completes: n := n - 1. -/
def Bank.release (b : Bank) (i : Nat) : Bank :=
  b.setCopy i { b.copy i with readers := (b.copy i).readers - 1 }

/-- HELD: some reader holds the other copy. -/
def Bank.heldB (b : Bank) : Bool := decide (0 < b.other.readers)

/-- A writer retires: the written copy becomes current, g := g + 1 mod 2^16. -/
def Bank.retire (b : Bank) (w : BankCopy) : Bank :=
  let b' := b.setCopy (1 - b.curIdx) { w with readers := b.other.readers }
  { b' with cur := !b.cur, gen := b.gen + 1 }

/-- Capture bank `b` of core `c`: the state and the (bank, copy) held. -/
def State.captureBank (s : State) (c b : Nat) : State :=
  s.modCore c (fun k => k.setBank b (k.bank b).capture)

/-- Release captures (bank, copy) of a core. -/
def State.releaseBanks (s : State) (c : Nat) (caps : List (Nat × Nat)) : State :=
  caps.foldl (fun s p => s.modCore c (fun k => k.setBank p.1 ((k.bank p.1).release p.2))) s

/-- Count captures (bank, copy) again on a core (Table 3-9). -/
def State.recaptureBanks (s : State) (c : Nat) (caps : List (Nat × Nat)) : State :=
  caps.foldl (fun s p => s.modCore c (fun k => k.setBank p.1 ((k.bank p.1).recapture p.2))) s

/-! ### Entries -/

/-- Entry `i` of a copy: none when its valid bit is clear or the mode is 0 (R40, R73). -/
def BankCopy.entry (c : BankCopy) (i : Nat) : Option W64 :=
  if c.mode = 0 ∨ !(c.valid.getLsbD i) then none else some (mget c.entries i 0)

/-- Values in one entry of a mode (Table 3-8). -/
def modeCount (m : Nat) : Nat :=
  match m with
  | 7 => 2 | 8 => 2 | 9 => 4 | 10 => 4 | 11 => 8 | _ => 1

/-- Whether a mode is one of the integer modes 0x6 and 0xB (R73). -/
def modeInt (m : Nat) : Bool := m == 6 || m == 11

/-- The exact values of an entry, element 0 first (Table 3-8). -/
def entryVals (m : Nat) (e : W64) : List XVal :=
  let n := e.toNat
  match m with
  | 1 => [FFmt.fp32.decode (n % 2 ^ 32)]
  | 2 => [FFmt.bf16.decode (n % 2 ^ 16)]
  | 3 => [FFmt.fp16.decode (n % 2 ^ 16)]
  | 4 => [FFmt.e4m3.decode (n % 256)]
  | 5 => [FFmt.e5m2.decode (n % 256)]
  | 6 => [.ofInt (sIntN 8 n)]
  | 7 => (List.range 2).map (fun j => FFmt.bf16.decode (bitsN n (16 * j + 15) (16 * j)))
  | 8 => (List.range 2).map (fun j => FFmt.fp16.decode (bitsN n (16 * j + 15) (16 * j)))
  | 9 => (List.range 4).map (fun j => FFmt.e4m3.decode (bitsN n (8 * j + 7) (8 * j)))
  | 10 => (List.range 4).map (fun j => FFmt.e5m2.decode (bitsN n (8 * j + 7) (8 * j)))
  | 11 => (List.range 8).map (fun j => .ofInt (sIntN 8 (n >>> (8 * j))))
  | _ => []

/-- The 32-bit lanes that one index fills as `VCBX` expands it (R217): one lane, or two in mode 0xB. An invalid entry
gives zero with the poison tag. -/
def expandLanes (c : BankCopy) (i : Nat) : List El :=
  match c.entry i with
  | none => List.replicate (if c.mode = 11 then 2 else 1) ⟨0, true, 0⟩
  | some e =>
    let n := e.toNat
    if 1 ≤ c.mode ∧ c.mode ≤ 5 then
      (entryVals c.mode e).map (fun x => let r := FFmt.fp32.encode .rne false 0 x; ⟨r.pat, false, r.flags⟩)
    else if c.mode = 6 then [⟨truncN 32 (sIntN 8 n), false, 0⟩]
    else if c.mode = 11 then [⟨n % 2 ^ 32, false, 0⟩, ⟨n >>> 32, false, 0⟩]
    else [⟨n % 2 ^ 32, false, 0⟩]

/-- Lanes that one index fills. -/
def lanesPer (mode : Nat) : Nat := if mode = 11 then 2 else 1

/-! ### Register types (Table 11-2) -/

/-- Width of a register type's element; RAW counts as 32-bit lanes. -/
def tyWidth (ty : Nat) : Nat :=
  match ty with
  | 0 => 32 | 1 => 32 | 2 => 16 | 3 => 16 | 4 => 16 | 5 => 8 | _ => 32
/-- The element format of a register type. -/
def tyFmt (ty : Nat) : EFmt :=
  match ty with
  | 0 => .fp32 | 1 => .int32 | 2 => .bf16 | 3 => .fp16 | 4 => .int16 | 5 => .int8 | _ => .raw
/-- N of Table 11-2. -/
def tyN (ty : Nat) : Nat := 2048 / tyWidth ty
/-- The code of "RAW" among stream types. -/
def tyRaw : Nat := 6

/-! ### Operator chains (R268, R269) -/

/-- A decoded chain stage (Table 11-10). -/
inductive Stage where
  | expand (iw : Bool) (bank : Nat)
  | convert (ty rm : Nat) (sat : Bool)
  | scale
  | mask (k : Nat)
  | transpose8
  deriving DecidableEq, Repr

/-- Decode one 12-bit stage: none for NONE, an error for a reserved OP or nonzero reserved bits. -/
def stageOf (x : Nat) : Except Unit (Option Stage) :=
  let p := x % 256
  match x / 256 with
  | 0 => if p = 0 then .ok none else .error ()
  | 1 => if bitsN p 6 3 = 0 then .ok (some (.expand (bitN p 7) (p % 8))) else .error ()
  | 2 =>
    if bitN p 0 || decide (5 < bitsN p 7 5) || decide (4 < bitsN p 4 2) then .error ()
    else .ok (some (.convert (bitsN p 7 5) (bitsN p 4 2) (bitN p 1)))
  | 3 => if p = 0 then .ok (some .scale) else .error ()
  | 4 => if p < 8 then .ok (some (.mask p)) else .error ()
  | 5 => if p = 0 then .ok (some .transpose8) else .error ()
  | _ => .error ()

/-- The stages of a chain word, in order; an error is status 1 (R269). -/
def stagesOf (w : W64) : Except Unit (List Stage) :=
  let n := w.toNat
  if bitsN n 63 48 ≠ 0 then .error ()
  else
    match stageOf (bitsN n 11 0), stageOf (bitsN n 23 12), stageOf (bitsN n 35 24), stageOf (bitsN n 47 36) with
    | .ok a, .ok b, .ok c, .ok d =>
      if (a.isNone && (b.isSome || c.isSome || d.isSome)) || (b.isNone && (c.isSome || d.isSome)) || (c.isNone && d.isSome)
      then .error ()
      else .ok ([a, b, c, d].filterMap id)
    | _, _, _, _ => .error ()

/-- The output type of a stage for an input type, none where Table 11-10 refuses it; `mode` is that of the bank. -/
def stageType (mode : Nat → Nat) (st : Stage) (ty : Nat) : Option Nat :=
  match st with
  | .expand _ b =>
    if ty ≠ tyRaw then none
    else match mode b with
      | 6 => some 1 | 7 => some 2 | 8 => some 3 | 9 => some tyRaw | 10 => some tyRaw | 11 => some tyRaw | _ => some 0
  | .convert t _ _ => if ty = tyRaw ∨ ty = t then none else some t
  | .scale => if ty = 0 then some 0 else none
  | .mask _ => some ty
  | .transpose8 => some ty

/-- The output length of a stage for an input length (R269). -/
def stageLen (mode : Nat → Nat) (st : Stage) (ty len : Nat) : Nat :=
  match st with
  | .expand iw b => len * (if iw then 8 else 4) * lanesPer (mode b)
  | .convert t _ _ =>
    if tyWidth ty ≤ tyWidth t then len * (tyWidth t / tyWidth ty)
    else (len * tyWidth t + tyWidth ty - 1) / tyWidth ty
  | .scale => len
  | .mask _ => len
  | .transpose8 => 8 * ((len + 7) / 8)

/-- The types before each stage and after the last; none where a stage refuses its input (status 2). -/
def chainTypes (mode : Nat → Nat) : List Stage → Nat → Option (List Nat)
  | [], ty => some [ty]
  | st :: r, ty =>
    match stageType mode st ty with
    | none => none
    | some t => (chainTypes mode r t).map (fun l => ty :: l)

/-- The length of the stream (R269). -/
def chainLen (mode : Nat → Nat) : List Stage → Nat → Nat → Nat
  | [], _, len => len
  | st :: r, ty, len => chainLen mode r ((stageType mode st ty).getD ty) (stageLen mode st ty len)

/-- The (stage, input type, input length) triples, last stage first. -/
def chainRev (mode : Nat → Nat) : List Stage → Nat → Nat → List (Stage × Nat × Nat) → List (Stage × Nat × Nat)
  | [], _, _, acc => acc
  | st :: r, ty, len, acc =>
    chainRev mode r ((stageType mode st ty).getD ty) (stageLen mode st ty len) ((st, ty, len) :: acc)

/-- What a chain reads besides its input: bank copies, captured predicates and the scale value. -/
structure ChainEnv where
  raw : Nat → Option VV
  rawFlags : Nat → LaneFlags
  copy : Nat → BankCopy
  pred : Nat → PV
  scale : Nat

/-- The interval of input vectors that output vectors lo..hi need, down to pattern vectors. -/
def chainNeeds (copy : Nat → BankCopy) : List (Stage × Nat × Nat) → Nat → Nat → Nat × Nat
  | [], lo, hi => (lo, hi)
  | (st, ty, len) :: r, lo, hi =>
    let p : Nat × Nat := match st with
      | .expand iw b =>
        let k := (if iw then 8 else 4) * lanesPer (copy b).mode
        (lo / k, hi / k)
      | .convert t _ _ =>
        if tyWidth ty ≤ tyWidth t then
          let k := tyWidth t / tyWidth ty
          (lo / k, hi / k)
        else
          let k := tyWidth ty / tyWidth t
          (lo * k, hi * k + k - 1)
      | .scale => (lo, hi)
      | .mask _ => (lo, hi)
      | .transpose8 => (8 * (lo / 8), 8 * (hi / 8) + 7)
    chainNeeds copy r p.1 (Nat.min p.2 (len - 1))

/-- Element `e` (of width `w`) of output vector `m`, with the generator state threaded (R45, R268, R270). -/
def chainElem (env : ChainEnv) : List (Stage × Nat × Nat) → (w m e : Nat) → W64 → El × W64
  | [], w, m, e, rng =>
    match env.raw m with
    | none => (⟨0, false, 0⟩, rng)
    | some v => (⟨elemN v.v w e, v.tag (laneOfElem w e), (laneFlags (env.rawFlags m) (laneOfElem w e)).toNat⟩, rng)
  | (st, ty, len) :: r, w, m, e, rng =>
    match st with
    | .expand iw b =>
      let c := env.copy b
      let lp := lanesPer c.mode
      let ln := laneOfElem w e
      -- lane number over the whole stream, index number, and its place in the input
      let g := 64 * m + ln
      let idx := g / lp
      let per := if iw then 512 else 256
      let iwid := if iw then 4 else 8
      let (x, rng') := chainElem env r iwid (idx / per) (idx % per) rng
      let el := ((expandLanes c x.v).drop (g % lp)).headD ⟨0, true, 0⟩
      (⟨(el.v >>> (w * (e % (32 / w)))) % 2 ^ w, x.t || el.t, x.f ||| el.f⟩, rng')
    | .convert t rm sat =>
      let ws := tyWidth ty
      let g := m * (2048 / w) + e
      let (x, rng1) := chainElem env r ws (g / (2048 / ws)) (g % (2048 / ws)) rng
      if len ≤ g / (2048 / ws) then (⟨0, false, 0⟩, rng1)
      else
        let draws := rm == 4 && convertDraws (tyFmt ty) (tyFmt t)
        let rng2 := if draws then srngNext rng1 else rng1
        let y := convertElem (tyFmt ty) (tyFmt t) (.ofField rm) sat (srngDraw rng2) x.v
        (⟨y.pat, x.t, x.f ||| y.flags⟩, rng2)
    | .scale =>
      let (x, rng1) := chainElem env r w m e rng
      let y := (xMulR (f32 x.v) (f32 env.scale)).deliver .fp32 .rne 0
      (⟨y.pat, x.t, x.f ||| y.flags⟩, rng1)
    | .mask k =>
      let (x, rng1) := chainElem env r w m e rng
      let i := laneOfElem w e
      if (env.pred k).v.getLsbD i then (⟨x.v, x.t || (env.pred k).t.getLsbD i, x.f⟩, rng1)
      else (⟨0, (env.pred k).t.getLsbD i, x.f⟩, rng1)
    | .transpose8 =>
      let i := laneOfElem w e
      let per := 32 / w
      let mi := 8 * (m / 8) + i % 8
      if len ≤ mi then (⟨0, false, 0⟩, rng)
      else chainElem env r w mi ((8 * (i / 8) + m % 8) * per + e % per) rng

/-- Output vector `m` of a chain whose output type is `ty`: the vector, its flags by lane, the generator after it. Only
elements of the lanes `act` advance the generator (R45); the draw of another lane's element is free (log entry 65). -/
def chainVec (env : ChainEnv) (st : List (Stage × Nat × Nat)) (ty m : Nat) (act rng : W64) : VV × LaneFlags × W64 :=
  let w := tyWidth ty
  let (els, rng') := (List.range (2048 / w)).foldl (fun (acc : List El × W64) e =>
    if act.getLsbD (laneOfElem w e) then
      let (x, g) := chainElem env st w m e acc.2
      (x :: acc.1, g)
    else ((chainElem env st w m e (Config.idleRng acc.2 e)).1 :: acc.1, acc.2)) ([], rng)
  let l := els.reverse
  (vvOfEls w l, flagsOfList ((groupElems (32 / w) l).map (fun g => g.foldl (fun a x => a ||| x.f) 0)), rng')

end Sys2Proof.Machine
end

