-- ==== Sys2Proof/Machine/Format.lean ====
section
/-! DEFINITION. Decoding reads and formatted writes of register types (R36 to R40, R254 to R256): element codes to
register elements and back, independent of where the bytes come from. -/

namespace Sys2Proof.Machine

/-- Format and scale pairs that Table 2-2 forbids, and U8 scales on a 4 KiB page (R35, R68). -/
def pairForbidden (fmt sck : Nat) : Bool :=
  match sck with
  | 0 => false
  | 1 => !([2, 9, 10, 11, 13, 14, 15].contains fmt)
  | 2 => !([12, 1, 2].contains fmt)
  | _ => true

/-- Bits of one memory element of a format code (Table 2-4). -/
def fmtBits (fmt : Nat) : Nat := (EFmt.ofCode fmt).bits

/-- Whether a format code is CB4, CB6 or CB8. -/
def fmtCb (fmt : Nat) : Bool := fmt == 13 || fmt == 14 || fmt == 15

/-- k of R255: values that one memory element gives. -/
def expandCount (fmt mode : Nat) : Nat := if fmtCb fmt then modeCount mode else 1

/-- Round an exact value to a register type, RNE, saturation off (R255 step 6). -/
def deliverTy (ty : Nat) (x : XRes) : El :=
  match (tyFmt ty).float? with
  | some f => let r := x.deliver f .rne 0
              ⟨r.pat, false, r.flags⟩
  | none =>
    let r := xToInt (tyWidth ty) false .rne false 0 x.val
    ⟨r.pat, false, r.flags ||| x.flags⟩

/-- The element values of a memory element before scaling: an INT8 element under E8M0 counts in 2^-6 (R36, R38, R40).
The Bool says that the values come from an invalid codebook entry. -/
def elemValues (fmt sck : Nat) (cp : BankCopy) (code : Nat) : List XVal × Bool :=
  if fmtCb fmt then
    (match cp.entry code with
     | none => (List.replicate (modeCount cp.mode) (.fin false 0 0), true)
     | some e => (entryVals cp.mode e, false))
  else if fmt = 12 then ([q4nLevel code], false)
  else
    match (EFmt.ofCode fmt).int? with
    | some w =>
      let v := sIntN w code
      if fmt = 2 ∧ sck = 1 then ([.fin (decide (v < 0)) v.natAbs (-6)], false) else ([.ofInt v], false)
    | none =>
      match (EFmt.ofCode fmt).float? with
      | some f => ([f.decode code], false)
      | none => ([.ofInt (sIntN 8 code)], false)

/-- The scale value of a block (R34). -/
def scaleValue (sck scale super : Nat) : XVal := if sck = 1 then e8m0 scale else f32 (u8Scale scale super)

/-- Decode one memory element to register elements of type `ty` (R255 steps 3 to 9). A tagged element or scale byte tags
its values. -/
def decodeElem (ty fmt sck : Nat) (cp : BankCopy) (code scale super : Nat) (tag : Bool) : List El :=
  if sck = 0 ∧ (tyFmt ty).code = fmt ∧ !fmtCb fmt then [⟨code, tag, 0⟩]
  else
    let (xs, inv) := elemValues fmt sck cp code
    if inv then xs.map (fun _ => ⟨0, true, 0⟩)
    else if sck = 0 then
      (if fmtCb fmt ∨ fmt = 12 then
        xs.map (fun x => let y := deliverTy ty ⟨x, if x.isSig then fIV else 0⟩
                         { y with t := tag })
       else
        let r := convertElem (EFmt.ofCode fmt) (tyFmt ty) .rne false 0 code
        [⟨r.pat, tag, r.flags⟩])
    else xs.map (fun x => let y := deliverTy ty (xMulR x (scaleValue sck scale super))
                          { y with t := tag })

/-- Formats a formatted write accepts (R256). -/
def writeFmtOk (fmt sck : Nat) : Bool := sck == 0 && (fmt == 0 || decide (2 ≤ fmt ∧ fmt ≤ 10))

/-- Convert one register element for a formatted write: its code in the page's format and its flags (R256). -/
def encodeElem (ty fmt code : Nat) : Rounded :=
  if (tyFmt ty).code = fmt then ⟨code, 0⟩ else convertElem (tyFmt ty) (EFmt.ofCode fmt) .rne false 0 code

/-- The bits of memory element `m` from bytes starting at bit 0: a little-endian number. -/
def codeAt (w m n : Nat) : Nat := (n >>> (w * m)) % 2 ^ w

/-- First and last byte of memory element `m` of width `w`. -/
def elemFirst (w m : Nat) : Nat := w * m / 8
def elemLast (w m : Nat) : Nat := (w * m + w - 1) / 8

/-- Index of an element in its page, counted in the packing order of R30, from the byte offset of the place where a run
starts and the element's index in the run. -/
def pageElemIndex (w off m : Nat) : Nat := (if w = 6 then off / 3 * 4 else off * 8 / w) + m

/-- Elements of a scaled block. -/
def blockLen (sck : Nat) : Nat := if sck = 1 then 32 else 64

/-- Byte offset, from ScaleBase, of the scale of block `b`, and of its super-scale (R65). -/
def scaleOff (sck b : Nat) : Nat := if sck = 1 then b else 320 * (b / 256) + b % 256
def superOff (b : Nat) : Nat := 320 * (b / 256) + 256

end Sys2Proof.Machine
end

