-- ==== Sys2Proof/Machine/Geometry.lean ====
section
/-! DEFINITION. Where things lie: the physical map (R59), fields of page-table entries (Tables 3-3, 3-4), scales (R65), the
geometry of tiles (R69 to R72) and the physical bytes of a tile copy's rows and scales. -/

namespace Sys2Proof.Machine

/-- The `n` low bytes of a value, least significant first (R7). -/
def leBytes (n x : Nat) : List Byte := (List.range n).map (fun i => BitVec.ofNat 8 (x >>> (8 * i)))

/-! ### The physical map (Table 3-1) -/

def moduleEnd : Nat := 0x018000000000
def hostBase : Nat := 0x1000000000000
def windowBase : Nat := 0x8000000000000
def windowEnd : Nat := 0x8800000000000

inductive PaKind where
  | mod | host | window (w : Nat) | reserved
  deriving DecidableEq, Repr

/-- The kind of a physical address (R59). -/
def paKind (pa : Nat) : PaKind :=
  if pa < moduleEnd then .mod
  else if hostBase ≤ pa ∧ pa < windowBase then .host
  else if windowBase ≤ pa ∧ pa < windowEnd then .window ((pa - windowBase) / 2 ^ 41)
  else .reserved

/-- Module or host memory: memory that has a home in this module. -/
def paHome (pa : Nat) : Bool := match paKind pa with
  | .mod => true
  | .host => true
  | _ => false

/-! ### Page-table entries (Tables 3-3, 3-4) -/

def pteV (w : W64) : Bool := w.getLsbD 0
def pteLf (w : W64) : Bool := w.getLsbD 1
def ptePs (w : W64) : Nat := bitsN w.toNat 7 5
def pteA (w : W64) : Bool := w.getLsbD 8
def pteD (w : W64) : Bool := w.getLsbD 9
def pteWr (w : W64) : Bool := w.getLsbD 10
def pteX (w : W64) : Bool := w.getLsbD 11
def ptePa (w : W64) : Nat := bitsN w.toNat 51 12 * 4096
def leafOwner (w : W64) : Nat := bitsN w.toNat 63 52
def leafScoff (w : W64) : Int := sIntN 30 (bitsN w.toNat 51 22)
def leafScsub (w : W64) : Nat := bitsN w.toNat 21 16
def leafFmt (w : W64) : Nat := bitsN w.toNat 15 12
def leafSck (w : W64) : Nat := bitsN w.toNat 11 10
def leafCbk (w : W64) : Nat := bitsN w.toNat 9 7
def leafWs (w : W64) : Nat := bitsN w.toNat 6 5

/-- Bytes of a page by its PS code (Table 3-2). -/
def pageSize (ps : Nat) : Nat :=
  match ps with
  | 0 => 2 ^ 12 | 1 => 2 ^ 16 | 2 => 2 ^ 21 | 3 => 2 ^ 26 | 4 => 2 ^ 31 | 5 => 2 ^ 35 | _ => 2 ^ 12

/-- PS codes a leaf of each level allows (Table 3-2). -/
def psAllowed (level ps : Nat) : Bool :=
  match level with
  | 0 => ps == 0 || ps == 1
  | 1 => ps == 2 || ps == 3
  | 2 => ps == 4 || ps == 5
  | _ => false

/-- The implemented bits of a virtual address. -/
def va57 (va : W64) : Nat := va.toNat % 2 ^ 57

/-- Base and size of the page of a held translation. -/
def Tlb.size (t : Tlb) : Nat := pageSize (ptePs t.w0)
def Tlb.hits (t : Tlb) (asid : Nat) (va : W64) : Bool := t.asid == asid && va57 va / t.size * t.size == t.base
/-- The physical address a held translation gives. -/
def Tlb.pa (t : Tlb) (va : W64) : Nat := ptePa t.w0 + va57 va % t.size

/-! ### Ranges and scales -/

/-- Cut a range at multiples of `g`: (address, length) pairs in ascending order. -/
def splitRange (g : Nat) : Nat → W64 → Nat → List (W64 × Nat)
  | 0, _, _ => []
  | f + 1, va, len =>
    if len = 0 then []
    else
      let k := Nat.min len (g - va.toNat % g)
      (va, k) :: splitRange g f (va + BitVec.ofNat 64 k) (len - k)

/-- The lines of a range. -/
def linePieces (va : W64) (n : Nat) : List (W64 × Nat) := splitRange 256 (n / 256 + 2) va n

/-- Base virtual address of the page of an address. -/
def pageBaseVa (w0 va : W64) : W64 := va - BitVec.ofNat 64 (va57 va % pageSize (ptePs w0))

/-- Virtual addresses of the scale and super-scale of the element that is `nib`-th in its byte, or in its CB6 group of three
bytes, at `va` (R65). A CB6 group counts its four elements in the page of its first byte, where it lies in two pages, and
four for each whole three bytes of the page before it, where the page starts inside a group of the tensor; R65 leaves both
open (DESIGN CHOICE, log entry 68). -/
def scaleVa (w0 w1 : W64) (w : Nat) (va : W64) (nib : Nat) : W64 × W64 :=
  let base := pageBaseVa w0 va
  let off := va57 va % pageSize (ptePs w0)
  -- element index from the page base: `nib` is the element's place in its byte or 3-byte group
  let e := if w = 6 then off / 3 * 4 + nib else if w = 4 then off * 2 + nib else off * 8 / w
  let b := e / blockLen (leafSck w1)
  let sb := base + BitVec.ofInt 64 (leafScoff w1 * 4096) + BitVec.ofNat 64 (leafScsub w1 * 64)
  (sb + BitVec.ofNat 64 (scaleOff (leafSck w1) b), sb + BitVec.ofNat 64 (superOff b))

/-- Where element `m` of width `w` of a run from `ea` lies for scales: the address that counts its page index and its
place there. -/
def elemPlace (w : Nat) (ea : W64) (m : Nat) : W64 × Nat :=
  if w = 6 then (ea + BitVec.ofNat 64 (m / 4 * 3), m % 4)
  else if w = 4 then (ea + BitVec.ofNat 64 (m / 2), m % 2)
  else (ea + BitVec.ofNat 64 (m * w / 8), 0)

/-! ### Tiles -/

/-- Row length E of Table 3-7. -/
def rowLen (fmt sck : Nat) : Nat :=
  match fmtBits fmt with
  | 64 => 32 | 32 => 64 | 16 => 128 | 4 => if sck = 1 then 256 else 512 | _ => 256

def Tensor.e (t : Tensor) : Nat := rowLen t.fmt t.sck
def Tensor.w (t : Tensor) : Nat := fmtBits t.fmt
def Tensor.extN (t : Tensor) (i : Nat) : Nat := (t.ext.drop i).headD 1
def Tensor.strN (t : Tensor) (i : Nat) : W64 := if i < t.rank then (t.str.drop (i - 1)).headD 0 else 0
/-- Bytes used per row (Table 3-7). -/
def Tensor.used (t : Tensor) : Nat := t.e * t.w / 8

/-- Scales a row holds, and the elements one covers. -/
def Tensor.rowScales (t : Tensor) : Nat := if t.sck = 0 then 0 else t.e / blockLen t.sck

/-- Non-pad elements of row `r` of a tile (R70): they come first in the row. -/
def Tensor.rowCount (t : Tensor) (g : Tag) (r : Nat) : Nat :=
  if t.extN 1 ≤ g.c1 * 64 + r ∨ t.extN 2 ≤ g.c2 ∨ t.extN 3 ≤ g.c3 then 0 else Nat.min t.e (t.extN 0 - g.c0 * t.e)

/-- Address of element 0 of row `r` (R70). -/
def Tensor.rowVa (t : Tensor) (g : Tag) (r : Nat) : W64 :=
  t.base + BitVec.ofNat 64 g.c3 * t.strN 3 + BitVec.ofNat 64 g.c2 * t.strN 2 +
    BitVec.ofNat 64 (g.c1 * 64 + r) * t.strN 1 + BitVec.ofNat 64 (g.c0 * t.e * t.w / 8)

/-- Bytes that the non-pad elements of a row touch. -/
def Tensor.rowBytes (t : Tensor) (g : Tag) (r : Nat) : Nat := (t.rowCount g r * t.w + 7) / 8

/-! ### Physical places of a copy -/

/-- The leaf a copy translates an address through. -/
def pageOf (l : List Tlb) (asid : Nat) (va : W64) : Option Tlb := l.find? (fun t => t.hits asid va)

/-- Physical bytes of a row's range. -/
def Slot.paBytes (x : Slot) (va : W64) (bs : List Byte) : List (Nat × Byte) :=
  bs.zipIdx.filterMap (fun b =>
    let a := va + BitVec.ofNat 64 b.2
    (pageOf x.pages x.tag.asid a).map (fun t => (t.pa a, b.1)))

/-- Code of element `e` of a row. -/
def rowCode (t : Tensor) (row : VReg) (e : Nat) : Nat := elemN row t.w e

/-- Put codes (element, code) into a row. -/
def putCodes (t : Tensor) (row : VReg) (l : List (Nat × Nat)) : VReg :=
  l.foldl (fun (v : VReg) c =>
    let m : VReg := (BitVec.ofNat 2048 (2 ^ t.w - 1)) <<< (t.w * c.1)
    (v &&& ~~~m) ||| (BitVec.ofNat 2048 (c.2 % 2 ^ t.w) <<< (t.w * c.1))) row

/-- Scale code and super-scale of element `e` of row `r`. -/
def Slot.scaleOf (x : Slot) (r e : Nat) : Nat :=
  (mget x.scl (x.tens.rowScales * r + e / blockLen x.tens.sck) 0).toNat
def Slot.superOf (x : Slot) (r : Nat) : Nat := (mget x.sup r 0).toNat

/-- Keep of a byte what `m` does not select. -/
def mixByte (old new m : Byte) : Byte := (new &&& m) ||| (old &&& ~~~m)

/-- The physical bytes of a row's non-pad elements as the copy holds them, each with the bits that are theirs. -/
def Slot.rowPart (x : Slot) (r : Nat) : List (Nat × Byte × Byte) :=
  let t := x.tens
  let nb := t.rowBytes x.tag r
  let row := mget x.rows r 0
  let low := t.rowCount x.tag r * t.w - 8 * (nb - 1)
  (List.range nb).filterMap (fun i =>
    let a := t.rowVa x.tag r + BitVec.ofNat 64 i
    (pageOf x.pages x.tag.asid a).map (fun p =>
      (p.pa a, BitVec.ofNat 8 (elemN row 8 i), if i + 1 = nb then BitVec.ofNat 8 (2 ^ low - 1) else 255#8)))

/-- Virtual addresses of the scales of a row, one for each scale with a non-pad element, with the super-scale's;
a block has the scale of its first element, also where it lies in two pages (DESIGN CHOICE, log entry 68). -/
def rowScaleVas (t : Tensor) (g : Tag) (pages : List Tlb) (r : Nat) : List (Nat × W64 × W64) :=
  (List.range t.rowScales).filterMap (fun u =>
    if u * blockLen t.sck < t.rowCount g r then
      let (va, nb) := elemPlace t.w (t.rowVa g r) (u * blockLen t.sck)
      (pageOf pages g.asid va).map (fun pg =>
        let (a, b) := scaleVa pg.w0 pg.w1 t.w va nb
        (u, a, b))
    else none)

/-- Lines, in module or host memory, that the non-pad elements of some rows touch, and the scales of those elements: a copy holds
leases on the scales' lines too, since R228 has every read of a copy in one order with their stores (DEDUCED, log entry 81). -/
def Slot.lines (x : Slot) (rows : List Nat) : List Nat :=
  let at_ (va : W64) : Option Nat :=
    ((pageOf x.pages x.tag.asid va).map (fun t => t.pa va)).bind (fun pa => if paHome pa then some (pa / 256) else none)
  (rows.flatMap (fun r =>
    (linePieces (x.tens.rowVa x.tag r) (x.tens.rowBytes x.tag r)).filterMap (fun p => at_ p.1) ++
      (rowScaleVas x.tens x.tag x.pages r).flatMap (fun v =>
        (at_ v.2.1).toList ++ (if x.tens.sck = 2 then (at_ v.2.2).toList else [])))).eraseDups

/-- The physical bytes of a row's scales and super-scale as the copy holds them. -/
def Slot.scalePart (x : Slot) (r : Nat) : List (Nat × Byte × Byte) :=
  let t := x.tens
  let at_ (a : W64) (b : Byte) : Option (Nat × Byte × Byte) := (pageOf x.pages x.tag.asid a).map (fun p => (p.pa a, b, 255#8))
  (rowScaleVas t x.tag x.pages r).flatMap (fun v =>
    (at_ v.2.1 (mget x.scl (t.rowScales * r + v.1) 0)).toList ++
      (if t.sck = 2 then (leBytes 4 (x.superOf r)).zipIdx.filterMap (fun b => at_ (v.2.2 + BitVec.ofNat 64 b.2) b.1) else []))

/-- Part `p` of a copy: row p, or the scales of row p − 64. -/
def Slot.part (x : Slot) (p : Nat) : List (Nat × Byte × Byte) := if p < 64 then x.rowPart p else x.scalePart (p - 64)

end Sys2Proof.Machine
end

