-- ==== Sys2Proof/Machine/Operands.lean ====
section
/-! DEFINITION. Operand forms (Tables 6-1 to 6-6, R124 to R130, R133): for each slot instruction, the operands it reads
in the order of R130, the registers it writes, its predicate; and the decode checks on field values, operand codes,
system-register numbers and register groups (R134, Table 6-7). -/

namespace Sys2Proof.Machine

/-- The two register files an operand field can name (R125). -/
inductive RFile where
  | s | v
  deriving DecidableEq, Repr

/-- A source operand: its file, its code and whether it is peeked (R125, R130). -/
structure Src where
  file : RFile
  code : BitVec 6
  peek : Bool
  deriving DecidableEq, Repr

/-- The operands of an instruction: sources A, sources B, the third sources, destinations in reservation order, the
predicate (K, KN) and whether it is a vector predicate, the predicate destination, and NF. -/
structure OpForm where
  a : List Src := []
  b : List Src := []
  c : List Src := []
  dests : List (RFile × BitVec 6) := []
  pred : Option (BitVec 3 × Bool) := none
  vpred : Bool := false
  kd : Option (BitVec 3) := none
  nf : Bool := false
  deriving DecidableEq, Repr

/-- The sources in the order of R130. -/
def OpForm.srcs (f : OpForm) : List Src := f.a ++ f.b ++ f.c

/-- The registers of a group from `base` upward (R133). -/
def groupRegs (base : BitVec 6) (n : Nat) : List (BitVec 6) := (List.range n).map (fun j => base + BitVec.ofNat 6 j)

/-- Registers in the source group and in the destination group of `VCVT` (R214). -/
def cvtGroup (sf df : BitVec 4) : Nat × Nat :=
  let ws := (EFmt.ofCode sf.toNat).bits
  let wd := (EFmt.ofCode df.toNat).bits
  if wd < ws then (ws / wd, 1) else if ws < wd then (1, wd / ws) else (1, 1)

/-- Formats that `FCVT` (INT64 too) and `VCVT` accept (R212). -/
def cvtFmt (i64 : Bool) (c : BitVec 4) : Bool := decide (1 ≤ c.toNat ∧ c.toNat ≤ 11) && (i64 || c != 5)

/-- The operand form of each slot instruction; the steps of other agents have none. -/
def opForm (i : Instr) : OpForm :=
  match i with
  | .nop => {}
  | .add d a b p q n k x => { a := [⟨.s, a, p⟩], b := [⟨.s, b, q⟩], dests := [(.s, d)], pred := some (k, x), nf := n }
  | .sub d a b p q n k x => { a := [⟨.s, a, p⟩], b := [⟨.s, b, q⟩], dests := [(.s, d)], pred := some (k, x), nf := n }
  | .mul d a b p q n k x => { a := [⟨.s, a, p⟩], b := [⟨.s, b, q⟩], dests := [(.s, d)], pred := some (k, x), nf := n }
  | .mulh d a b p q n k x => { a := [⟨.s, a, p⟩], b := [⟨.s, b, q⟩], dests := [(.s, d)], pred := some (k, x), nf := n }
  | .mulhu d a b p q n k x => { a := [⟨.s, a, p⟩], b := [⟨.s, b, q⟩], dests := [(.s, d)], pred := some (k, x), nf := n }
  | .div d a b p q n k x => { a := [⟨.s, a, p⟩], b := [⟨.s, b, q⟩], dests := [(.s, d)], pred := some (k, x), nf := n }
  | .divu d a b p q n k x => { a := [⟨.s, a, p⟩], b := [⟨.s, b, q⟩], dests := [(.s, d)], pred := some (k, x), nf := n }
  | .rem d a b p q n k x => { a := [⟨.s, a, p⟩], b := [⟨.s, b, q⟩], dests := [(.s, d)], pred := some (k, x), nf := n }
  | .remu d a b p q n k x => { a := [⟨.s, a, p⟩], b := [⟨.s, b, q⟩], dests := [(.s, d)], pred := some (k, x), nf := n }
  | .and d a b p q n k x => { a := [⟨.s, a, p⟩], b := [⟨.s, b, q⟩], dests := [(.s, d)], pred := some (k, x), nf := n }
  | .or d a b p q n k x => { a := [⟨.s, a, p⟩], b := [⟨.s, b, q⟩], dests := [(.s, d)], pred := some (k, x), nf := n }
  | .xor d a b p q n k x => { a := [⟨.s, a, p⟩], b := [⟨.s, b, q⟩], dests := [(.s, d)], pred := some (k, x), nf := n }
  | .andn d a b p q n k x => { a := [⟨.s, a, p⟩], b := [⟨.s, b, q⟩], dests := [(.s, d)], pred := some (k, x), nf := n }
  | .shl d a b p q n k x => { a := [⟨.s, a, p⟩], b := [⟨.s, b, q⟩], dests := [(.s, d)], pred := some (k, x), nf := n }
  | .shr d a b p q n k x => { a := [⟨.s, a, p⟩], b := [⟨.s, b, q⟩], dests := [(.s, d)], pred := some (k, x), nf := n }
  | .sar d a b p q n k x => { a := [⟨.s, a, p⟩], b := [⟨.s, b, q⟩], dests := [(.s, d)], pred := some (k, x), nf := n }
  | .rot d a b p q n k x => { a := [⟨.s, a, p⟩], b := [⟨.s, b, q⟩], dests := [(.s, d)], pred := some (k, x), nf := n }
  | .min d a b p q n k x => { a := [⟨.s, a, p⟩], b := [⟨.s, b, q⟩], dests := [(.s, d)], pred := some (k, x), nf := n }
  | .max d a b p q n k x => { a := [⟨.s, a, p⟩], b := [⟨.s, b, q⟩], dests := [(.s, d)], pred := some (k, x), nf := n }
  | .minu d a b p q n k x => { a := [⟨.s, a, p⟩], b := [⟨.s, b, q⟩], dests := [(.s, d)], pred := some (k, x), nf := n }
  | .maxu d a b p q n k x => { a := [⟨.s, a, p⟩], b := [⟨.s, b, q⟩], dests := [(.s, d)], pred := some (k, x), nf := n }
  | .clz d a p n k x => { a := [⟨.s, a, p⟩], dests := [(.s, d)], pred := some (k, x), nf := n }
  | .ctz d a p n k x => { a := [⟨.s, a, p⟩], dests := [(.s, d)], pred := some (k, x), nf := n }
  | .popc d a p n k x => { a := [⟨.s, a, p⟩], dests := [(.s, d)], pred := some (k, x), nf := n }
  | .bfx d a p _ _ => { a := [⟨.s, a, p⟩], dests := [(.s, d)] }
  | .bfxu d a p _ _ => { a := [⟨.s, a, p⟩], dests := [(.s, d)] }
  | .bfi d a p _ _ => { a := [⟨.s, a, p⟩], c := [⟨.s, d, false⟩], dests := [(.s, d)] }
  | .sext d a _ p n k x => { a := [⟨.s, a, p⟩], dests := [(.s, d)], pred := some (k, x), nf := n }
  | .zext d a _ p n k x => { a := [⟨.s, a, p⟩], dests := [(.s, d)], pred := some (k, x), nf := n }
  | .sel d a b p q n k x => { a := [⟨.s, a, p⟩], b := [⟨.s, b, q⟩], c := [⟨.s, d, false⟩], dests := [(.s, d)], pred := some (k, x), nf := n }
  | .mov d a p n k x => { a := [⟨.s, a, p⟩], dests := [(.s, d)], pred := some (k, x), nf := n }
  | .movi d _ => { dests := [(.s, d)] }
  | .lea d a p _ => { a := [⟨.s, a, p⟩], dests := [(.s, d)] }
  | .cmp d a b p q _ _ => { a := [⟨.s, a, p⟩], b := [⟨.s, b, q⟩], dests := [(.s, d)] }
  | .fadd d a b p q n k x => { a := [⟨.s, a, p⟩], b := [⟨.s, b, q⟩], dests := [(.s, d)], pred := some (k, x), nf := n }
  | .fsub d a b p q n k x => { a := [⟨.s, a, p⟩], b := [⟨.s, b, q⟩], dests := [(.s, d)], pred := some (k, x), nf := n }
  | .fmul d a b p q n k x => { a := [⟨.s, a, p⟩], b := [⟨.s, b, q⟩], dests := [(.s, d)], pred := some (k, x), nf := n }
  | .fma d a b p q n k x => { a := [⟨.s, a, p⟩], b := [⟨.s, b, q⟩], c := [⟨.s, d, false⟩], dests := [(.s, d)], pred := some (k, x), nf := n }
  | .fdiv d a b p q n k x => { a := [⟨.s, a, p⟩], b := [⟨.s, b, q⟩], dests := [(.s, d)], pred := some (k, x), nf := n }
  | .fsqrt d a p n k x => { a := [⟨.s, a, p⟩], dests := [(.s, d)], pred := some (k, x), nf := n }
  | .fmin d a b p q n k x => { a := [⟨.s, a, p⟩], b := [⟨.s, b, q⟩], dests := [(.s, d)], pred := some (k, x), nf := n }
  | .fmax d a b p q n k x => { a := [⟨.s, a, p⟩], b := [⟨.s, b, q⟩], dests := [(.s, d)], pred := some (k, x), nf := n }
  | .fcmp d a b p q n _ => { a := [⟨.s, a, p⟩], b := [⟨.s, b, q⟩], dests := [(.s, d)], nf := n }
  | .fcvt d a p _ _ _ _ => { a := [⟨.s, a, p⟩], dests := [(.s, d)] }
  | .vadd d a b p q n k x => { a := [⟨.v, a, p⟩], b := [⟨.v, b, q⟩], dests := [(.v, d)], pred := some (k, x), vpred := true, nf := n }
  | .vsub d a b p q n k x => { a := [⟨.v, a, p⟩], b := [⟨.v, b, q⟩], dests := [(.v, d)], pred := some (k, x), vpred := true, nf := n }
  | .vmul d a b p q n k x => { a := [⟨.v, a, p⟩], b := [⟨.v, b, q⟩], dests := [(.v, d)], pred := some (k, x), vpred := true, nf := n }
  | .vmulh d a b p q n k x => { a := [⟨.v, a, p⟩], b := [⟨.v, b, q⟩], dests := [(.v, d)], pred := some (k, x), vpred := true, nf := n }
  | .vmac d a b p q n k x => { a := [⟨.v, a, p⟩], b := [⟨.v, b, q⟩], c := [⟨.v, d, false⟩], dests := [(.v, d)], pred := some (k, x), vpred := true, nf := n }
  | .vmac2 d a m _ p n k x => { a := [⟨.v, a, p⟩], b := [⟨.v, 24#6 + m.setWidth 6, true⟩], c := [⟨.v, d, false⟩], dests := [(.v, d)], pred := some (k, x), vpred := true, nf := n }
  | .vdot4 d a b p q n k x => { a := [⟨.v, a, p⟩], b := [⟨.v, b, q⟩], c := [⟨.v, d, false⟩], dests := [(.v, d)], pred := some (k, x), vpred := true, nf := n }
  | .vabs d a p n k x => { a := [⟨.v, a, p⟩], dests := [(.v, d)], pred := some (k, x), vpred := true, nf := n }
  | .vneg d a p n k x => { a := [⟨.v, a, p⟩], dests := [(.v, d)], pred := some (k, x), vpred := true, nf := n }
  | .vmin d a b p q n k x => { a := [⟨.v, a, p⟩], b := [⟨.v, b, q⟩], dests := [(.v, d)], pred := some (k, x), vpred := true, nf := n }
  | .vmax d a b p q n k x => { a := [⟨.v, a, p⟩], b := [⟨.v, b, q⟩], dests := [(.v, d)], pred := some (k, x), vpred := true, nf := n }
  | .vand d a b p q n k x => { a := [⟨.v, a, p⟩], b := [⟨.v, b, q⟩], dests := [(.v, d)], pred := some (k, x), vpred := true, nf := n }
  | .vor d a b p q n k x => { a := [⟨.v, a, p⟩], b := [⟨.v, b, q⟩], dests := [(.v, d)], pred := some (k, x), vpred := true, nf := n }
  | .vxor d a b p q n k x => { a := [⟨.v, a, p⟩], b := [⟨.v, b, q⟩], dests := [(.v, d)], pred := some (k, x), vpred := true, nf := n }
  | .vshl d a b p q n k x => { a := [⟨.v, a, p⟩], b := [⟨.v, b, q⟩], dests := [(.v, d)], pred := some (k, x), vpred := true, nf := n }
  | .vshr d a b p q n k x => { a := [⟨.v, a, p⟩], b := [⟨.v, b, q⟩], dests := [(.v, d)], pred := some (k, x), vpred := true, nf := n }
  | .vsar d a b p q n k x => { a := [⟨.v, a, p⟩], b := [⟨.v, b, q⟩], dests := [(.v, d)], pred := some (k, x), vpred := true, nf := n }
  | .vshrr d a _ _ p n k x => { a := [⟨.v, a, p⟩], dests := [(.v, d)], pred := some (k, x), vpred := true, nf := n }
  | .vsat d a _ _ p n k x => { a := [⟨.v, a, p⟩], dests := [(.v, d)], pred := some (k, x), vpred := true, nf := n }
  | .vpack d a _ _ _ _ p n k x => { a := [⟨.v, a, p⟩], c := [⟨.v, d, false⟩], dests := [(.v, d)], pred := some (k, x), vpred := true, nf := n }
  | .vunpk d a _ _ _ p n k x => { a := [⟨.v, a, p⟩], dests := [(.v, d)], pred := some (k, x), vpred := true, nf := n }
  | .vcmp y _ a b p q _ k x => { a := [⟨.v, a, p⟩], b := [⟨.v, b, q⟩], pred := some (k, x), vpred := true, kd := some y }
  | .vsel d a b p q n k x => { a := [⟨.v, a, p⟩], b := [⟨.v, b, q⟩], c := [⟨.v, d, false⟩], dests := [(.v, d)], pred := some (k, x), vpred := true, nf := n }
  | .vslide d a f p q v _ _ => { a := [⟨.v, a, p⟩], b := [⟨if v then .v else .s, f, q⟩], dests := [(.v, d)] }
  | .vbcast d a p n k x => { a := [⟨.s, a, p⟩], dests := [(.v, d)], pred := some (k, x), vpred := true, nf := n }
  | .vext d a p _ _ => { a := [⟨.v, a, p⟩], dests := [(.s, d)] }
  | .vins d a p _ => { a := [⟨.s, a, p⟩], c := [⟨.v, d, false⟩], dests := [(.v, d)] }
  | .vperm d a b p q n k x => { a := [⟨.v, a, p⟩], b := [⟨.v, b, q⟩], dests := [(.v, d)], pred := some (k, x), vpred := true, nf := n }
  | .vcompr d a b p q n k x => { a := [⟨.v, a, p⟩], b := [⟨.v, b, q⟩], dests := [(.v, d)], pred := some (k, x), vpred := true, nf := n }
  | .vexpd d a b p q n k x => { a := [⟨.v, a, p⟩], b := [⟨.v, b, q⟩], dests := [(.v, d)], pred := some (k, x), vpred := true, nf := n }
  | .vred d a _ _ _ p n k x => { a := [⟨.v, a, p⟩], dests := [(.s, d)], pred := some (k, x), vpred := true, nf := n }
  | .vscan d a _ _ p n k x => { a := [⟨.v, a, p⟩], c := [⟨.v, d, false⟩], dests := [(.v, d)], pred := some (k, x), vpred := true, nf := n }
  | .vpopc d a p n k x => { a := [⟨.v, a, p⟩], dests := [(.v, d)], pred := some (k, x), vpred := true, nf := n }
  | .vfadd d a b p q n k x => { a := [⟨.v, a, p⟩], b := [⟨.v, b, q⟩], dests := [(.v, d)], pred := some (k, x), vpred := true, nf := n }
  | .vfsub d a b p q n k x => { a := [⟨.v, a, p⟩], b := [⟨.v, b, q⟩], dests := [(.v, d)], pred := some (k, x), vpred := true, nf := n }
  | .vfmul d a b p q n k x => { a := [⟨.v, a, p⟩], b := [⟨.v, b, q⟩], dests := [(.v, d)], pred := some (k, x), vpred := true, nf := n }
  | .vfma d a b p q n k x => { a := [⟨.v, a, p⟩], b := [⟨.v, b, q⟩], c := [⟨.v, d, false⟩], dests := [(.v, d)], pred := some (k, x), vpred := true, nf := n }
  | .vfnma d a b p q n k x => { a := [⟨.v, a, p⟩], b := [⟨.v, b, q⟩], c := [⟨.v, d, false⟩], dests := [(.v, d)], pred := some (k, x), vpred := true, nf := n }
  | .vfmin d a b p q n k x => { a := [⟨.v, a, p⟩], b := [⟨.v, b, q⟩], dests := [(.v, d)], pred := some (k, x), vpred := true, nf := n }
  | .vfmax d a b p q n k x => { a := [⟨.v, a, p⟩], b := [⟨.v, b, q⟩], dests := [(.v, d)], pred := some (k, x), vpred := true, nf := n }
  | .vfabs d a p n k x => { a := [⟨.v, a, p⟩], dests := [(.v, d)], pred := some (k, x), vpred := true, nf := n }
  | .vfneg d a p n k x => { a := [⟨.v, a, p⟩], dests := [(.v, d)], pred := some (k, x), vpred := true, nf := n }
  | .vfdiv d a b p q n k x => { a := [⟨.v, a, p⟩], b := [⟨.v, b, q⟩], dests := [(.v, d)], pred := some (k, x), vpred := true, nf := n }
  | .vfsqrt d a p n k x => { a := [⟨.v, a, p⟩], dests := [(.v, d)], pred := some (k, x), vpred := true, nf := n }
  | .vfrcp d a p n k x => { a := [⟨.v, a, p⟩], dests := [(.v, d)], pred := some (k, x), vpred := true, nf := n }
  | .vfrsq d a p n k x => { a := [⟨.v, a, p⟩], dests := [(.v, d)], pred := some (k, x), vpred := true, nf := n }
  | .vfexp2 d a p n k x => { a := [⟨.v, a, p⟩], dests := [(.v, d)], pred := some (k, x), vpred := true, nf := n }
  | .vflog2 d a p n k x => { a := [⟨.v, a, p⟩], dests := [(.v, d)], pred := some (k, x), vpred := true, nf := n }
  | .vfcmp y _ a b p q n k x => { a := [⟨.v, a, p⟩], b := [⟨.v, b, q⟩], pred := some (k, x), vpred := true, kd := some y, nf := n }
  | .vfclass d a p n k x => { a := [⟨.v, a, p⟩], dests := [(.v, d)], pred := some (k, x), vpred := true, nf := n }
  | .vfred d a _ _ _ p n k x => { a := [⟨.v, a, p⟩], dests := [(.s, d)], pred := some (k, x), vpred := true, nf := n }
  | .vfdot2 d a b p q n k x => { a := [⟨.v, a, p⟩], b := [⟨.v, b, q⟩], c := [⟨.v, d, false⟩], dests := [(.v, d)], pred := some (k, x), vpred := true, nf := n }
  | .vcvt d a p sv t _ _ => { a := (groupRegs a (cvtGroup sv t).1).map (fun r => ⟨RFile.v, r, p⟩), dests := (groupRegs d (cvtGroup sv t).2).map (fun r => (RFile.v, r)) }
  | .vcvti d a _ _ _ p n k x => { a := [⟨.v, a, p⟩], dests := [(.v, d)], pred := some (k, x), vpred := true, nf := n }
  | .vcvtf d a _ _ p n k x => { a := [⟨.v, a, p⟩], dests := [(.v, d)], pred := some (k, x), vpred := true, nf := n }
  | .vscale d a b p q n k x => { a := [⟨.v, a, p⟩], b := [⟨.v, b, q⟩], dests := [(.v, d)], pred := some (k, x), vpred := true, nf := n }
  | .vcbx d a _ _ p n k x => { a := [⟨.v, a, p⟩], dests := [(.v, d)], pred := some (k, x), vpred := true, nf := n }
  | .vqnt d a _ _ p n _ => { a := [⟨.v, a, p⟩], c := [⟨.v, d, false⟩], dests := [(.v, d)], nf := n }
  | .vq4nS d a b p q n => { a := [⟨.v, a, p⟩], b := [⟨.s, b, q⟩], dests := [(.s, d)], nf := n }
  | .vq4n d a b p q n _ => { a := [⟨.v, a, p⟩], b := [⟨.s, b, q⟩], c := [⟨.v, d, false⟩], dests := [(.v, d)], nf := n }
  | .vmxq d a e p n _ _ => { a := [⟨.v, a, p⟩], c := [⟨.v, d, false⟩], dests := [(.v, d), (.s, e)], nf := n }
  | .vflgr d => { dests := [(.v, d)] }
  | .vflgc _ k x => { pred := some (k, x), vpred := true }
  | .ldB d a p _ => { a := [⟨.s, a, p⟩], dests := [(.s, d)] }
  | .ldBu d a p _ => { a := [⟨.s, a, p⟩], dests := [(.s, d)] }
  | .ldH d a p _ => { a := [⟨.s, a, p⟩], dests := [(.s, d)] }
  | .ldHu d a p _ => { a := [⟨.s, a, p⟩], dests := [(.s, d)] }
  | .ldW d a p _ => { a := [⟨.s, a, p⟩], dests := [(.s, d)] }
  | .ldWu d a p _ => { a := [⟨.s, a, p⟩], dests := [(.s, d)] }
  | .ldD d a p _ => { a := [⟨.s, a, p⟩], dests := [(.s, d)] }
  | .stB d a p _ => { a := [⟨.s, a, p⟩], c := [⟨.s, d, false⟩] }
  | .stH d a p _ => { a := [⟨.s, a, p⟩], c := [⟨.s, d, false⟩] }
  | .stW d a p _ => { a := [⟨.s, a, p⟩], c := [⟨.s, d, false⟩] }
  | .stD d a p _ => { a := [⟨.s, a, p⟩], c := [⟨.s, d, false⟩] }
  | .vld d a p _ _ n k x => { a := [⟨.s, a, p⟩], dests := [(.v, d)], pred := some (k, x), vpred := true, nf := n }
  | .vlds d a b p _ k x => { a := [⟨.s, a, p⟩], b := [⟨.s, b, false⟩], dests := [(.v, d)], pred := some (k, x), vpred := true }
  | .vldg d a b p _ k x => { a := [⟨.s, a, p⟩], b := [⟨.v, b, false⟩], dests := [(.v, d)], pred := some (k, x), vpred := true }
  | .vst d a p _ _ n k x => { a := [⟨.s, a, p⟩], c := [⟨.v, d, false⟩], pred := some (k, x), vpred := true, nf := n }
  | .vsts d a b p _ k x => { a := [⟨.s, a, p⟩], b := [⟨.s, b, false⟩], c := [⟨.v, d, false⟩], pred := some (k, x), vpred := true }
  | .vstg d a b p _ k x => { a := [⟨.s, a, p⟩], b := [⟨.v, b, false⟩], c := [⟨.v, d, false⟩], pred := some (k, x), vpred := true }
  | .vldn d a p c _ _ n k x => { a := [⟨.s, a, p⟩], dests := (groupRegs d (c.toNat + 1)).map (fun r => (RFile.v, r)), pred := some (k, x), vpred := true, nf := n }
  | .vstn d a p c _ _ n k x => { a := [⟨.s, a, p⟩], c := (groupRegs d (c.toNat + 1)).map (fun r => ⟨RFile.v, r, false⟩), pred := some (k, x), vpred := true, nf := n }
  | .ldt d a b p q _ _ => { a := [⟨.s, a, p⟩], b := [⟨.s, b, q⟩], dests := [(.v, d)] }
  | .stt d a b p q _ _ => { a := [⟨.s, a, p⟩], b := [⟨.s, b, q⟩], c := [⟨.v, d, false⟩] }
  | .sbind d a p _ => { a := [⟨.s, a, p⟩], dests := [(.s, d)] }
  | .schain d a b p r _ => { a := [⟨.s, a, p⟩], b := [⟨.s, b, r⟩], dests := [(.s, d)] }
  | .sunbind _ => {}
  | .spos d a p _ sv => { a := if sv then [⟨.s, a, p⟩] else [], dests := [(.s, d)] }
  | .amo d a b _ _ => { a := [⟨.s, a, false⟩], b := [⟨.s, b, false⟩], dests := [(.s, d)] }
  | .cas d a b _ => { a := [⟨.s, a, false⟩], b := [⟨.s, b, false⟩], c := [⟨.s, d, false⟩], dests := [(.s, d)] }
  | .lda d a p _ => { a := [⟨.s, a, p⟩], dests := [(.s, d)] }
  | .sta d a p _ => { a := [⟨.s, a, p⟩], c := [⟨.s, d, false⟩] }
  | .fenceO _ => {}
  | .fenceP => {}
  | .fenceH => {}
  | .fenceE => {}
  | .spill d v _ => { c := [⟨if v then .v else .s, d, false⟩] }
  | .fill d v _ => { dests := [(if v then .v else .s, d)] }
  | .park d _ => { c := [⟨.v, d, false⟩] }
  | .unpark d _ => { dests := [(.v, d)] }
  | .mcst d a b p q => { a := [⟨.s, a, p⟩], b := [⟨.s, b, q⟩], c := [⟨.v, d, false⟩] }
  | .prefl _ a p _ => { a := [⟨.s, a, p⟩] }
  | .cbld _ a p _ => { a := [⟨.s, a, p⟩] }
  | .cbst _ a p _ => { a := [⟨.s, a, p⟩] }
  | .cbwr _ a b p q => { a := [⟨.s, a, p⟩], b := [⟨.s, b, q⟩] }
  | .cbinv _ b q _ => { b := [⟨.s, b, q⟩] }
  | .waitv d a b p q _ _ => { a := [⟨.s, a, p⟩], b := [⟨.s, b, q⟩], dests := [(.s, d)] }
  | .tflush a b p q => { a := [⟨.s, a, p⟩], b := [⟨.s, b, q⟩] }
  | .tinv a b p q => { a := [⟨.s, a, p⟩], b := [⟨.s, b, q⟩] }
  | .br k x _ _ => { pred := some (k, x) }
  | .brc a p _ _ _ => { a := [⟨.s, a, p⟩] }
  | .call k x _ _ => { dests := [(.s, 30#6)], pred := some (k, x) }
  | .calli a p k x => { a := [⟨.s, a, p⟩], dests := [(.s, 30#6)], pred := some (k, x) }
  | .ret a p k x => { a := [⟨.s, a, p⟩], pred := some (k, x) }
  | .jt d a b p q k x => { a := [⟨.s, a, p⟩], b := [⟨.s, b, q⟩], c := [⟨.s, d, false⟩], pred := some (k, x) }
  | .loop d _ _ => { a := [⟨.s, d, true⟩], dests := [(.s, d)] }
  | .gang => {}
  | .split => {}
  | .gbr k x _ _ => { pred := some (k, x) }
  | .jset _ => {}
  | .jclr _ => {}
  | .jwait _ _ => {}
  | .semwait d _ _ => { dests := [(.s, d)] }
  | .sempost d _ _ => { dests := [(.s, d)] }
  | .mxlock d _ => { dests := [(.s, d)] }
  | .mxtry d _ => { dests := [(.s, d)] }
  | .mxunlk d _ => { dests := [(.s, d)] }
  | .tenq d a b p q => { a := [⟨.s, a, p⟩], b := [⟨.s, b, q⟩], dests := [(.s, d)] }
  | .twait d a p _ => { a := [⟨.s, a, p⟩], dests := [(.s, d)] }
  | .tstat d _ _ _ => { dests := [(.s, d)] }
  | .tcancel d a b p q => { a := [⟨.s, a, p⟩], b := [⟨.s, b, q⟩], dests := [(.s, d)] }
  | .launch d a b p q => { a := [⟨.s, a, p⟩], b := [⟨.s, b, q⟩], dests := [(.s, d)] }
  | .qlink d a p _ => { a := [⟨.s, a, p⟩], dests := [(.s, d)] }
  | .qunlink _ => {}
  | .qdepth d _ => { dests := [(.s, d)] }
  | .qflush _ _ => {}
  | .yield => {}
  | .prchk d => { dests := [(.s, d)] }
  | .pgpass d a b p q _ _ _ => { a := [⟨.s, a, p⟩], b := [⟨.s, b, q⟩], c := [⟨.s, d, false⟩] }
  | .trap a p _ => { a := [⟨.s, a, p⟩] }
  | .sysc _ => {}
  | .brk _ => {}
  | .eret => {}
  | .rply => {}
  | .mfs d _ => { dests := [(.s, d)] }
  | .mts a p _ => { a := [⟨.s, a, p⟩] }
  | .mtsFlg a p => { a := [⟨.s, a, p⟩] }
  | .mtsSrng a p => { a := [⟨.s, a, p⟩] }
  | .mtsStatus a p => { a := [⟨.s, a, p⟩] }
  | .mtsEpc a p => { a := [⟨.s, a, p⟩] }
  | .mtsEcause a p => { a := [⟨.s, a, p⟩] }
  | .tlbinv a b p q _ => { a := [⟨.s, a, p⟩], b := [⟨.s, b, q⟩] }
  | .ext _ _ => {}
  | .halt => {}
  | .pchk a p v => { a := [⟨if v then .v else .s, a, p⟩] }
  | _ => {}

/-- Field values that the descriptions assign (Table 6-7, FIELD). -/
def fieldOk (i : Instr) : Bool :=
  match i with
  | .sext _ _ m _ _ _ _ => m != 0
  | .zext _ _ m _ _ _ _ => m != 0
  | .bfx _ _ _ sv l => decide (sv.toNat + l.toNat < 64)
  | .bfxu _ _ _ sv l => decide (sv.toNat + l.toNat < 64)
  | .bfi _ _ _ sv l => decide (sv.toNat + l.toNat < 64)
  | .cmp _ _ _ _ _ _ c => decide (c.toNat < 6)
  | .vcmp _ c _ _ _ _ _ _ _ => decide (c.toNat < 6)
  | .vpack _ _ w t u h _ _ _ _ => (t || !u) && (w || decide (h.toNat < 2))
  | .vunpk _ _ w _ h _ _ _ _ => w || decide (h.toNat < 2)
  | .vslide _ _ _ _ _ _ _ e => e != 3
  | .vred _ _ o t _ _ _ _ _ => !t || o == 0
  | .vscan _ _ o t _ _ _ _ => !t || o == 0
  | .vfred _ _ o r _ _ _ _ _ => o != 3 && decide (r.toNat < 5) && (r == 0 || o == 0)
  | .vcvti _ _ r _ _ _ _ _ _ => decide (r.toNat < 5)
  | .vcvtf _ _ r _ _ _ _ _ => decide (r.toNat < 5)
  | .fcvt _ _ _ sv t r _ => cvtFmt true sv && cvtFmt true t && sv != t && decide (r.toNat < 5)
  | .vcvt _ _ _ sv t r _ => cvtFmt false sv && cvtFmt false t && sv != t && decide (r.toNat < 5)
  | .vqnt _ _ _ w _ _ h => w || decide (h.toNat < 4)
  | .vmxq _ _ _ _ _ f h => f == 2 || decide (h.toNat < 4)
  | .vld _ _ _ r t _ _ _ => decide (t.toNat < 6) && (!r || t == 0)
  | .vst _ _ _ r t _ _ _ => decide (t.toNat < 6) && (!r || t == 0)
  | .vldn _ _ _ _ r t _ _ _ => decide (t.toNat < 6) && (!r || t == 0)
  | .vstn _ _ _ _ r t _ _ _ => decide (t.toNat < 6) && (!r || t == 0)
  | .vlds _ _ _ _ t _ _ => t != 3
  | .vldg _ _ _ _ t _ _ => t != 3
  | .vsts _ _ _ _ t _ _ => t != 3
  | .vstg _ _ _ _ t _ _ => t != 3
  | .ldt _ _ _ _ _ r t => decide (t.toNat < 6) && (!r || t == 0)
  | .stt _ _ _ _ _ r t => decide (t.toNat < 6) && (!r || t == 0)
  | .spos _ a p _ sv => sv || (a == 0 && !p)
  | .amo _ _ _ o u => decide (o.toNat < 10) && decide (u.toNat < 6) && !(o == 8 && u == 2)
  | .cas _ _ _ u => u == 0 || u == 1 || u == 5
  | .fenceO sv => sv != 7
  | .spill _ v o => if v then o.toNat % 256 == 0 else o.toNat % 8 == 0
  | .fill _ v o => if v then o.toNat % 256 == 0 else o.toNat % 8 == 0
  | .prefl l _ _ _ => decide (l.toNat < 2)
  | .cbinv _ b _ l => !l || b == 48
  | .waitv _ _ _ _ _ c _ => decide (c.toNat < 6)
  | .br _ _ _ b => decide (b.toNat < 5)
  | .call _ _ _ b => decide (b.toNat < 5)
  | .gbr _ _ _ b => decide (b.toNat < 5)
  | .brc _ _ c _ b => decide (c.toNat < 6) && decide (b.toNat < 5)
  | .loop _ _ b => decide (b.toNat < 5)
  | .semwait _ _ n => n != 0
  | .sempost _ _ n => n != 0
  | .pgpass _ _ _ _ _ _ t _ => t != 3
  | _ => true

/-- Restrictions on operand codes beyond Table 6-5 (R152, R157, R220, R276, R277). -/
def operandExtra (i : Instr) : Bool :=
  match i with
  | .loop d _ _ => decide (24 ≤ d.toNat ∧ d.toNat < 32)
  | .spill d _ _ => decide (d.toNat < 32)
  | .fill d _ _ => decide (d.toNat < 32)
  | .park d _ => decide (d.toNat < 32)
  | .unpark d _ => decide (d.toNat < 32)
  | .qlink _ _ _ r => decide (r.toNat < 24)
  | .qunlink r => decide (r.toNat < 24)
  | .qdepth _ r => decide (r.toNat < 24)
  | .qflush r _ => decide (r.toNat < 24)
  | _ => true

/-- A code that a source operand may hold (Table 6-5). -/
def srcCodeOk (f : RFile) (c : BitVec 6) : Bool :=
  decide (c.toNat < 32) || decide (48 ≤ c.toNat ∧ c.toNat ≤ 50) || (f == .v && decide (c.toNat < 48))

/-- A code that a destination operand may hold (Table 6-5). -/
def dstCodeOk (c : BitVec 6) : Bool := decide (c.toNat < 32) || c == 48

/-- Operand codes assigned for their fields (Table 6-7, OPERAND). Group registers are checked by `groupOk`, so only
the base register of a group counts here. -/
def operandOk (i : Instr) : Bool :=
  let f := opForm i
  operandExtra i && (f.a.take 1).all (fun s => srcCodeOk s.file s.code) && f.b.all (fun s => srcCodeOk s.file s.code)
    && (f.c.take 1).all (fun s => srcCodeOk s.file s.code)
    && (match i with
        | .vldn .. => (f.dests.take 1).all (fun d => dstCodeOk d.2)
        | .vcvt .. => (f.dests.take 1).all (fun d => dstCodeOk d.2)
        | _ => f.dests.all (fun d => dstCodeOk d.2))

/-- System-register numbers of Table 6-12. -/
def sysregNum (n : Nat) : Bool := decide (n ≤ 0x0D) || decide (0x20 ≤ n ∧ n ≤ 0x24) || decide (0x40 ≤ n ∧ n ≤ 0x7F)

/-- Assigned system-register numbers (Table 6-7, SYSREG). The numbers with a constructor of their own are not
written as `MTS` (Table 6-12; the five rows MTS_FLG to MTS_ECAUSE). -/
def sysregOk (i : Instr) : Bool :=
  match i with
  | .mfs _ n => sysregNum n.toNat
  | .mts _ _ n => sysregNum n.toNat
  | _ => true

/-- A group of `n` registers from `base` (R133): in range, and all queue or all plain. -/
def groupIn (base : BitVec 6) (n : Nat) : Bool :=
  decide (base.toNat < 32) && decide (base.toNat + n ≤ 32) && (decide (base.toNat + n ≤ 24) || decide (24 ≤ base.toNat))

/-- Groups that overlap in part, or a single register inside a group of the other side (R133). -/
def groupOverlap (b1 : BitVec 6) (n1 : Nat) (b2 : BitVec 6) (n2 : Nat) : Bool :=
  decide (b1.toNat < b2.toNat + n2 ∧ b2.toNat < b1.toNat + n1) && !(b1 == b2 && n1 == n2)

/-- The ILLOPND subcause of a multi-register form, if it has one: GROUP 1, OVERLAP 0 (R133); a `VCVT` that
meets both reports GROUP (R214; DESIGN CHOICE, log entry 89). -/
def groupFault (i : Instr) : Option Nat :=
  match i with
  | .vldn d _ _ c .. => if groupIn d (c.toNat + 1) then none else some 1
  | .vstn d _ _ c .. => if groupIn d (c.toNat + 1) then none else some 1
  | .vcvt d a _ sv t .. =>
    let g := cvtGroup sv t
    if g.1 = 1 ∧ g.2 = 1 then none
    else if (g.1 = 1 || groupIn a g.1) && (g.2 = 1 || groupIn d g.2) then
      (if groupOverlap a g.1 d g.2 then some 0 else none)
    else some 1
  | _ => none

/-- A decode fault of one slot: ILLINS with its subcause, or ILLOPND with its subcause (R134). -/
inductive DecFault where
  | illins (sub : Nat)
  | illopnd (sub : Nat)
  deriving DecidableEq, Repr

/-- The decode fault of an instruction whose opcode is assigned and whose reserved bits are zero, in the order FIELD,
OPERAND, SYSREG, then ILLOPND (R134). -/
def decodeFault (i : Instr) : Option DecFault :=
  if !fieldOk i then some (.illins 1)
  else if !operandOk i then some (.illins 2)
  else if !sysregOk i then some (.illins 4)
  else (groupFault i).map DecFault.illopnd

/-- The IMM12 of an instruction that an `EXT` may target (R123, R250). -/
def imm12 (i : Instr) : Option (BitVec 12) :=
  match i with
  | .movi _ im => some im
  | .lea _ _ _ im => some im
  | .ldB _ _ _ im => some im
  | .ldBu _ _ _ im => some im
  | .ldH _ _ _ im => some im
  | .ldHu _ _ _ im => some im
  | .ldW _ _ _ im => some im
  | .ldWu _ _ _ im => some im
  | .ldD _ _ _ im => some im
  | .stB _ _ _ im => some im
  | .stH _ _ _ im => some im
  | .stW _ _ _ im => some im
  | .stD _ _ _ im => some im
  | .lda _ _ _ im => some im
  | .sta _ _ _ im => some im
  | .prefl _ _ _ im => some im
  | .cbld _ _ _ im => some im
  | .cbst _ _ _ im => some im
  | _ => none

/-- The immediate in force: IMM12 sign-extended, or cat(IMM20, IMM12) sign-extended from bit 31 (R123). -/
def immOf (ext : Option (BitVec 20)) (im : BitVec 12) : W64 :=
  match ext with
  | none => im.signExtend 64
  | some h => (h ++ im).signExtend 64

end Sys2Proof.Machine
end

