-- ==== Sys2Proof/WellFormed.lean ====
section
/-! DEFINITION. Well-formed slot instructions: those an encoding exists for (R121 to R134). -/

namespace Sys2Proof

open Sys2Proof.Machine

/-- A constructor that stands for a slot instruction, and is the one its words decode to: the five `MTS` numbers that
have rows of their own are not written as `mts`. -/
def Instr.isSlot (i : Instr) : Bool :=
  match i with
  | .mts _ _ n => !([0x00, 0x01, 0x02, 0x20, 0x21].contains n.toNat)
  | .nop .. | .add .. | .sub .. | .mul .. | .mulh .. | .mulhu .. | .div .. | .divu .. | .rem .. | .remu ..
  | .and .. | .or .. | .xor .. | .andn .. | .shl .. | .shr .. | .sar .. | .rot .. | .min .. | .max ..
  | .minu .. | .maxu .. | .clz .. | .ctz .. | .popc .. | .bfx .. | .bfxu .. | .bfi .. | .sext .. | .zext ..
  | .sel .. | .mov .. | .movi .. | .lea .. | .cmp .. | .fadd .. | .fsub .. | .fmul .. | .fma .. | .fdiv ..
  | .fsqrt .. | .fmin .. | .fmax .. | .fcmp .. | .fcvt .. | .vadd .. | .vsub .. | .vmul .. | .vmulh ..
  | .vmac .. | .vmac2 .. | .vdot4 .. | .vabs .. | .vneg .. | .vmin .. | .vmax .. | .vand .. | .vor ..
  | .vxor .. | .vshl .. | .vshr .. | .vsar .. | .vshrr .. | .vsat .. | .vpack .. | .vunpk .. | .vcmp ..
  | .vsel .. | .vslide .. | .vbcast .. | .vext .. | .vins .. | .vperm .. | .vcompr .. | .vexpd .. | .vred ..
  | .vscan .. | .vpopc .. | .vfadd .. | .vfsub .. | .vfmul .. | .vfma .. | .vfnma .. | .vfmin .. | .vfmax ..
  | .vfabs .. | .vfneg .. | .vfdiv .. | .vfsqrt .. | .vfrcp .. | .vfrsq .. | .vfexp2 .. | .vflog2 ..
  | .vfcmp .. | .vfclass .. | .vfred .. | .vfdot2 .. | .vcvt .. | .vcvti .. | .vcvtf .. | .vscale .. | .vcbx ..
  | .vqnt .. | .vq4nS .. | .vq4n .. | .vmxq .. | .vflgr .. | .vflgc .. | .ldB .. | .ldBu .. | .ldH ..
  | .ldHu .. | .ldW .. | .ldWu .. | .ldD .. | .stB .. | .stH .. | .stW .. | .stD .. | .vld .. | .vlds ..
  | .vldg .. | .vst .. | .vsts .. | .vstg .. | .vldn .. | .vstn .. | .ldt .. | .stt .. | .sbind .. | .schain ..
  | .sunbind .. | .spos .. | .amo .. | .cas .. | .lda .. | .sta .. | .fenceO .. | .fenceP .. | .fenceH ..
  | .fenceE .. | .spill .. | .fill .. | .park .. | .unpark .. | .mcst .. | .prefl .. | .cbld .. | .cbst ..
  | .cbwr .. | .cbinv .. | .waitv .. | .tflush .. | .tinv .. | .br .. | .brc .. | .call .. | .calli ..
  | .ret .. | .jt .. | .loop .. | .gang .. | .split .. | .gbr .. | .jset .. | .jclr .. | .jwait ..
  | .semwait .. | .sempost .. | .mxlock .. | .mxtry .. | .mxunlk .. | .tenq .. | .twait .. | .tstat ..
  | .tcancel .. | .launch .. | .qlink .. | .qunlink .. | .qdepth .. | .qflush .. | .yield .. | .prchk ..
  | .pgpass .. | .trap .. | .sysc .. | .brk .. | .eret .. | .rply .. | .mfs .. | .mtsFlg .. | .mtsSrng ..
  | .mtsStatus .. | .mtsEpc .. | .mtsEcause .. | .tlbinv .. | .ext .. | .halt .. | .pchk .. => true
  | _ => false

/-- No decode fault, and an encoding of its own. -/
def WellFormed (i : Instr) : Prop := i.isSlot = true ∧ decodeFault i = none

end Sys2Proof
end

