-- ==== Sys2Proof/Decode.lean ====
section
/-! DEFINITION. The decoder (R121 to R124, R134 to R137): total on any word, rejecting by the fault the spec names; the
bundle decoder with the checks across slots (R123, R152); and the encoder, written from the same tables. -/

namespace Sys2Proof

open Sys2Proof.Machine

/-- The three slot classes (R121). -/
inductive SlotClass where
  | a | b | c
  deriving DecidableEq, Repr

/-- A slot's decoded instruction, or its decode fault. -/
inductive Decoded where
  | ok (i : Instr)
  | bad (f : DecFault)
  deriving DecidableEq, Repr

/-- The row applies when the word's fixed bits are the row's; otherwise a reserved bit is set: ILLINS FIELD. -/
def rowCheck (w mask fixed : W32) (i : Instr) : Decoded :=
  if w &&& mask = fixed then .ok i else .bad (.illins 1)

/-- Slot A by opcode (Table 6-8); an unassigned opcode is ILLINS OPCODE (R134). -/
def rawA (w : W32) : Decoded :=
  match (w >>> 25).toNat with
  | 1 => rowCheck w 0xFE000000#32 0x02000000#32 (.ldB (w.extractLsb' 19 6) (w.extractLsb' 13 6) (w.getLsbD 12) (w.extractLsb' 0 12))
  | 2 => rowCheck w 0xFE000000#32 0x04000000#32 (.ldBu (w.extractLsb' 19 6) (w.extractLsb' 13 6) (w.getLsbD 12) (w.extractLsb' 0 12))
  | 3 => rowCheck w 0xFE000000#32 0x06000000#32 (.ldH (w.extractLsb' 19 6) (w.extractLsb' 13 6) (w.getLsbD 12) (w.extractLsb' 0 12))
  | 4 => rowCheck w 0xFE000000#32 0x08000000#32 (.ldHu (w.extractLsb' 19 6) (w.extractLsb' 13 6) (w.getLsbD 12) (w.extractLsb' 0 12))
  | 5 => rowCheck w 0xFE000000#32 0x0A000000#32 (.ldW (w.extractLsb' 19 6) (w.extractLsb' 13 6) (w.getLsbD 12) (w.extractLsb' 0 12))
  | 6 => rowCheck w 0xFE000000#32 0x0C000000#32 (.ldWu (w.extractLsb' 19 6) (w.extractLsb' 13 6) (w.getLsbD 12) (w.extractLsb' 0 12))
  | 7 => rowCheck w 0xFE000000#32 0x0E000000#32 (.ldD (w.extractLsb' 19 6) (w.extractLsb' 13 6) (w.getLsbD 12) (w.extractLsb' 0 12))
  | 8 => rowCheck w 0xFE000000#32 0x10000000#32 (.stB (w.extractLsb' 19 6) (w.extractLsb' 13 6) (w.getLsbD 12) (w.extractLsb' 0 12))
  | 9 => rowCheck w 0xFE000000#32 0x12000000#32 (.stH (w.extractLsb' 19 6) (w.extractLsb' 13 6) (w.getLsbD 12) (w.extractLsb' 0 12))
  | 10 => rowCheck w 0xFE000000#32 0x14000000#32 (.stW (w.extractLsb' 19 6) (w.extractLsb' 13 6) (w.getLsbD 12) (w.extractLsb' 0 12))
  | 11 => rowCheck w 0xFE000000#32 0x16000000#32 (.stD (w.extractLsb' 19 6) (w.extractLsb' 13 6) (w.getLsbD 12) (w.extractLsb' 0 12))
  | 16 => rowCheck w 0xFE000E00#32 0x20000000#32 (.vld (w.extractLsb' 19 6) (w.extractLsb' 13 6) (w.getLsbD 12) (w.getLsbD 8) (w.extractLsb' 5 3) (w.getLsbD 4) (w.extractLsb' 1 3) (w.getLsbD 0))
  | 17 => rowCheck w 0xFE000000#32 0x22000000#32 (.vlds (w.extractLsb' 19 6) (w.extractLsb' 13 6) (w.extractLsb' 7 6) (w.getLsbD 6) (w.extractLsb' 4 2) (w.extractLsb' 1 3) (w.getLsbD 0))
  | 18 => rowCheck w 0xFE000000#32 0x24000000#32 (.vldg (w.extractLsb' 19 6) (w.extractLsb' 13 6) (w.extractLsb' 7 6) (w.getLsbD 6) (w.extractLsb' 4 2) (w.extractLsb' 1 3) (w.getLsbD 0))
  | 19 => rowCheck w 0xFE000E00#32 0x26000000#32 (.vst (w.extractLsb' 19 6) (w.extractLsb' 13 6) (w.getLsbD 12) (w.getLsbD 8) (w.extractLsb' 5 3) (w.getLsbD 4) (w.extractLsb' 1 3) (w.getLsbD 0))
  | 20 => rowCheck w 0xFE000000#32 0x28000000#32 (.vsts (w.extractLsb' 19 6) (w.extractLsb' 13 6) (w.extractLsb' 7 6) (w.getLsbD 6) (w.extractLsb' 4 2) (w.extractLsb' 1 3) (w.getLsbD 0))
  | 21 => rowCheck w 0xFE000000#32 0x2A000000#32 (.vstg (w.extractLsb' 19 6) (w.extractLsb' 13 6) (w.extractLsb' 7 6) (w.getLsbD 6) (w.extractLsb' 4 2) (w.extractLsb' 1 3) (w.getLsbD 0))
  | 22 => rowCheck w 0xFE000000#32 0x2C000000#32 (.vldn (w.extractLsb' 19 6) (w.extractLsb' 13 6) (w.getLsbD 12) (w.extractLsb' 9 3) (w.getLsbD 8) (w.extractLsb' 5 3) (w.getLsbD 4) (w.extractLsb' 1 3) (w.getLsbD 0))
  | 23 => rowCheck w 0xFE000000#32 0x2E000000#32 (.vstn (w.extractLsb' 19 6) (w.extractLsb' 13 6) (w.getLsbD 12) (w.extractLsb' 9 3) (w.getLsbD 8) (w.extractLsb' 5 3) (w.getLsbD 4) (w.extractLsb' 1 3) (w.getLsbD 0))
  | 24 => rowCheck w 0xFE000001#32 0x30000000#32 (.ldt (w.extractLsb' 19 6) (w.extractLsb' 13 6) (w.extractLsb' 7 6) (w.getLsbD 6) (w.getLsbD 5) (w.getLsbD 4) (w.extractLsb' 1 3))
  | 25 => rowCheck w 0xFE000001#32 0x32000000#32 (.stt (w.extractLsb' 19 6) (w.extractLsb' 13 6) (w.extractLsb' 7 6) (w.getLsbD 6) (w.getLsbD 5) (w.getLsbD 4) (w.extractLsb' 1 3))
  | 32 => rowCheck w 0xFE0000FF#32 0x40000000#32 (.sbind (w.extractLsb' 19 6) (w.extractLsb' 13 6) (w.getLsbD 12) (w.extractLsb' 8 4))
  | 33 => rowCheck w 0xFE000010#32 0x42000000#32 (.schain (w.extractLsb' 19 6) (w.extractLsb' 13 6) (w.extractLsb' 7 6) (w.getLsbD 6) (w.getLsbD 5) (w.extractLsb' 0 4))
  | 34 => rowCheck w 0xFFFFF0FF#32 0x44000000#32 (.sunbind (w.extractLsb' 8 4))
  | 35 => rowCheck w 0xFE00007F#32 0x46000000#32 (.spos (w.extractLsb' 19 6) (w.extractLsb' 13 6) (w.getLsbD 12) (w.extractLsb' 8 4) (w.getLsbD 7))
  | 40 => rowCheck w 0xFE000000#32 0x50000000#32 (.amo (w.extractLsb' 19 6) (w.extractLsb' 13 6) (w.extractLsb' 7 6) (w.extractLsb' 3 4) (w.extractLsb' 0 3))
  | 41 => rowCheck w 0xFE000078#32 0x52000000#32 (.cas (w.extractLsb' 19 6) (w.extractLsb' 13 6) (w.extractLsb' 7 6) (w.extractLsb' 0 3))
  | 42 => rowCheck w 0xFE000000#32 0x54000000#32 (.lda (w.extractLsb' 19 6) (w.extractLsb' 13 6) (w.getLsbD 12) (w.extractLsb' 0 12))
  | 43 => rowCheck w 0xFE000000#32 0x56000000#32 (.sta (w.extractLsb' 19 6) (w.extractLsb' 13 6) (w.getLsbD 12) (w.extractLsb' 0 12))
  | 44 => if w &&& 0xFFFFFFFF#32 = 0x5800000E#32 then .ok (.fenceP) else if w &&& 0xFFFFFFFF#32 = 0x58000016#32 then .ok (.fenceH) else if w &&& 0xFFFFFFFF#32 = 0x5800001E#32 then .ok (.fenceE) else rowCheck w 0xFFFFFFF8#32 0x58000000#32 (.fenceO (w.extractLsb' 0 3))
  | 48 => rowCheck w 0xFE030000#32 0x60000000#32 (.spill (w.extractLsb' 19 6) (w.getLsbD 18) (w.extractLsb' 0 16))
  | 49 => rowCheck w 0xFE030000#32 0x62000000#32 (.fill (w.extractLsb' 19 6) (w.getLsbD 18) (w.extractLsb' 0 16))
  | 50 => rowCheck w 0xFE07FE00#32 0x64000000#32 (.park (w.extractLsb' 19 6) (w.extractLsb' 0 9))
  | 51 => rowCheck w 0xFE07FE00#32 0x66000000#32 (.unpark (w.extractLsb' 19 6) (w.extractLsb' 0 9))
  | 52 => rowCheck w 0xFE00001F#32 0x68000000#32 (.mcst (w.extractLsb' 19 6) (w.extractLsb' 13 6) (w.extractLsb' 7 6) (w.getLsbD 6) (w.getLsbD 5))
  | 53 => rowCheck w 0xFFE00000#32 0x6A000000#32 (.prefl (w.extractLsb' 19 2) (w.extractLsb' 13 6) (w.getLsbD 12) (w.extractLsb' 0 12))
  | 56 => rowCheck w 0xFE380000#32 0x70000000#32 (.cbld (w.extractLsb' 22 3) (w.extractLsb' 13 6) (w.getLsbD 12) (w.extractLsb' 0 12))
  | 57 => rowCheck w 0xFE380000#32 0x72000000#32 (.cbst (w.extractLsb' 22 3) (w.extractLsb' 13 6) (w.getLsbD 12) (w.extractLsb' 0 12))
  | 58 => rowCheck w 0xFE38001F#32 0x74000000#32 (.cbwr (w.extractLsb' 22 3) (w.extractLsb' 13 6) (w.extractLsb' 7 6) (w.getLsbD 6) (w.getLsbD 5))
  | 59 => rowCheck w 0xFE3FE04F#32 0x76000000#32 (.cbinv (w.extractLsb' 22 3) (w.extractLsb' 7 6) (w.getLsbD 5) (w.getLsbD 4))
  | 60 => rowCheck w 0xFE000001#32 0x78000000#32 (.waitv (w.extractLsb' 19 6) (w.extractLsb' 13 6) (w.extractLsb' 7 6) (w.getLsbD 6) (w.getLsbD 5) (w.extractLsb' 2 3) (w.getLsbD 1))
  | 61 => rowCheck w 0xFFF8001F#32 0x7A000000#32 (.tflush (w.extractLsb' 13 6) (w.extractLsb' 7 6) (w.getLsbD 6) (w.getLsbD 5))
  | 62 => rowCheck w 0xFFF8001F#32 0x7C000000#32 (.tinv (w.extractLsb' 13 6) (w.extractLsb' 7 6) (w.getLsbD 6) (w.getLsbD 5))
  | _ => .bad (.illins 0)

/-- Slot B by opcode (Table 6-9); an unassigned opcode is ILLINS OPCODE (R134). -/
def rawB (w : W32) : Decoded :=
  match (w >>> 25).toNat with
  | 1 => rowCheck w 0xFE000000#32 0x02000000#32 (.add (w.extractLsb' 19 6) (w.extractLsb' 13 6) (w.extractLsb' 7 6) (w.getLsbD 6) (w.getLsbD 5) (w.getLsbD 4) (w.extractLsb' 1 3) (w.getLsbD 0))
  | 2 => rowCheck w 0xFE000000#32 0x04000000#32 (.sub (w.extractLsb' 19 6) (w.extractLsb' 13 6) (w.extractLsb' 7 6) (w.getLsbD 6) (w.getLsbD 5) (w.getLsbD 4) (w.extractLsb' 1 3) (w.getLsbD 0))
  | 3 => rowCheck w 0xFE000000#32 0x06000000#32 (.mul (w.extractLsb' 19 6) (w.extractLsb' 13 6) (w.extractLsb' 7 6) (w.getLsbD 6) (w.getLsbD 5) (w.getLsbD 4) (w.extractLsb' 1 3) (w.getLsbD 0))
  | 4 => rowCheck w 0xFE000000#32 0x08000000#32 (.mulh (w.extractLsb' 19 6) (w.extractLsb' 13 6) (w.extractLsb' 7 6) (w.getLsbD 6) (w.getLsbD 5) (w.getLsbD 4) (w.extractLsb' 1 3) (w.getLsbD 0))
  | 5 => rowCheck w 0xFE000000#32 0x0A000000#32 (.mulhu (w.extractLsb' 19 6) (w.extractLsb' 13 6) (w.extractLsb' 7 6) (w.getLsbD 6) (w.getLsbD 5) (w.getLsbD 4) (w.extractLsb' 1 3) (w.getLsbD 0))
  | 6 => rowCheck w 0xFE000000#32 0x0C000000#32 (.div (w.extractLsb' 19 6) (w.extractLsb' 13 6) (w.extractLsb' 7 6) (w.getLsbD 6) (w.getLsbD 5) (w.getLsbD 4) (w.extractLsb' 1 3) (w.getLsbD 0))
  | 7 => rowCheck w 0xFE000000#32 0x0E000000#32 (.divu (w.extractLsb' 19 6) (w.extractLsb' 13 6) (w.extractLsb' 7 6) (w.getLsbD 6) (w.getLsbD 5) (w.getLsbD 4) (w.extractLsb' 1 3) (w.getLsbD 0))
  | 8 => rowCheck w 0xFE000000#32 0x10000000#32 (.rem (w.extractLsb' 19 6) (w.extractLsb' 13 6) (w.extractLsb' 7 6) (w.getLsbD 6) (w.getLsbD 5) (w.getLsbD 4) (w.extractLsb' 1 3) (w.getLsbD 0))
  | 9 => rowCheck w 0xFE000000#32 0x12000000#32 (.remu (w.extractLsb' 19 6) (w.extractLsb' 13 6) (w.extractLsb' 7 6) (w.getLsbD 6) (w.getLsbD 5) (w.getLsbD 4) (w.extractLsb' 1 3) (w.getLsbD 0))
  | 10 => rowCheck w 0xFE000000#32 0x14000000#32 (.and (w.extractLsb' 19 6) (w.extractLsb' 13 6) (w.extractLsb' 7 6) (w.getLsbD 6) (w.getLsbD 5) (w.getLsbD 4) (w.extractLsb' 1 3) (w.getLsbD 0))
  | 11 => rowCheck w 0xFE000000#32 0x16000000#32 (.or (w.extractLsb' 19 6) (w.extractLsb' 13 6) (w.extractLsb' 7 6) (w.getLsbD 6) (w.getLsbD 5) (w.getLsbD 4) (w.extractLsb' 1 3) (w.getLsbD 0))
  | 12 => rowCheck w 0xFE000000#32 0x18000000#32 (.xor (w.extractLsb' 19 6) (w.extractLsb' 13 6) (w.extractLsb' 7 6) (w.getLsbD 6) (w.getLsbD 5) (w.getLsbD 4) (w.extractLsb' 1 3) (w.getLsbD 0))
  | 13 => rowCheck w 0xFE000000#32 0x1A000000#32 (.andn (w.extractLsb' 19 6) (w.extractLsb' 13 6) (w.extractLsb' 7 6) (w.getLsbD 6) (w.getLsbD 5) (w.getLsbD 4) (w.extractLsb' 1 3) (w.getLsbD 0))
  | 14 => rowCheck w 0xFE000000#32 0x1C000000#32 (.shl (w.extractLsb' 19 6) (w.extractLsb' 13 6) (w.extractLsb' 7 6) (w.getLsbD 6) (w.getLsbD 5) (w.getLsbD 4) (w.extractLsb' 1 3) (w.getLsbD 0))
  | 15 => rowCheck w 0xFE000000#32 0x1E000000#32 (.shr (w.extractLsb' 19 6) (w.extractLsb' 13 6) (w.extractLsb' 7 6) (w.getLsbD 6) (w.getLsbD 5) (w.getLsbD 4) (w.extractLsb' 1 3) (w.getLsbD 0))
  | 16 => rowCheck w 0xFE000000#32 0x20000000#32 (.sar (w.extractLsb' 19 6) (w.extractLsb' 13 6) (w.extractLsb' 7 6) (w.getLsbD 6) (w.getLsbD 5) (w.getLsbD 4) (w.extractLsb' 1 3) (w.getLsbD 0))
  | 17 => rowCheck w 0xFE000000#32 0x22000000#32 (.rot (w.extractLsb' 19 6) (w.extractLsb' 13 6) (w.extractLsb' 7 6) (w.getLsbD 6) (w.getLsbD 5) (w.getLsbD 4) (w.extractLsb' 1 3) (w.getLsbD 0))
  | 18 => rowCheck w 0xFE000000#32 0x24000000#32 (.min (w.extractLsb' 19 6) (w.extractLsb' 13 6) (w.extractLsb' 7 6) (w.getLsbD 6) (w.getLsbD 5) (w.getLsbD 4) (w.extractLsb' 1 3) (w.getLsbD 0))
  | 19 => rowCheck w 0xFE000000#32 0x26000000#32 (.max (w.extractLsb' 19 6) (w.extractLsb' 13 6) (w.extractLsb' 7 6) (w.getLsbD 6) (w.getLsbD 5) (w.getLsbD 4) (w.extractLsb' 1 3) (w.getLsbD 0))
  | 20 => rowCheck w 0xFE000000#32 0x28000000#32 (.minu (w.extractLsb' 19 6) (w.extractLsb' 13 6) (w.extractLsb' 7 6) (w.getLsbD 6) (w.getLsbD 5) (w.getLsbD 4) (w.extractLsb' 1 3) (w.getLsbD 0))
  | 21 => rowCheck w 0xFE000000#32 0x2A000000#32 (.maxu (w.extractLsb' 19 6) (w.extractLsb' 13 6) (w.extractLsb' 7 6) (w.getLsbD 6) (w.getLsbD 5) (w.getLsbD 4) (w.extractLsb' 1 3) (w.getLsbD 0))
  | 22 => rowCheck w 0xFE001FA0#32 0x2C000000#32 (.clz (w.extractLsb' 19 6) (w.extractLsb' 13 6) (w.getLsbD 6) (w.getLsbD 4) (w.extractLsb' 1 3) (w.getLsbD 0))
  | 23 => rowCheck w 0xFE001FA0#32 0x2E000000#32 (.ctz (w.extractLsb' 19 6) (w.extractLsb' 13 6) (w.getLsbD 6) (w.getLsbD 4) (w.extractLsb' 1 3) (w.getLsbD 0))
  | 24 => rowCheck w 0xFE001FA0#32 0x30000000#32 (.popc (w.extractLsb' 19 6) (w.extractLsb' 13 6) (w.getLsbD 6) (w.getLsbD 4) (w.extractLsb' 1 3) (w.getLsbD 0))
  | 25 => rowCheck w 0xFE000000#32 0x32000000#32 (.bfx (w.extractLsb' 19 6) (w.extractLsb' 13 6) (w.getLsbD 12) (w.extractLsb' 6 6) (w.extractLsb' 0 6))
  | 26 => rowCheck w 0xFE000000#32 0x34000000#32 (.bfxu (w.extractLsb' 19 6) (w.extractLsb' 13 6) (w.getLsbD 12) (w.extractLsb' 6 6) (w.extractLsb' 0 6))
  | 27 => rowCheck w 0xFE000000#32 0x36000000#32 (.bfi (w.extractLsb' 19 6) (w.extractLsb' 13 6) (w.getLsbD 12) (w.extractLsb' 6 6) (w.extractLsb' 0 6))
  | 28 => rowCheck w 0xFE000020#32 0x38000000#32 (.sext (w.extractLsb' 19 6) (w.extractLsb' 13 6) (w.extractLsb' 7 6) (w.getLsbD 6) (w.getLsbD 4) (w.extractLsb' 1 3) (w.getLsbD 0))
  | 29 => rowCheck w 0xFE000020#32 0x3A000000#32 (.zext (w.extractLsb' 19 6) (w.extractLsb' 13 6) (w.extractLsb' 7 6) (w.getLsbD 6) (w.getLsbD 4) (w.extractLsb' 1 3) (w.getLsbD 0))
  | 30 => rowCheck w 0xFE000000#32 0x3C000000#32 (.sel (w.extractLsb' 19 6) (w.extractLsb' 13 6) (w.extractLsb' 7 6) (w.getLsbD 6) (w.getLsbD 5) (w.getLsbD 4) (w.extractLsb' 1 3) (w.getLsbD 0))
  | 31 => rowCheck w 0xFE001FA0#32 0x3E000000#32 (.mov (w.extractLsb' 19 6) (w.extractLsb' 13 6) (w.getLsbD 6) (w.getLsbD 4) (w.extractLsb' 1 3) (w.getLsbD 0))
  | 32 => rowCheck w 0xFE07F000#32 0x40000000#32 (.movi (w.extractLsb' 19 6) (w.extractLsb' 0 12))
  | 33 => rowCheck w 0xFE000000#32 0x42000000#32 (.lea (w.extractLsb' 19 6) (w.extractLsb' 13 6) (w.getLsbD 12) (w.extractLsb' 0 12))
  | 34 => rowCheck w 0xFE000001#32 0x44000000#32 (.cmp (w.extractLsb' 19 6) (w.extractLsb' 13 6) (w.extractLsb' 7 6) (w.getLsbD 6) (w.getLsbD 5) (w.getLsbD 4) (w.extractLsb' 1 3))
  | 40 => rowCheck w 0xFE000000#32 0x50000000#32 (.fadd (w.extractLsb' 19 6) (w.extractLsb' 13 6) (w.extractLsb' 7 6) (w.getLsbD 6) (w.getLsbD 5) (w.getLsbD 4) (w.extractLsb' 1 3) (w.getLsbD 0))
  | 41 => rowCheck w 0xFE000000#32 0x52000000#32 (.fsub (w.extractLsb' 19 6) (w.extractLsb' 13 6) (w.extractLsb' 7 6) (w.getLsbD 6) (w.getLsbD 5) (w.getLsbD 4) (w.extractLsb' 1 3) (w.getLsbD 0))
  | 42 => rowCheck w 0xFE000000#32 0x54000000#32 (.fmul (w.extractLsb' 19 6) (w.extractLsb' 13 6) (w.extractLsb' 7 6) (w.getLsbD 6) (w.getLsbD 5) (w.getLsbD 4) (w.extractLsb' 1 3) (w.getLsbD 0))
  | 43 => rowCheck w 0xFE000000#32 0x56000000#32 (.fma (w.extractLsb' 19 6) (w.extractLsb' 13 6) (w.extractLsb' 7 6) (w.getLsbD 6) (w.getLsbD 5) (w.getLsbD 4) (w.extractLsb' 1 3) (w.getLsbD 0))
  | 44 => rowCheck w 0xFE000000#32 0x58000000#32 (.fdiv (w.extractLsb' 19 6) (w.extractLsb' 13 6) (w.extractLsb' 7 6) (w.getLsbD 6) (w.getLsbD 5) (w.getLsbD 4) (w.extractLsb' 1 3) (w.getLsbD 0))
  | 45 => rowCheck w 0xFE001FA0#32 0x5A000000#32 (.fsqrt (w.extractLsb' 19 6) (w.extractLsb' 13 6) (w.getLsbD 6) (w.getLsbD 4) (w.extractLsb' 1 3) (w.getLsbD 0))
  | 46 => rowCheck w 0xFE000000#32 0x5C000000#32 (.fmin (w.extractLsb' 19 6) (w.extractLsb' 13 6) (w.extractLsb' 7 6) (w.getLsbD 6) (w.getLsbD 5) (w.getLsbD 4) (w.extractLsb' 1 3) (w.getLsbD 0))
  | 47 => rowCheck w 0xFE000000#32 0x5E000000#32 (.fmax (w.extractLsb' 19 6) (w.extractLsb' 13 6) (w.extractLsb' 7 6) (w.getLsbD 6) (w.getLsbD 5) (w.getLsbD 4) (w.extractLsb' 1 3) (w.getLsbD 0))
  | 48 => rowCheck w 0xFE000001#32 0x60000000#32 (.fcmp (w.extractLsb' 19 6) (w.extractLsb' 13 6) (w.extractLsb' 7 6) (w.getLsbD 6) (w.getLsbD 5) (w.getLsbD 4) (w.extractLsb' 1 3))
  | 49 => rowCheck w 0xFE000000#32 0x62000000#32 (.fcvt (w.extractLsb' 19 6) (w.extractLsb' 13 6) (w.getLsbD 12) (w.extractLsb' 8 4) (w.extractLsb' 4 4) (w.extractLsb' 1 3) (w.getLsbD 0))
  | 56 => rowCheck w 0xFE000000#32 0x70000000#32 (.vadd (w.extractLsb' 19 6) (w.extractLsb' 13 6) (w.extractLsb' 7 6) (w.getLsbD 6) (w.getLsbD 5) (w.getLsbD 4) (w.extractLsb' 1 3) (w.getLsbD 0))
  | 57 => rowCheck w 0xFE000000#32 0x72000000#32 (.vsub (w.extractLsb' 19 6) (w.extractLsb' 13 6) (w.extractLsb' 7 6) (w.getLsbD 6) (w.getLsbD 5) (w.getLsbD 4) (w.extractLsb' 1 3) (w.getLsbD 0))
  | 58 => rowCheck w 0xFE000000#32 0x74000000#32 (.vmul (w.extractLsb' 19 6) (w.extractLsb' 13 6) (w.extractLsb' 7 6) (w.getLsbD 6) (w.getLsbD 5) (w.getLsbD 4) (w.extractLsb' 1 3) (w.getLsbD 0))
  | 59 => rowCheck w 0xFE000000#32 0x76000000#32 (.vmulh (w.extractLsb' 19 6) (w.extractLsb' 13 6) (w.extractLsb' 7 6) (w.getLsbD 6) (w.getLsbD 5) (w.getLsbD 4) (w.extractLsb' 1 3) (w.getLsbD 0))
  | 60 => rowCheck w 0xFE000000#32 0x78000000#32 (.vmac (w.extractLsb' 19 6) (w.extractLsb' 13 6) (w.extractLsb' 7 6) (w.getLsbD 6) (w.getLsbD 5) (w.getLsbD 4) (w.extractLsb' 1 3) (w.getLsbD 0))
  | 61 => rowCheck w 0xFE0001A0#32 0x7A000000#32 (.vmac2 (w.extractLsb' 19 6) (w.extractLsb' 13 6) (w.extractLsb' 10 3) (w.getLsbD 9) (w.getLsbD 6) (w.getLsbD 4) (w.extractLsb' 1 3) (w.getLsbD 0))
  | 62 => rowCheck w 0xFE000000#32 0x7C000000#32 (.vdot4 (w.extractLsb' 19 6) (w.extractLsb' 13 6) (w.extractLsb' 7 6) (w.getLsbD 6) (w.getLsbD 5) (w.getLsbD 4) (w.extractLsb' 1 3) (w.getLsbD 0))
  | 63 => rowCheck w 0xFE001FA0#32 0x7E000000#32 (.vabs (w.extractLsb' 19 6) (w.extractLsb' 13 6) (w.getLsbD 6) (w.getLsbD 4) (w.extractLsb' 1 3) (w.getLsbD 0))
  | 64 => rowCheck w 0xFE001FA0#32 0x80000000#32 (.vneg (w.extractLsb' 19 6) (w.extractLsb' 13 6) (w.getLsbD 6) (w.getLsbD 4) (w.extractLsb' 1 3) (w.getLsbD 0))
  | 65 => rowCheck w 0xFE000000#32 0x82000000#32 (.vmin (w.extractLsb' 19 6) (w.extractLsb' 13 6) (w.extractLsb' 7 6) (w.getLsbD 6) (w.getLsbD 5) (w.getLsbD 4) (w.extractLsb' 1 3) (w.getLsbD 0))
  | 66 => rowCheck w 0xFE000000#32 0x84000000#32 (.vmax (w.extractLsb' 19 6) (w.extractLsb' 13 6) (w.extractLsb' 7 6) (w.getLsbD 6) (w.getLsbD 5) (w.getLsbD 4) (w.extractLsb' 1 3) (w.getLsbD 0))
  | 67 => rowCheck w 0xFE000000#32 0x86000000#32 (.vand (w.extractLsb' 19 6) (w.extractLsb' 13 6) (w.extractLsb' 7 6) (w.getLsbD 6) (w.getLsbD 5) (w.getLsbD 4) (w.extractLsb' 1 3) (w.getLsbD 0))
  | 68 => rowCheck w 0xFE000000#32 0x88000000#32 (.vor (w.extractLsb' 19 6) (w.extractLsb' 13 6) (w.extractLsb' 7 6) (w.getLsbD 6) (w.getLsbD 5) (w.getLsbD 4) (w.extractLsb' 1 3) (w.getLsbD 0))
  | 69 => rowCheck w 0xFE000000#32 0x8A000000#32 (.vxor (w.extractLsb' 19 6) (w.extractLsb' 13 6) (w.extractLsb' 7 6) (w.getLsbD 6) (w.getLsbD 5) (w.getLsbD 4) (w.extractLsb' 1 3) (w.getLsbD 0))
  | 70 => rowCheck w 0xFE000000#32 0x8C000000#32 (.vshl (w.extractLsb' 19 6) (w.extractLsb' 13 6) (w.extractLsb' 7 6) (w.getLsbD 6) (w.getLsbD 5) (w.getLsbD 4) (w.extractLsb' 1 3) (w.getLsbD 0))
  | 71 => rowCheck w 0xFE000000#32 0x8E000000#32 (.vshr (w.extractLsb' 19 6) (w.extractLsb' 13 6) (w.extractLsb' 7 6) (w.getLsbD 6) (w.getLsbD 5) (w.getLsbD 4) (w.extractLsb' 1 3) (w.getLsbD 0))
  | 72 => rowCheck w 0xFE000000#32 0x90000000#32 (.vsar (w.extractLsb' 19 6) (w.extractLsb' 13 6) (w.extractLsb' 7 6) (w.getLsbD 6) (w.getLsbD 5) (w.getLsbD 4) (w.extractLsb' 1 3) (w.getLsbD 0))
  | 73 => rowCheck w 0xFE000020#32 0x92000000#32 (.vshrr (w.extractLsb' 19 6) (w.extractLsb' 13 6) (w.getLsbD 12) (w.extractLsb' 7 5) (w.getLsbD 6) (w.getLsbD 4) (w.extractLsb' 1 3) (w.getLsbD 0))
  | 74 => rowCheck w 0xFE000020#32 0x94000000#32 (.vsat (w.extractLsb' 19 6) (w.extractLsb' 13 6) (w.getLsbD 12) (w.extractLsb' 7 5) (w.getLsbD 6) (w.getLsbD 4) (w.extractLsb' 1 3) (w.getLsbD 0))
  | 75 => rowCheck w 0xFE0000A0#32 0x96000000#32 (.vpack (w.extractLsb' 19 6) (w.extractLsb' 13 6) (w.getLsbD 12) (w.getLsbD 11) (w.getLsbD 10) (w.extractLsb' 8 2) (w.getLsbD 6) (w.getLsbD 4) (w.extractLsb' 1 3) (w.getLsbD 0))
  | 76 => rowCheck w 0xFE0001A0#32 0x98000000#32 (.vunpk (w.extractLsb' 19 6) (w.extractLsb' 13 6) (w.getLsbD 12) (w.getLsbD 11) (w.extractLsb' 9 2) (w.getLsbD 6) (w.getLsbD 4) (w.extractLsb' 1 3) (w.getLsbD 0))
  | 77 => rowCheck w 0xFE000000#32 0x9A000000#32 (.vcmp (w.extractLsb' 22 3) (w.extractLsb' 19 3) (w.extractLsb' 13 6) (w.extractLsb' 7 6) (w.getLsbD 6) (w.getLsbD 5) (w.getLsbD 4) (w.extractLsb' 1 3) (w.getLsbD 0))
  | 78 => rowCheck w 0xFE000000#32 0x9C000000#32 (.vsel (w.extractLsb' 19 6) (w.extractLsb' 13 6) (w.extractLsb' 7 6) (w.getLsbD 6) (w.getLsbD 5) (w.getLsbD 4) (w.extractLsb' 1 3) (w.getLsbD 0))
  | 79 => rowCheck w 0xFE000001#32 0x9E000000#32 (.vslide (w.extractLsb' 19 6) (w.extractLsb' 13 6) (w.extractLsb' 7 6) (w.getLsbD 6) (w.getLsbD 5) (w.getLsbD 4) (w.getLsbD 3) (w.extractLsb' 1 2))
  | 80 => rowCheck w 0xFE001FA0#32 0xA0000000#32 (.vbcast (w.extractLsb' 19 6) (w.extractLsb' 13 6) (w.getLsbD 6) (w.getLsbD 4) (w.extractLsb' 1 3) (w.getLsbD 0))
  | 81 => rowCheck w 0xFE0007C0#32 0xA2000000#32 (.vext (w.extractLsb' 19 6) (w.extractLsb' 13 6) (w.getLsbD 12) (w.getLsbD 11) (w.extractLsb' 0 6))
  | 82 => rowCheck w 0xFE000FC0#32 0xA4000000#32 (.vins (w.extractLsb' 19 6) (w.extractLsb' 13 6) (w.getLsbD 12) (w.extractLsb' 0 6))
  | 83 => rowCheck w 0xFE000000#32 0xA6000000#32 (.vperm (w.extractLsb' 19 6) (w.extractLsb' 13 6) (w.extractLsb' 7 6) (w.getLsbD 6) (w.getLsbD 5) (w.getLsbD 4) (w.extractLsb' 1 3) (w.getLsbD 0))
  | 84 => rowCheck w 0xFE000000#32 0xA8000000#32 (.vcompr (w.extractLsb' 19 6) (w.extractLsb' 13 6) (w.extractLsb' 7 6) (w.getLsbD 6) (w.getLsbD 5) (w.getLsbD 4) (w.extractLsb' 1 3) (w.getLsbD 0))
  | 85 => rowCheck w 0xFE000000#32 0xAA000000#32 (.vexpd (w.extractLsb' 19 6) (w.extractLsb' 13 6) (w.extractLsb' 7 6) (w.getLsbD 6) (w.getLsbD 5) (w.getLsbD 4) (w.extractLsb' 1 3) (w.getLsbD 0))
  | 86 => rowCheck w 0xFE0000A0#32 0xAC000000#32 (.vred (w.extractLsb' 19 6) (w.extractLsb' 13 6) (w.extractLsb' 10 3) (w.getLsbD 9) (w.getLsbD 8) (w.getLsbD 6) (w.getLsbD 4) (w.extractLsb' 1 3) (w.getLsbD 0))
  | 87 => rowCheck w 0xFE0001A0#32 0xAE000000#32 (.vscan (w.extractLsb' 19 6) (w.extractLsb' 13 6) (w.extractLsb' 10 3) (w.getLsbD 9) (w.getLsbD 6) (w.getLsbD 4) (w.extractLsb' 1 3) (w.getLsbD 0))
  | 88 => rowCheck w 0xFE001FA0#32 0xB0000000#32 (.vpopc (w.extractLsb' 19 6) (w.extractLsb' 13 6) (w.getLsbD 6) (w.getLsbD 4) (w.extractLsb' 1 3) (w.getLsbD 0))
  | 96 => rowCheck w 0xFE000000#32 0xC0000000#32 (.vfadd (w.extractLsb' 19 6) (w.extractLsb' 13 6) (w.extractLsb' 7 6) (w.getLsbD 6) (w.getLsbD 5) (w.getLsbD 4) (w.extractLsb' 1 3) (w.getLsbD 0))
  | 97 => rowCheck w 0xFE000000#32 0xC2000000#32 (.vfsub (w.extractLsb' 19 6) (w.extractLsb' 13 6) (w.extractLsb' 7 6) (w.getLsbD 6) (w.getLsbD 5) (w.getLsbD 4) (w.extractLsb' 1 3) (w.getLsbD 0))
  | 98 => rowCheck w 0xFE000000#32 0xC4000000#32 (.vfmul (w.extractLsb' 19 6) (w.extractLsb' 13 6) (w.extractLsb' 7 6) (w.getLsbD 6) (w.getLsbD 5) (w.getLsbD 4) (w.extractLsb' 1 3) (w.getLsbD 0))
  | 99 => rowCheck w 0xFE000000#32 0xC6000000#32 (.vfma (w.extractLsb' 19 6) (w.extractLsb' 13 6) (w.extractLsb' 7 6) (w.getLsbD 6) (w.getLsbD 5) (w.getLsbD 4) (w.extractLsb' 1 3) (w.getLsbD 0))
  | 100 => rowCheck w 0xFE000000#32 0xC8000000#32 (.vfnma (w.extractLsb' 19 6) (w.extractLsb' 13 6) (w.extractLsb' 7 6) (w.getLsbD 6) (w.getLsbD 5) (w.getLsbD 4) (w.extractLsb' 1 3) (w.getLsbD 0))
  | 101 => rowCheck w 0xFE000000#32 0xCA000000#32 (.vfmin (w.extractLsb' 19 6) (w.extractLsb' 13 6) (w.extractLsb' 7 6) (w.getLsbD 6) (w.getLsbD 5) (w.getLsbD 4) (w.extractLsb' 1 3) (w.getLsbD 0))
  | 102 => rowCheck w 0xFE000000#32 0xCC000000#32 (.vfmax (w.extractLsb' 19 6) (w.extractLsb' 13 6) (w.extractLsb' 7 6) (w.getLsbD 6) (w.getLsbD 5) (w.getLsbD 4) (w.extractLsb' 1 3) (w.getLsbD 0))
  | 103 => rowCheck w 0xFE001FA0#32 0xCE000000#32 (.vfabs (w.extractLsb' 19 6) (w.extractLsb' 13 6) (w.getLsbD 6) (w.getLsbD 4) (w.extractLsb' 1 3) (w.getLsbD 0))
  | 104 => rowCheck w 0xFE001FA0#32 0xD0000000#32 (.vfneg (w.extractLsb' 19 6) (w.extractLsb' 13 6) (w.getLsbD 6) (w.getLsbD 4) (w.extractLsb' 1 3) (w.getLsbD 0))
  | 105 => rowCheck w 0xFE000000#32 0xD2000000#32 (.vfdiv (w.extractLsb' 19 6) (w.extractLsb' 13 6) (w.extractLsb' 7 6) (w.getLsbD 6) (w.getLsbD 5) (w.getLsbD 4) (w.extractLsb' 1 3) (w.getLsbD 0))
  | 106 => rowCheck w 0xFE001FA0#32 0xD4000000#32 (.vfsqrt (w.extractLsb' 19 6) (w.extractLsb' 13 6) (w.getLsbD 6) (w.getLsbD 4) (w.extractLsb' 1 3) (w.getLsbD 0))
  | 107 => rowCheck w 0xFE001FA0#32 0xD6000000#32 (.vfrcp (w.extractLsb' 19 6) (w.extractLsb' 13 6) (w.getLsbD 6) (w.getLsbD 4) (w.extractLsb' 1 3) (w.getLsbD 0))
  | 108 => rowCheck w 0xFE001FA0#32 0xD8000000#32 (.vfrsq (w.extractLsb' 19 6) (w.extractLsb' 13 6) (w.getLsbD 6) (w.getLsbD 4) (w.extractLsb' 1 3) (w.getLsbD 0))
  | 109 => rowCheck w 0xFE001FA0#32 0xDA000000#32 (.vfexp2 (w.extractLsb' 19 6) (w.extractLsb' 13 6) (w.getLsbD 6) (w.getLsbD 4) (w.extractLsb' 1 3) (w.getLsbD 0))
  | 110 => rowCheck w 0xFE001FA0#32 0xDC000000#32 (.vflog2 (w.extractLsb' 19 6) (w.extractLsb' 13 6) (w.getLsbD 6) (w.getLsbD 4) (w.extractLsb' 1 3) (w.getLsbD 0))
  | 111 => rowCheck w 0xFE000000#32 0xDE000000#32 (.vfcmp (w.extractLsb' 22 3) (w.extractLsb' 19 3) (w.extractLsb' 13 6) (w.extractLsb' 7 6) (w.getLsbD 6) (w.getLsbD 5) (w.getLsbD 4) (w.extractLsb' 1 3) (w.getLsbD 0))
  | 112 => rowCheck w 0xFE001FA0#32 0xE0000000#32 (.vfclass (w.extractLsb' 19 6) (w.extractLsb' 13 6) (w.getLsbD 6) (w.getLsbD 4) (w.extractLsb' 1 3) (w.getLsbD 0))
  | 113 => rowCheck w 0xFE000020#32 0xE2000000#32 (.vfred (w.extractLsb' 19 6) (w.extractLsb' 13 6) (w.extractLsb' 11 2) (w.extractLsb' 8 3) (w.getLsbD 7) (w.getLsbD 6) (w.getLsbD 4) (w.extractLsb' 1 3) (w.getLsbD 0))
  | 114 => rowCheck w 0xFE000000#32 0xE4000000#32 (.vfdot2 (w.extractLsb' 19 6) (w.extractLsb' 13 6) (w.extractLsb' 7 6) (w.getLsbD 6) (w.getLsbD 5) (w.getLsbD 4) (w.extractLsb' 1 3) (w.getLsbD 0))
  | 115 => rowCheck w 0xFE000000#32 0xE6000000#32 (.vcvt (w.extractLsb' 19 6) (w.extractLsb' 13 6) (w.getLsbD 12) (w.extractLsb' 8 4) (w.extractLsb' 4 4) (w.extractLsb' 1 3) (w.getLsbD 0))
  | 116 => rowCheck w 0xFE0000A0#32 0xE8000000#32 (.vcvti (w.extractLsb' 19 6) (w.extractLsb' 13 6) (w.extractLsb' 10 3) (w.getLsbD 9) (w.getLsbD 8) (w.getLsbD 6) (w.getLsbD 4) (w.extractLsb' 1 3) (w.getLsbD 0))
  | 117 => rowCheck w 0xFE0001A0#32 0xEA000000#32 (.vcvtf (w.extractLsb' 19 6) (w.extractLsb' 13 6) (w.extractLsb' 10 3) (w.getLsbD 9) (w.getLsbD 6) (w.getLsbD 4) (w.extractLsb' 1 3) (w.getLsbD 0))
  | 118 => rowCheck w 0xFE000000#32 0xEC000000#32 (.vscale (w.extractLsb' 19 6) (w.extractLsb' 13 6) (w.extractLsb' 7 6) (w.getLsbD 6) (w.getLsbD 5) (w.getLsbD 4) (w.extractLsb' 1 3) (w.getLsbD 0))
  | 119 => rowCheck w 0xFE000020#32 0xEE000000#32 (.vcbx (w.extractLsb' 19 6) (w.extractLsb' 13 6) (w.extractLsb' 10 3) (w.extractLsb' 7 3) (w.getLsbD 6) (w.getLsbD 4) (w.extractLsb' 1 3) (w.getLsbD 0))
  | 120 => rowCheck w 0xFE000183#32 0xF0000000#32 (.vqnt (w.extractLsb' 19 6) (w.extractLsb' 13 6) (w.extractLsb' 10 3) (w.getLsbD 9) (w.getLsbD 6) (w.getLsbD 5) (w.extractLsb' 2 3))
  | 121 => if w &&& 0xFE00000F#32 = 0xF2000008#32 then .ok (.vq4nS (w.extractLsb' 19 6) (w.extractLsb' 13 6) (w.extractLsb' 7 6) (w.getLsbD 6) (w.getLsbD 5) (w.getLsbD 4)) else rowCheck w 0xFE000008#32 0xF2000000#32 (.vq4n (w.extractLsb' 19 6) (w.extractLsb' 13 6) (w.extractLsb' 7 6) (w.getLsbD 6) (w.getLsbD 5) (w.getLsbD 4) (w.extractLsb' 0 3))
  | 122 => rowCheck w 0xFE000000#32 0xF4000000#32 (.vmxq (w.extractLsb' 19 6) (w.extractLsb' 13 6) (w.extractLsb' 7 6) (w.getLsbD 6) (w.getLsbD 5) (w.extractLsb' 3 2) (w.extractLsb' 0 3))
  | 123 => rowCheck w 0xFE07FFFF#32 0xF6000000#32 (.vflgr (w.extractLsb' 19 6))
  | 124 => rowCheck w 0xFFFFF800#32 0xF8000000#32 (.vflgc (w.extractLsb' 4 7) (w.extractLsb' 1 3) (w.getLsbD 0))
  | _ => .bad (.illins 0)

/-- Slot C by opcode (Table 6-10); an unassigned opcode is ILLINS OPCODE (R134). -/
def rawC (w : W32) : Decoded :=
  match (w >>> 25).toNat with
  | 1 => rowCheck w 0xFE000000#32 0x02000000#32 (.br (w.extractLsb' 22 3) (w.getLsbD 21) (w.extractLsb' 3 18) (w.extractLsb' 0 3))
  | 2 => rowCheck w 0xFE000000#32 0x04000000#32 (.brc (w.extractLsb' 19 6) (w.getLsbD 18) (w.extractLsb' 15 3) (w.extractLsb' 3 12) (w.extractLsb' 0 3))
  | 3 => rowCheck w 0xFE000000#32 0x06000000#32 (.call (w.extractLsb' 22 3) (w.getLsbD 21) (w.extractLsb' 3 18) (w.extractLsb' 0 3))
  | 4 => rowCheck w 0xFFF80FF0#32 0x08000000#32 (.calli (w.extractLsb' 13 6) (w.getLsbD 12) (w.extractLsb' 1 3) (w.getLsbD 0))
  | 5 => rowCheck w 0xFFF80FF0#32 0x0A000000#32 (.ret (w.extractLsb' 13 6) (w.getLsbD 12) (w.extractLsb' 1 3) (w.getLsbD 0))
  | 6 => rowCheck w 0xFE000010#32 0x0C000000#32 (.jt (w.extractLsb' 19 6) (w.extractLsb' 13 6) (w.extractLsb' 7 6) (w.getLsbD 6) (w.getLsbD 5) (w.extractLsb' 1 3) (w.getLsbD 0))
  | 7 => rowCheck w 0xFE000000#32 0x0E000000#32 (.loop (w.extractLsb' 19 6) (w.extractLsb' 3 16) (w.extractLsb' 0 3))
  | 8 => rowCheck w 0xFFFFFFFF#32 0x10000000#32 (.gang)
  | 9 => rowCheck w 0xFFFFFFFF#32 0x12000000#32 (.split)
  | 10 => rowCheck w 0xFE000000#32 0x14000000#32 (.gbr (w.extractLsb' 22 3) (w.getLsbD 21) (w.extractLsb' 3 18) (w.extractLsb' 0 3))
  | 11 => rowCheck w 0xFFFF0000#32 0x16000000#32 (.jset (w.extractLsb' 0 16))
  | 12 => rowCheck w 0xFFFF0000#32 0x18000000#32 (.jclr (w.extractLsb' 0 16))
  | 13 => rowCheck w 0xFFFE0000#32 0x1A000000#32 (.jwait (w.getLsbD 16) (w.extractLsb' 0 16))
  | 16 => rowCheck w 0xFE070000#32 0x20000000#32 (.semwait (w.extractLsb' 19 6) (w.extractLsb' 12 4) (w.extractLsb' 0 12))
  | 17 => rowCheck w 0xFE070000#32 0x22000000#32 (.sempost (w.extractLsb' 19 6) (w.extractLsb' 12 4) (w.extractLsb' 0 12))
  | 18 => rowCheck w 0xFE07FFF0#32 0x24000000#32 (.mxlock (w.extractLsb' 19 6) (w.extractLsb' 0 4))
  | 19 => rowCheck w 0xFE07FFF0#32 0x26000000#32 (.mxtry (w.extractLsb' 19 6) (w.extractLsb' 0 4))
  | 20 => rowCheck w 0xFE07FFF0#32 0x28000000#32 (.mxunlk (w.extractLsb' 19 6) (w.extractLsb' 0 4))
  | 24 => rowCheck w 0xFE00001F#32 0x30000000#32 (.tenq (w.extractLsb' 19 6) (w.extractLsb' 13 6) (w.extractLsb' 7 6) (w.getLsbD 6) (w.getLsbD 5))
  | 25 => rowCheck w 0xFE0001FF#32 0x32000000#32 (.twait (w.extractLsb' 19 6) (w.extractLsb' 13 6) (w.getLsbD 12) (w.extractLsb' 9 3))
  | 26 => rowCheck w 0xFE07F03F#32 0x34000000#32 (.tstat (w.extractLsb' 19 6) (w.extractLsb' 9 3) (w.extractLsb' 7 2) (w.getLsbD 6))
  | 27 => rowCheck w 0xFE00001F#32 0x36000000#32 (.tcancel (w.extractLsb' 19 6) (w.extractLsb' 13 6) (w.extractLsb' 7 6) (w.getLsbD 6) (w.getLsbD 5))
  | 28 => rowCheck w 0xFE00001F#32 0x38000000#32 (.launch (w.extractLsb' 19 6) (w.extractLsb' 13 6) (w.extractLsb' 7 6) (w.getLsbD 6) (w.getLsbD 5))
  | 32 => rowCheck w 0xFE00007F#32 0x40000040#32 (.qlink (w.extractLsb' 19 6) (w.extractLsb' 13 6) (w.getLsbD 12) (w.extractLsb' 7 5))
  | 33 => rowCheck w 0xFFFFF07F#32 0x42000040#32 (.qunlink (w.extractLsb' 7 5))
  | 34 => rowCheck w 0xFE07F07F#32 0x44000040#32 (.qdepth (w.extractLsb' 19 6) (w.extractLsb' 7 5))
  | 35 => rowCheck w 0xFFFFF03F#32 0x46000000#32 (.qflush (w.extractLsb' 7 5) (w.getLsbD 6))
  | 36 => rowCheck w 0xFFFFFFFF#32 0x48000000#32 (.yield)
  | 37 => rowCheck w 0xFE07FFFF#32 0x4A000000#32 (.prchk (w.extractLsb' 19 6))
  | 38 => rowCheck w 0xFE000001#32 0x4C000000#32 (.pgpass (w.extractLsb' 19 6) (w.extractLsb' 13 6) (w.extractLsb' 7 6) (w.getLsbD 6) (w.getLsbD 5) (w.getLsbD 4) (w.extractLsb' 2 2) (w.getLsbD 1))
  | 40 => rowCheck w 0xFFF80000#32 0x50000000#32 (.trap (w.extractLsb' 13 6) (w.getLsbD 12) (w.extractLsb' 0 12))
  | 41 => rowCheck w 0xFFFFF000#32 0x52000000#32 (.sysc (w.extractLsb' 0 12))
  | 42 => rowCheck w 0xFFFFF000#32 0x54000000#32 (.brk (w.extractLsb' 0 12))
  | 43 => rowCheck w 0xFFFFFFFF#32 0x56000000#32 (.eret)
  | 44 => rowCheck w 0xFFFFFFFF#32 0x58000000#32 (.rply)
  | 45 => rowCheck w 0xFE07FF00#32 0x5A000000#32 (.mfs (w.extractLsb' 19 6) (w.extractLsb' 0 8))
  | 46 => if w &&& 0xFFF80FFF#32 = 0x5C000001#32 then .ok (.mtsFlg (w.extractLsb' 13 6) (w.getLsbD 12)) else if w &&& 0xFFF80FFF#32 = 0x5C000002#32 then .ok (.mtsSrng (w.extractLsb' 13 6) (w.getLsbD 12)) else if w &&& 0xFFF80FFF#32 = 0x5C000000#32 then .ok (.mtsStatus (w.extractLsb' 13 6) (w.getLsbD 12)) else if w &&& 0xFFF80FFF#32 = 0x5C000020#32 then .ok (.mtsEpc (w.extractLsb' 13 6) (w.getLsbD 12)) else if w &&& 0xFFF80FFF#32 = 0x5C000021#32 then .ok (.mtsEcause (w.extractLsb' 13 6) (w.getLsbD 12)) else rowCheck w 0xFFF80F00#32 0x5C000000#32 (.mts (w.extractLsb' 13 6) (w.getLsbD 12) (w.extractLsb' 0 8))
  | 47 => rowCheck w 0xFFF8000F#32 0x5E000000#32 (.tlbinv (w.extractLsb' 13 6) (w.extractLsb' 7 6) (w.getLsbD 6) (w.getLsbD 5) (w.getLsbD 4))
  | 48 => rowCheck w 0xFE000007#32 0x60000000#32 (.ext (w.extractLsb' 23 2) (w.extractLsb' 3 20))
  | 49 => rowCheck w 0xFFFFFFFF#32 0x62000000#32 (.halt)
  | 50 => rowCheck w 0xFFF807FF#32 0x64000000#32 (.pchk (w.extractLsb' 13 6) (w.getLsbD 12) (w.getLsbD 11))
  | _ => .bad (.illins 0)

/-- A slot by its class, before the checks on its fields; the all-zero slot is NOP (R134). -/
def rawSlot (c : SlotClass) (w : W32) : Decoded :=
  if w = 0 then .ok .nop
  else match c with
    | .a => rawA w
    | .b => rawB w
    | .c => rawC w

/-- Decode one slot: the instruction, or the fault of lowest code (R134). -/
def decodeSlot (c : SlotClass) (w : W32) : Decoded :=
  match rawSlot c w with
  | .bad f => .bad f
  | .ok i =>
    match decodeFault i with
    | none => .ok i
    | some f => .bad f

/-- Opcodes whose layout places an IMM12 at [11:0], the targets an `EXT` may have (R123, R250). -/
def immOpcode (c : SlotClass) (w : W32) : Bool :=
  let op := (w >>> 25).toNat
  match c with
  | .a => [0x1, 0x2, 0x3, 0x4, 0x5, 0x6, 0x7, 0x8, 0x9, 0xa, 0xb, 0x2a, 0x2b, 0x35, 0x38, 0x39].contains op
  | .b => [0x20, 0x21].contains op
  | .c => false

/-- A decoded bundle: its three slots, and the immediates that an `EXT` gives slots A and B. -/
structure DecodedBundle where
  a : Decoded
  b : Decoded
  c : Decoded
  extA : Option (BitVec 20)
  extB : Option (BitVec 20)
  deriving DecidableEq, Repr

/-- Whether slot C holds an `EXT`. -/
def isExt (wc : W32) : Bool := (wc >>> 25).toNat == 0x30

/-- Whether an `EXT` is faulty: reserved TGT or low bits, or a target without an IMM12 (R123). -/
def extBad (wa wb wc : W32) : Bool :=
  wc.extractLsb' 0 3 != 0 ||
    (match (wc.extractLsb' 23 2).toNat with
     | 0 => !immOpcode .a wa
     | 1 => !immOpcode .b wb
     | _ => true)

/-- Decode a bundle, with the `EXT` rule (R123) and the `LOOP` destination rule (R152). -/
def decodeBundle (wa wb wc : W32) : DecodedBundle :=
  let a := decodeSlot .a wa
  let b := decodeSlot .b wb
  if isExt wc then
    let imm20 := wc.extractLsb' 3 20
    let tgt := wc.extractLsb' 23 2
    let a' := if extBad wa wb wc then
        (match a with
         | .bad (.illins n) => .bad (.illins n)
         | _ => .bad (.illins 3))
      else a
    { a := a', b := b, c := .ok (.ext tgt imm20),
      extA := if tgt == 0 then some imm20 else none, extB := if tgt == 1 then some imm20 else none }
  else
    let c := decodeSlot .c wc
    let d := wc.extractLsb' 19 6
    let writesD (x : Decoded) : Bool := match x with
      | .ok i => (opForm i).dests.any (fun y => y.1 == .s && y.2 == d)
      | .bad _ => false
    let clash := wc.extractLsb' 25 7 == 7#7 && (writesD a || writesD b)
    let c' := match c with
      | .ok i => if clash then .bad (.illins 1) else .ok i
      -- of several causes the one of the lowest code: FIELD before OPERAND (R134)
      | .bad (.illins 2) => .bad (.illins (if clash then 1 else 2))
      | y => y
    { a := a, b := b, c := c', extA := none, extB := none }

/-- The class and word of a slot instruction, field by field from its layout; none for the steps of other agents.
`NOP` is the all-zero word of any class; slot B is named. -/
def encode (i : Instr) : Option (SlotClass × W32) :=
  match i with
  | .nop => some (.b, 0#32)
  | .add d a b p q n k x => some (.b, (0x1#7 ++ d ++ a ++ b ++ BitVec.ofBool p ++ BitVec.ofBool q ++ BitVec.ofBool n ++ k ++ BitVec.ofBool x : W32))
  | .sub d a b p q n k x => some (.b, (0x2#7 ++ d ++ a ++ b ++ BitVec.ofBool p ++ BitVec.ofBool q ++ BitVec.ofBool n ++ k ++ BitVec.ofBool x : W32))
  | .mul d a b p q n k x => some (.b, (0x3#7 ++ d ++ a ++ b ++ BitVec.ofBool p ++ BitVec.ofBool q ++ BitVec.ofBool n ++ k ++ BitVec.ofBool x : W32))
  | .mulh d a b p q n k x => some (.b, (0x4#7 ++ d ++ a ++ b ++ BitVec.ofBool p ++ BitVec.ofBool q ++ BitVec.ofBool n ++ k ++ BitVec.ofBool x : W32))
  | .mulhu d a b p q n k x => some (.b, (0x5#7 ++ d ++ a ++ b ++ BitVec.ofBool p ++ BitVec.ofBool q ++ BitVec.ofBool n ++ k ++ BitVec.ofBool x : W32))
  | .div d a b p q n k x => some (.b, (0x6#7 ++ d ++ a ++ b ++ BitVec.ofBool p ++ BitVec.ofBool q ++ BitVec.ofBool n ++ k ++ BitVec.ofBool x : W32))
  | .divu d a b p q n k x => some (.b, (0x7#7 ++ d ++ a ++ b ++ BitVec.ofBool p ++ BitVec.ofBool q ++ BitVec.ofBool n ++ k ++ BitVec.ofBool x : W32))
  | .rem d a b p q n k x => some (.b, (0x8#7 ++ d ++ a ++ b ++ BitVec.ofBool p ++ BitVec.ofBool q ++ BitVec.ofBool n ++ k ++ BitVec.ofBool x : W32))
  | .remu d a b p q n k x => some (.b, (0x9#7 ++ d ++ a ++ b ++ BitVec.ofBool p ++ BitVec.ofBool q ++ BitVec.ofBool n ++ k ++ BitVec.ofBool x : W32))
  | .and d a b p q n k x => some (.b, (0xa#7 ++ d ++ a ++ b ++ BitVec.ofBool p ++ BitVec.ofBool q ++ BitVec.ofBool n ++ k ++ BitVec.ofBool x : W32))
  | .or d a b p q n k x => some (.b, (0xb#7 ++ d ++ a ++ b ++ BitVec.ofBool p ++ BitVec.ofBool q ++ BitVec.ofBool n ++ k ++ BitVec.ofBool x : W32))
  | .xor d a b p q n k x => some (.b, (0xc#7 ++ d ++ a ++ b ++ BitVec.ofBool p ++ BitVec.ofBool q ++ BitVec.ofBool n ++ k ++ BitVec.ofBool x : W32))
  | .andn d a b p q n k x => some (.b, (0xd#7 ++ d ++ a ++ b ++ BitVec.ofBool p ++ BitVec.ofBool q ++ BitVec.ofBool n ++ k ++ BitVec.ofBool x : W32))
  | .shl d a b p q n k x => some (.b, (0xe#7 ++ d ++ a ++ b ++ BitVec.ofBool p ++ BitVec.ofBool q ++ BitVec.ofBool n ++ k ++ BitVec.ofBool x : W32))
  | .shr d a b p q n k x => some (.b, (0xf#7 ++ d ++ a ++ b ++ BitVec.ofBool p ++ BitVec.ofBool q ++ BitVec.ofBool n ++ k ++ BitVec.ofBool x : W32))
  | .sar d a b p q n k x => some (.b, (0x10#7 ++ d ++ a ++ b ++ BitVec.ofBool p ++ BitVec.ofBool q ++ BitVec.ofBool n ++ k ++ BitVec.ofBool x : W32))
  | .rot d a b p q n k x => some (.b, (0x11#7 ++ d ++ a ++ b ++ BitVec.ofBool p ++ BitVec.ofBool q ++ BitVec.ofBool n ++ k ++ BitVec.ofBool x : W32))
  | .min d a b p q n k x => some (.b, (0x12#7 ++ d ++ a ++ b ++ BitVec.ofBool p ++ BitVec.ofBool q ++ BitVec.ofBool n ++ k ++ BitVec.ofBool x : W32))
  | .max d a b p q n k x => some (.b, (0x13#7 ++ d ++ a ++ b ++ BitVec.ofBool p ++ BitVec.ofBool q ++ BitVec.ofBool n ++ k ++ BitVec.ofBool x : W32))
  | .minu d a b p q n k x => some (.b, (0x14#7 ++ d ++ a ++ b ++ BitVec.ofBool p ++ BitVec.ofBool q ++ BitVec.ofBool n ++ k ++ BitVec.ofBool x : W32))
  | .maxu d a b p q n k x => some (.b, (0x15#7 ++ d ++ a ++ b ++ BitVec.ofBool p ++ BitVec.ofBool q ++ BitVec.ofBool n ++ k ++ BitVec.ofBool x : W32))
  | .clz d a p n k x => some (.b, (0x16#7 ++ d ++ a ++ 0x0#6 ++ BitVec.ofBool p ++ 0x0#1 ++ BitVec.ofBool n ++ k ++ BitVec.ofBool x : W32))
  | .ctz d a p n k x => some (.b, (0x17#7 ++ d ++ a ++ 0x0#6 ++ BitVec.ofBool p ++ 0x0#1 ++ BitVec.ofBool n ++ k ++ BitVec.ofBool x : W32))
  | .popc d a p n k x => some (.b, (0x18#7 ++ d ++ a ++ 0x0#6 ++ BitVec.ofBool p ++ 0x0#1 ++ BitVec.ofBool n ++ k ++ BitVec.ofBool x : W32))
  | .bfx d a p sv l => some (.b, (0x19#7 ++ d ++ a ++ BitVec.ofBool p ++ sv ++ l : W32))
  | .bfxu d a p sv l => some (.b, (0x1a#7 ++ d ++ a ++ BitVec.ofBool p ++ sv ++ l : W32))
  | .bfi d a p sv l => some (.b, (0x1b#7 ++ d ++ a ++ BitVec.ofBool p ++ sv ++ l : W32))
  | .sext d a m p n k x => some (.b, (0x1c#7 ++ d ++ a ++ m ++ BitVec.ofBool p ++ 0x0#1 ++ BitVec.ofBool n ++ k ++ BitVec.ofBool x : W32))
  | .zext d a m p n k x => some (.b, (0x1d#7 ++ d ++ a ++ m ++ BitVec.ofBool p ++ 0x0#1 ++ BitVec.ofBool n ++ k ++ BitVec.ofBool x : W32))
  | .sel d a b p q n k x => some (.b, (0x1e#7 ++ d ++ a ++ b ++ BitVec.ofBool p ++ BitVec.ofBool q ++ BitVec.ofBool n ++ k ++ BitVec.ofBool x : W32))
  | .mov d a p n k x => some (.b, (0x1f#7 ++ d ++ a ++ 0x0#6 ++ BitVec.ofBool p ++ 0x0#1 ++ BitVec.ofBool n ++ k ++ BitVec.ofBool x : W32))
  | .movi d im => some (.b, (0x20#7 ++ d ++ 0x0#7 ++ im : W32))
  | .lea d a p im => some (.b, (0x21#7 ++ d ++ a ++ BitVec.ofBool p ++ im : W32))
  | .cmp d a b p q u c => some (.b, (0x22#7 ++ d ++ a ++ b ++ BitVec.ofBool p ++ BitVec.ofBool q ++ BitVec.ofBool u ++ c ++ 0x0#1 : W32))
  | .fadd d a b p q n k x => some (.b, (0x28#7 ++ d ++ a ++ b ++ BitVec.ofBool p ++ BitVec.ofBool q ++ BitVec.ofBool n ++ k ++ BitVec.ofBool x : W32))
  | .fsub d a b p q n k x => some (.b, (0x29#7 ++ d ++ a ++ b ++ BitVec.ofBool p ++ BitVec.ofBool q ++ BitVec.ofBool n ++ k ++ BitVec.ofBool x : W32))
  | .fmul d a b p q n k x => some (.b, (0x2a#7 ++ d ++ a ++ b ++ BitVec.ofBool p ++ BitVec.ofBool q ++ BitVec.ofBool n ++ k ++ BitVec.ofBool x : W32))
  | .fma d a b p q n k x => some (.b, (0x2b#7 ++ d ++ a ++ b ++ BitVec.ofBool p ++ BitVec.ofBool q ++ BitVec.ofBool n ++ k ++ BitVec.ofBool x : W32))
  | .fdiv d a b p q n k x => some (.b, (0x2c#7 ++ d ++ a ++ b ++ BitVec.ofBool p ++ BitVec.ofBool q ++ BitVec.ofBool n ++ k ++ BitVec.ofBool x : W32))
  | .fsqrt d a p n k x => some (.b, (0x2d#7 ++ d ++ a ++ 0x0#6 ++ BitVec.ofBool p ++ 0x0#1 ++ BitVec.ofBool n ++ k ++ BitVec.ofBool x : W32))
  | .fmin d a b p q n k x => some (.b, (0x2e#7 ++ d ++ a ++ b ++ BitVec.ofBool p ++ BitVec.ofBool q ++ BitVec.ofBool n ++ k ++ BitVec.ofBool x : W32))
  | .fmax d a b p q n k x => some (.b, (0x2f#7 ++ d ++ a ++ b ++ BitVec.ofBool p ++ BitVec.ofBool q ++ BitVec.ofBool n ++ k ++ BitVec.ofBool x : W32))
  | .fcmp d a b p q n c => some (.b, (0x30#7 ++ d ++ a ++ b ++ BitVec.ofBool p ++ BitVec.ofBool q ++ BitVec.ofBool n ++ c ++ 0x0#1 : W32))
  | .fcvt d a p sv t r u => some (.b, (0x31#7 ++ d ++ a ++ BitVec.ofBool p ++ sv ++ t ++ r ++ BitVec.ofBool u : W32))
  | .vadd d a b p q n k x => some (.b, (0x38#7 ++ d ++ a ++ b ++ BitVec.ofBool p ++ BitVec.ofBool q ++ BitVec.ofBool n ++ k ++ BitVec.ofBool x : W32))
  | .vsub d a b p q n k x => some (.b, (0x39#7 ++ d ++ a ++ b ++ BitVec.ofBool p ++ BitVec.ofBool q ++ BitVec.ofBool n ++ k ++ BitVec.ofBool x : W32))
  | .vmul d a b p q n k x => some (.b, (0x3a#7 ++ d ++ a ++ b ++ BitVec.ofBool p ++ BitVec.ofBool q ++ BitVec.ofBool n ++ k ++ BitVec.ofBool x : W32))
  | .vmulh d a b p q n k x => some (.b, (0x3b#7 ++ d ++ a ++ b ++ BitVec.ofBool p ++ BitVec.ofBool q ++ BitVec.ofBool n ++ k ++ BitVec.ofBool x : W32))
  | .vmac d a b p q n k x => some (.b, (0x3c#7 ++ d ++ a ++ b ++ BitVec.ofBool p ++ BitVec.ofBool q ++ BitVec.ofBool n ++ k ++ BitVec.ofBool x : W32))
  | .vmac2 d a m l p n k x => some (.b, (0x3d#7 ++ d ++ a ++ m ++ BitVec.ofBool l ++ 0x0#2 ++ BitVec.ofBool p ++ 0x0#1 ++ BitVec.ofBool n ++ k ++ BitVec.ofBool x : W32))
  | .vdot4 d a b p q n k x => some (.b, (0x3e#7 ++ d ++ a ++ b ++ BitVec.ofBool p ++ BitVec.ofBool q ++ BitVec.ofBool n ++ k ++ BitVec.ofBool x : W32))
  | .vabs d a p n k x => some (.b, (0x3f#7 ++ d ++ a ++ 0x0#6 ++ BitVec.ofBool p ++ 0x0#1 ++ BitVec.ofBool n ++ k ++ BitVec.ofBool x : W32))
  | .vneg d a p n k x => some (.b, (0x40#7 ++ d ++ a ++ 0x0#6 ++ BitVec.ofBool p ++ 0x0#1 ++ BitVec.ofBool n ++ k ++ BitVec.ofBool x : W32))
  | .vmin d a b p q n k x => some (.b, (0x41#7 ++ d ++ a ++ b ++ BitVec.ofBool p ++ BitVec.ofBool q ++ BitVec.ofBool n ++ k ++ BitVec.ofBool x : W32))
  | .vmax d a b p q n k x => some (.b, (0x42#7 ++ d ++ a ++ b ++ BitVec.ofBool p ++ BitVec.ofBool q ++ BitVec.ofBool n ++ k ++ BitVec.ofBool x : W32))
  | .vand d a b p q n k x => some (.b, (0x43#7 ++ d ++ a ++ b ++ BitVec.ofBool p ++ BitVec.ofBool q ++ BitVec.ofBool n ++ k ++ BitVec.ofBool x : W32))
  | .vor d a b p q n k x => some (.b, (0x44#7 ++ d ++ a ++ b ++ BitVec.ofBool p ++ BitVec.ofBool q ++ BitVec.ofBool n ++ k ++ BitVec.ofBool x : W32))
  | .vxor d a b p q n k x => some (.b, (0x45#7 ++ d ++ a ++ b ++ BitVec.ofBool p ++ BitVec.ofBool q ++ BitVec.ofBool n ++ k ++ BitVec.ofBool x : W32))
  | .vshl d a b p q n k x => some (.b, (0x46#7 ++ d ++ a ++ b ++ BitVec.ofBool p ++ BitVec.ofBool q ++ BitVec.ofBool n ++ k ++ BitVec.ofBool x : W32))
  | .vshr d a b p q n k x => some (.b, (0x47#7 ++ d ++ a ++ b ++ BitVec.ofBool p ++ BitVec.ofBool q ++ BitVec.ofBool n ++ k ++ BitVec.ofBool x : W32))
  | .vsar d a b p q n k x => some (.b, (0x48#7 ++ d ++ a ++ b ++ BitVec.ofBool p ++ BitVec.ofBool q ++ BitVec.ofBool n ++ k ++ BitVec.ofBool x : W32))
  | .vshrr d a w sv p n k x => some (.b, (0x49#7 ++ d ++ a ++ BitVec.ofBool w ++ sv ++ BitVec.ofBool p ++ 0x0#1 ++ BitVec.ofBool n ++ k ++ BitVec.ofBool x : W32))
  | .vsat d a u sv p n k x => some (.b, (0x4a#7 ++ d ++ a ++ BitVec.ofBool u ++ sv ++ BitVec.ofBool p ++ 0x0#1 ++ BitVec.ofBool n ++ k ++ BitVec.ofBool x : W32))
  | .vpack d a w t u h p n k x => some (.b, (0x4b#7 ++ d ++ a ++ BitVec.ofBool w ++ BitVec.ofBool t ++ BitVec.ofBool u ++ h ++ 0x0#1 ++ BitVec.ofBool p ++ 0x0#1 ++ BitVec.ofBool n ++ k ++ BitVec.ofBool x : W32))
  | .vunpk d a w u h p n k x => some (.b, (0x4c#7 ++ d ++ a ++ BitVec.ofBool w ++ BitVec.ofBool u ++ h ++ 0x0#2 ++ BitVec.ofBool p ++ 0x0#1 ++ BitVec.ofBool n ++ k ++ BitVec.ofBool x : W32))
  | .vcmp y c a b p q u k x => some (.b, (0x4d#7 ++ y ++ c ++ a ++ b ++ BitVec.ofBool p ++ BitVec.ofBool q ++ BitVec.ofBool u ++ k ++ BitVec.ofBool x : W32))
  | .vsel d a b p q n k x => some (.b, (0x4e#7 ++ d ++ a ++ b ++ BitVec.ofBool p ++ BitVec.ofBool q ++ BitVec.ofBool n ++ k ++ BitVec.ofBool x : W32))
  | .vslide d a f p q v w e => some (.b, (0x4f#7 ++ d ++ a ++ f ++ BitVec.ofBool p ++ BitVec.ofBool q ++ BitVec.ofBool v ++ BitVec.ofBool w ++ e ++ 0x0#1 : W32))
  | .vbcast d a p n k x => some (.b, (0x50#7 ++ d ++ a ++ 0x0#6 ++ BitVec.ofBool p ++ 0x0#1 ++ BitVec.ofBool n ++ k ++ BitVec.ofBool x : W32))
  | .vext d a p u l => some (.b, (0x51#7 ++ d ++ a ++ BitVec.ofBool p ++ BitVec.ofBool u ++ 0x0#5 ++ l : W32))
  | .vins d a p l => some (.b, (0x52#7 ++ d ++ a ++ BitVec.ofBool p ++ 0x0#6 ++ l : W32))
  | .vperm d a b p q n k x => some (.b, (0x53#7 ++ d ++ a ++ b ++ BitVec.ofBool p ++ BitVec.ofBool q ++ BitVec.ofBool n ++ k ++ BitVec.ofBool x : W32))
  | .vcompr d a b p q n k x => some (.b, (0x54#7 ++ d ++ a ++ b ++ BitVec.ofBool p ++ BitVec.ofBool q ++ BitVec.ofBool n ++ k ++ BitVec.ofBool x : W32))
  | .vexpd d a b p q n k x => some (.b, (0x55#7 ++ d ++ a ++ b ++ BitVec.ofBool p ++ BitVec.ofBool q ++ BitVec.ofBool n ++ k ++ BitVec.ofBool x : W32))
  | .vred d a o t sv p n k x => some (.b, (0x56#7 ++ d ++ a ++ o ++ BitVec.ofBool t ++ BitVec.ofBool sv ++ 0x0#1 ++ BitVec.ofBool p ++ 0x0#1 ++ BitVec.ofBool n ++ k ++ BitVec.ofBool x : W32))
  | .vscan d a o t p n k x => some (.b, (0x57#7 ++ d ++ a ++ o ++ BitVec.ofBool t ++ 0x0#2 ++ BitVec.ofBool p ++ 0x0#1 ++ BitVec.ofBool n ++ k ++ BitVec.ofBool x : W32))
  | .vpopc d a p n k x => some (.b, (0x58#7 ++ d ++ a ++ 0x0#6 ++ BitVec.ofBool p ++ 0x0#1 ++ BitVec.ofBool n ++ k ++ BitVec.ofBool x : W32))
  | .vfadd d a b p q n k x => some (.b, (0x60#7 ++ d ++ a ++ b ++ BitVec.ofBool p ++ BitVec.ofBool q ++ BitVec.ofBool n ++ k ++ BitVec.ofBool x : W32))
  | .vfsub d a b p q n k x => some (.b, (0x61#7 ++ d ++ a ++ b ++ BitVec.ofBool p ++ BitVec.ofBool q ++ BitVec.ofBool n ++ k ++ BitVec.ofBool x : W32))
  | .vfmul d a b p q n k x => some (.b, (0x62#7 ++ d ++ a ++ b ++ BitVec.ofBool p ++ BitVec.ofBool q ++ BitVec.ofBool n ++ k ++ BitVec.ofBool x : W32))
  | .vfma d a b p q n k x => some (.b, (0x63#7 ++ d ++ a ++ b ++ BitVec.ofBool p ++ BitVec.ofBool q ++ BitVec.ofBool n ++ k ++ BitVec.ofBool x : W32))
  | .vfnma d a b p q n k x => some (.b, (0x64#7 ++ d ++ a ++ b ++ BitVec.ofBool p ++ BitVec.ofBool q ++ BitVec.ofBool n ++ k ++ BitVec.ofBool x : W32))
  | .vfmin d a b p q n k x => some (.b, (0x65#7 ++ d ++ a ++ b ++ BitVec.ofBool p ++ BitVec.ofBool q ++ BitVec.ofBool n ++ k ++ BitVec.ofBool x : W32))
  | .vfmax d a b p q n k x => some (.b, (0x66#7 ++ d ++ a ++ b ++ BitVec.ofBool p ++ BitVec.ofBool q ++ BitVec.ofBool n ++ k ++ BitVec.ofBool x : W32))
  | .vfabs d a p n k x => some (.b, (0x67#7 ++ d ++ a ++ 0x0#6 ++ BitVec.ofBool p ++ 0x0#1 ++ BitVec.ofBool n ++ k ++ BitVec.ofBool x : W32))
  | .vfneg d a p n k x => some (.b, (0x68#7 ++ d ++ a ++ 0x0#6 ++ BitVec.ofBool p ++ 0x0#1 ++ BitVec.ofBool n ++ k ++ BitVec.ofBool x : W32))
  | .vfdiv d a b p q n k x => some (.b, (0x69#7 ++ d ++ a ++ b ++ BitVec.ofBool p ++ BitVec.ofBool q ++ BitVec.ofBool n ++ k ++ BitVec.ofBool x : W32))
  | .vfsqrt d a p n k x => some (.b, (0x6a#7 ++ d ++ a ++ 0x0#6 ++ BitVec.ofBool p ++ 0x0#1 ++ BitVec.ofBool n ++ k ++ BitVec.ofBool x : W32))
  | .vfrcp d a p n k x => some (.b, (0x6b#7 ++ d ++ a ++ 0x0#6 ++ BitVec.ofBool p ++ 0x0#1 ++ BitVec.ofBool n ++ k ++ BitVec.ofBool x : W32))
  | .vfrsq d a p n k x => some (.b, (0x6c#7 ++ d ++ a ++ 0x0#6 ++ BitVec.ofBool p ++ 0x0#1 ++ BitVec.ofBool n ++ k ++ BitVec.ofBool x : W32))
  | .vfexp2 d a p n k x => some (.b, (0x6d#7 ++ d ++ a ++ 0x0#6 ++ BitVec.ofBool p ++ 0x0#1 ++ BitVec.ofBool n ++ k ++ BitVec.ofBool x : W32))
  | .vflog2 d a p n k x => some (.b, (0x6e#7 ++ d ++ a ++ 0x0#6 ++ BitVec.ofBool p ++ 0x0#1 ++ BitVec.ofBool n ++ k ++ BitVec.ofBool x : W32))
  | .vfcmp y c a b p q n k x => some (.b, (0x6f#7 ++ y ++ c ++ a ++ b ++ BitVec.ofBool p ++ BitVec.ofBool q ++ BitVec.ofBool n ++ k ++ BitVec.ofBool x : W32))
  | .vfclass d a p n k x => some (.b, (0x70#7 ++ d ++ a ++ 0x0#6 ++ BitVec.ofBool p ++ 0x0#1 ++ BitVec.ofBool n ++ k ++ BitVec.ofBool x : W32))
  | .vfred d a o r sv p n k x => some (.b, (0x71#7 ++ d ++ a ++ o ++ r ++ BitVec.ofBool sv ++ BitVec.ofBool p ++ 0x0#1 ++ BitVec.ofBool n ++ k ++ BitVec.ofBool x : W32))
  | .vfdot2 d a b p q n k x => some (.b, (0x72#7 ++ d ++ a ++ b ++ BitVec.ofBool p ++ BitVec.ofBool q ++ BitVec.ofBool n ++ k ++ BitVec.ofBool x : W32))
  | .vcvt d a p sv t r u => some (.b, (0x73#7 ++ d ++ a ++ BitVec.ofBool p ++ sv ++ t ++ r ++ BitVec.ofBool u : W32))
  | .vcvti d a r t u p n k x => some (.b, (0x74#7 ++ d ++ a ++ r ++ BitVec.ofBool t ++ BitVec.ofBool u ++ 0x0#1 ++ BitVec.ofBool p ++ 0x0#1 ++ BitVec.ofBool n ++ k ++ BitVec.ofBool x : W32))
  | .vcvtf d a r u p n k x => some (.b, (0x75#7 ++ d ++ a ++ r ++ BitVec.ofBool u ++ 0x0#2 ++ BitVec.ofBool p ++ 0x0#1 ++ BitVec.ofBool n ++ k ++ BitVec.ofBool x : W32))
  | .vscale d a b p q n k x => some (.b, (0x76#7 ++ d ++ a ++ b ++ BitVec.ofBool p ++ BitVec.ofBool q ++ BitVec.ofBool n ++ k ++ BitVec.ofBool x : W32))
  | .vcbx d a b t p n k x => some (.b, (0x77#7 ++ d ++ a ++ b ++ t ++ BitVec.ofBool p ++ 0x0#1 ++ BitVec.ofBool n ++ k ++ BitVec.ofBool x : W32))
  | .vqnt d a b w p n h => some (.b, (0x78#7 ++ d ++ a ++ b ++ BitVec.ofBool w ++ 0x0#2 ++ BitVec.ofBool p ++ BitVec.ofBool n ++ h ++ 0x0#2 : W32))
  | .vq4nS d a b p q n => some (.b, (0x79#7 ++ d ++ a ++ b ++ BitVec.ofBool p ++ BitVec.ofBool q ++ BitVec.ofBool n ++ 0x8#4 : W32))
  | .vq4n d a b p q n h => some (.b, (0x79#7 ++ d ++ a ++ b ++ BitVec.ofBool p ++ BitVec.ofBool q ++ BitVec.ofBool n ++ 0x0#1 ++ h : W32))
  | .vmxq d a e p n f h => some (.b, (0x7a#7 ++ d ++ a ++ e ++ BitVec.ofBool p ++ BitVec.ofBool n ++ f ++ h : W32))
  | .vflgr d => some (.b, (0x7b#7 ++ d ++ 0x0#19 : W32))
  | .vflgc m k x => some (.b, (0x1f0000#21 ++ m ++ k ++ BitVec.ofBool x : W32))
  | .ldB d a p im => some (.a, (0x1#7 ++ d ++ a ++ BitVec.ofBool p ++ im : W32))
  | .ldBu d a p im => some (.a, (0x2#7 ++ d ++ a ++ BitVec.ofBool p ++ im : W32))
  | .ldH d a p im => some (.a, (0x3#7 ++ d ++ a ++ BitVec.ofBool p ++ im : W32))
  | .ldHu d a p im => some (.a, (0x4#7 ++ d ++ a ++ BitVec.ofBool p ++ im : W32))
  | .ldW d a p im => some (.a, (0x5#7 ++ d ++ a ++ BitVec.ofBool p ++ im : W32))
  | .ldWu d a p im => some (.a, (0x6#7 ++ d ++ a ++ BitVec.ofBool p ++ im : W32))
  | .ldD d a p im => some (.a, (0x7#7 ++ d ++ a ++ BitVec.ofBool p ++ im : W32))
  | .stB d a p im => some (.a, (0x8#7 ++ d ++ a ++ BitVec.ofBool p ++ im : W32))
  | .stH d a p im => some (.a, (0x9#7 ++ d ++ a ++ BitVec.ofBool p ++ im : W32))
  | .stW d a p im => some (.a, (0xa#7 ++ d ++ a ++ BitVec.ofBool p ++ im : W32))
  | .stD d a p im => some (.a, (0xb#7 ++ d ++ a ++ BitVec.ofBool p ++ im : W32))
  | .vld d a p r t n k x => some (.a, (0x10#7 ++ d ++ a ++ BitVec.ofBool p ++ 0x0#3 ++ BitVec.ofBool r ++ t ++ BitVec.ofBool n ++ k ++ BitVec.ofBool x : W32))
  | .vlds d a b p t k x => some (.a, (0x11#7 ++ d ++ a ++ b ++ BitVec.ofBool p ++ t ++ k ++ BitVec.ofBool x : W32))
  | .vldg d a b p t k x => some (.a, (0x12#7 ++ d ++ a ++ b ++ BitVec.ofBool p ++ t ++ k ++ BitVec.ofBool x : W32))
  | .vst d a p r t n k x => some (.a, (0x13#7 ++ d ++ a ++ BitVec.ofBool p ++ 0x0#3 ++ BitVec.ofBool r ++ t ++ BitVec.ofBool n ++ k ++ BitVec.ofBool x : W32))
  | .vsts d a b p t k x => some (.a, (0x14#7 ++ d ++ a ++ b ++ BitVec.ofBool p ++ t ++ k ++ BitVec.ofBool x : W32))
  | .vstg d a b p t k x => some (.a, (0x15#7 ++ d ++ a ++ b ++ BitVec.ofBool p ++ t ++ k ++ BitVec.ofBool x : W32))
  | .vldn d a p c r t n k x => some (.a, (0x16#7 ++ d ++ a ++ BitVec.ofBool p ++ c ++ BitVec.ofBool r ++ t ++ BitVec.ofBool n ++ k ++ BitVec.ofBool x : W32))
  | .vstn d a p c r t n k x => some (.a, (0x17#7 ++ d ++ a ++ BitVec.ofBool p ++ c ++ BitVec.ofBool r ++ t ++ BitVec.ofBool n ++ k ++ BitVec.ofBool x : W32))
  | .ldt d a b p q r t => some (.a, (0x18#7 ++ d ++ a ++ b ++ BitVec.ofBool p ++ BitVec.ofBool q ++ BitVec.ofBool r ++ t ++ 0x0#1 : W32))
  | .stt d a b p q r t => some (.a, (0x19#7 ++ d ++ a ++ b ++ BitVec.ofBool p ++ BitVec.ofBool q ++ BitVec.ofBool r ++ t ++ 0x0#1 : W32))
  | .sbind d a p q => some (.a, (0x20#7 ++ d ++ a ++ BitVec.ofBool p ++ q ++ 0x0#8 : W32))
  | .schain d a b p r q => some (.a, (0x21#7 ++ d ++ a ++ b ++ BitVec.ofBool p ++ BitVec.ofBool r ++ 0x0#1 ++ q : W32))
  | .sunbind q => some (.a, (0x44000#20 ++ q ++ 0x0#8 : W32))
  | .spos d a p q sv => some (.a, (0x23#7 ++ d ++ a ++ BitVec.ofBool p ++ q ++ BitVec.ofBool sv ++ 0x0#7 : W32))
  | .amo d a b o u => some (.a, (0x28#7 ++ d ++ a ++ b ++ o ++ u : W32))
  | .cas d a b u => some (.a, (0x29#7 ++ d ++ a ++ b ++ 0x0#4 ++ u : W32))
  | .lda d a p im => some (.a, (0x2a#7 ++ d ++ a ++ BitVec.ofBool p ++ im : W32))
  | .sta d a p im => some (.a, (0x2b#7 ++ d ++ a ++ BitVec.ofBool p ++ im : W32))
  | .fenceO sv => some (.a, (0xb000000#29 ++ sv : W32))
  | .fenceP => some (.a, (0x5800000e#32 : W32))
  | .fenceH => some (.a, (0x58000016#32 : W32))
  | .fenceE => some (.a, (0x5800001e#32 : W32))
  | .spill d v o => some (.a, (0x30#7 ++ d ++ BitVec.ofBool v ++ 0x0#2 ++ o : W32))
  | .fill d v o => some (.a, (0x31#7 ++ d ++ BitVec.ofBool v ++ 0x0#2 ++ o : W32))
  | .park d e => some (.a, (0x32#7 ++ d ++ 0x0#10 ++ e : W32))
  | .unpark d e => some (.a, (0x33#7 ++ d ++ 0x0#10 ++ e : W32))
  | .mcst d a b p q => some (.a, (0x34#7 ++ d ++ a ++ b ++ BitVec.ofBool p ++ BitVec.ofBool q ++ 0x0#5 : W32))
  | .prefl l a p im => some (.a, (0x350#11 ++ l ++ a ++ BitVec.ofBool p ++ im : W32))
  | .cbld b a p im => some (.a, (0x38#7 ++ b ++ 0x0#3 ++ a ++ BitVec.ofBool p ++ im : W32))
  | .cbst b a p im => some (.a, (0x39#7 ++ b ++ 0x0#3 ++ a ++ BitVec.ofBool p ++ im : W32))
  | .cbwr k a b p q => some (.a, (0x3a#7 ++ k ++ 0x0#3 ++ a ++ b ++ BitVec.ofBool p ++ BitVec.ofBool q ++ 0x0#5 : W32))
  | .cbinv k b q l => some (.a, (0x3b#7 ++ k ++ 0x0#9 ++ b ++ 0x0#1 ++ BitVec.ofBool q ++ BitVec.ofBool l ++ 0x0#4 : W32))
  | .waitv d a b p q c w => some (.a, (0x3c#7 ++ d ++ a ++ b ++ BitVec.ofBool p ++ BitVec.ofBool q ++ c ++ BitVec.ofBool w ++ 0x0#1 : W32))
  | .tflush a b p q => some (.a, (0xf40#13 ++ a ++ b ++ BitVec.ofBool p ++ BitVec.ofBool q ++ 0x0#5 : W32))
  | .tinv a b p q => some (.a, (0xf80#13 ++ a ++ b ++ BitVec.ofBool p ++ BitVec.ofBool q ++ 0x0#5 : W32))
  | .br k x sv b => some (.c, (0x1#7 ++ k ++ BitVec.ofBool x ++ sv ++ b : W32))
  | .brc a p c sv b => some (.c, (0x2#7 ++ a ++ BitVec.ofBool p ++ c ++ sv ++ b : W32))
  | .call k x sv b => some (.c, (0x3#7 ++ k ++ BitVec.ofBool x ++ sv ++ b : W32))
  | .calli a p k x => some (.c, (0x100#13 ++ a ++ BitVec.ofBool p ++ 0x0#8 ++ k ++ BitVec.ofBool x : W32))
  | .ret a p k x => some (.c, (0x140#13 ++ a ++ BitVec.ofBool p ++ 0x0#8 ++ k ++ BitVec.ofBool x : W32))
  | .jt d a b p q k x => some (.c, (0x6#7 ++ d ++ a ++ b ++ BitVec.ofBool p ++ BitVec.ofBool q ++ 0x0#1 ++ k ++ BitVec.ofBool x : W32))
  | .loop d sv b => some (.c, (0x7#7 ++ d ++ sv ++ b : W32))
  | .gang => some (.c, (0x10000000#32 : W32))
  | .split => some (.c, (0x12000000#32 : W32))
  | .gbr k x sv b => some (.c, (0xa#7 ++ k ++ BitVec.ofBool x ++ sv ++ b : W32))
  | .jset m => some (.c, (0x1600#16 ++ m : W32))
  | .jclr m => some (.c, (0x1800#16 ++ m : W32))
  | .jwait y m => some (.c, (0xd00#15 ++ BitVec.ofBool y ++ m : W32))
  | .semwait d sv n => some (.c, (0x10#7 ++ d ++ 0x0#3 ++ sv ++ n : W32))
  | .sempost d sv n => some (.c, (0x11#7 ++ d ++ 0x0#3 ++ sv ++ n : W32))
  | .mxlock d m => some (.c, (0x12#7 ++ d ++ 0x0#15 ++ m : W32))
  | .mxtry d m => some (.c, (0x13#7 ++ d ++ 0x0#15 ++ m : W32))
  | .mxunlk d m => some (.c, (0x14#7 ++ d ++ 0x0#15 ++ m : W32))
  | .tenq d a b p q => some (.c, (0x18#7 ++ d ++ a ++ b ++ BitVec.ofBool p ++ BitVec.ofBool q ++ 0x0#5 : W32))
  | .twait d a p c => some (.c, (0x19#7 ++ d ++ a ++ BitVec.ofBool p ++ c ++ 0x0#9 : W32))
  | .tstat d c sv l => some (.c, (0x1a#7 ++ d ++ 0x0#7 ++ c ++ sv ++ BitVec.ofBool l ++ 0x0#6 : W32))
  | .tcancel d a b p q => some (.c, (0x1b#7 ++ d ++ a ++ b ++ BitVec.ofBool p ++ BitVec.ofBool q ++ 0x0#5 : W32))
  | .launch d a b p q => some (.c, (0x1c#7 ++ d ++ a ++ b ++ BitVec.ofBool p ++ BitVec.ofBool q ++ 0x0#5 : W32))
  | .qlink d a p r => some (.c, (0x20#7 ++ d ++ a ++ BitVec.ofBool p ++ r ++ 0x40#7 : W32))
  | .qunlink r => some (.c, (0x42000#20 ++ r ++ 0x40#7 : W32))
  | .qdepth d r => some (.c, (0x22#7 ++ d ++ 0x0#7 ++ r ++ 0x40#7 : W32))
  | .qflush r v => some (.c, (0x46000#20 ++ r ++ BitVec.ofBool v ++ 0x0#6 : W32))
  | .yield => some (.c, (0x48000000#32 : W32))
  | .prchk d => some (.c, (0x25#7 ++ d ++ 0x0#19 : W32))
  | .pgpass d a b p q w t c => some (.c, (0x26#7 ++ d ++ a ++ b ++ BitVec.ofBool p ++ BitVec.ofBool q ++ BitVec.ofBool w ++ t ++ BitVec.ofBool c ++ 0x0#1 : W32))
  | .trap a p c => some (.c, (0xa00#13 ++ a ++ BitVec.ofBool p ++ c : W32))
  | .sysc c => some (.c, (0x52000#20 ++ c : W32))
  | .brk c => some (.c, (0x54000#20 ++ c : W32))
  | .eret => some (.c, (0x56000000#32 : W32))
  | .rply => some (.c, (0x58000000#32 : W32))
  | .mfs d n => some (.c, (0x2d#7 ++ d ++ 0x0#11 ++ n : W32))
  | .mts a p n => some (.c, (0xb80#13 ++ a ++ BitVec.ofBool p ++ 0x0#4 ++ n : W32))
  | .mtsFlg a p => some (.c, (0xb80#13 ++ a ++ BitVec.ofBool p ++ 0x1#12 : W32))
  | .mtsSrng a p => some (.c, (0xb80#13 ++ a ++ BitVec.ofBool p ++ 0x2#12 : W32))
  | .mtsStatus a p => some (.c, (0xb80#13 ++ a ++ BitVec.ofBool p ++ 0x0#12 : W32))
  | .mtsEpc a p => some (.c, (0xb80#13 ++ a ++ BitVec.ofBool p ++ 0x20#12 : W32))
  | .mtsEcause a p => some (.c, (0xb80#13 ++ a ++ BitVec.ofBool p ++ 0x21#12 : W32))
  | .tlbinv a b p q l => some (.c, (0xbc0#13 ++ a ++ b ++ BitVec.ofBool p ++ BitVec.ofBool q ++ BitVec.ofBool l ++ 0x0#4 : W32))
  | .ext t im => some (.c, (0x30#7 ++ t ++ im ++ 0x0#3 : W32))
  | .halt => some (.c, (0x62000000#32 : W32))
  | .pchk a p v => some (.c, (0xc80#13 ++ a ++ BitVec.ofBool p ++ BitVec.ofBool v ++ 0x0#11 : W32))
  | _ => none

/-- Number of fixed bits of the row that gives a class its instruction, for `decodeTableWord`. -/
def fixedBits (c : SlotClass) (w : W32) : Nat :=
  match decodeSlot c w with
  | .bad _ => 0
  | .ok i => match i with
    | .nop => 32
    | .sext .. | .zext .. | .cmp .. | .fcmp .. | .vshrr .. | .vsat .. | .vslide .. | .vfred .. | .vcbx .. | .vq4n .. | .ldt .. | .stt .. | .schain .. | .waitv .. | .jt .. | .pgpass .. => 8
    | .vpack .. | .vred .. | .vcvti .. | .spill .. | .fill .. => 9
    | .vmac2 .. | .vunpk .. | .vscan .. | .vcvtf .. | .vld .. | .vst .. | .cbld .. | .cbst .. | .semwait .. | .sempost .. | .ext .. => 10
    | .vqnt .. | .vq4nS .. | .cas .. | .prefl .. => 11
    | .vext .. | .mcst .. | .tenq .. | .tcancel .. | .launch .. => 12
    | .vins .. | .trap .. => 13
    | .clz .. | .ctz .. | .popc .. | .mov .. | .movi .. | .fsqrt .. | .vabs .. | .vneg .. | .vbcast .. | .vpopc .. | .vfabs .. | .vfneg .. | .vfsqrt .. | .vfrcp .. | .vfrsq .. | .vfexp2 .. | .vflog2 .. | .vfclass .. | .spos .. | .qlink .. => 14
    | .sbind .. | .cbwr .. | .jwait .. => 15
    | .jset .. | .jclr .. | .twait .. => 16
    | .park .. | .unpark .. | .mts .. | .tlbinv .. => 17
    | .tflush .. | .tinv .. | .mfs .. => 18
    | .tstat .. | .sysc .. | .brk .. => 20
    | .vflgc .. | .cbinv .. | .calli .. | .ret .. | .qdepth .. => 21
    | .mxlock .. | .mxtry .. | .mxunlk .. => 22
    | .pchk .. => 24
    | .mtsFlg .. | .mtsSrng .. | .mtsStatus .. | .mtsEpc .. | .mtsEcause .. => 25
    | .vflgr .. | .qflush .. | .prchk .. => 26
    | .qunlink .. => 27
    | .sunbind .. => 28
    | .fenceO .. => 29
    | .fenceP .. | .fenceH .. | .fenceE .. | .gang .. | .split .. | .yield .. | .eret .. | .rply .. | .halt .. => 32
    | _ => 7

/-- The instruction the decoder reads from the table's word of a slot (fixed name of the host). One word stands for
different instructions in different slots (R121), so the class whose row fixes most bits is taken, B before A before C
(log entry 5). -/
def decodeTableWord (nbits w : Nat) : Option Instr :=
  if nbits ≠ 32 then none
  else
    let x := BitVec.ofNat 32 w
    let pick (c : SlotClass) : Option Instr := match decodeSlot c x with
      | .ok i => some i
      | .bad _ => none
    let na := fixedBits .a x
    let nb := fixedBits .b x
    let nc := fixedBits .c x
    if na ≤ nb ∧ nc ≤ nb then pick .b else if nc ≤ na then pick .a else pick .c

/-- The class that `decodeTableWord` takes. -/
def tableClass (w : W32) : SlotClass :=
  let na := fixedBits .a w
  let nb := fixedBits .b w
  let nc := fixedBits .c w
  if na ≤ nb ∧ nc ≤ nb then .b else if nc ≤ na then .a else .c

end Sys2Proof
end

