-- ==== Sys2Proof/Machine/Ops.lean ====
section
/-! DEFINITION. The shared operations of a strand: reading operands in order and the issue check (R127 to R131), issue
with reservations and write-back (R129, R176), taking a trap and returning from one (R364 to R368). -/

namespace Sys2Proof.Machine

/-! ### Registers -/

def Regs.sQ (r : Regs) (i : Nat) : List (QCell SV) := mget r.sq i []
def Regs.vQ (r : Regs) (i : Nat) : List (QCell VV) := mget r.vq i []
def Regs.sP (r : Regs) (i : Nat) : SV := mget r.sp i SV.zero
def Regs.vP (r : Regs) (i : Nat) : VV := mget r.vp i VV.zero
/-- A predicate; k0 reads all ones (R126). -/
def Regs.kP (r : Regs) (i : Nat) : PV := if i = 0 then ⟨~~~0#64, 0⟩ else mget r.kp i PV.zero
def Regs.setSQ (r : Regs) (i : Nat) (x : List (QCell SV)) : Regs := { r with sq := mset r.sq i x }
def Regs.setVQ (r : Regs) (i : Nat) (x : List (QCell VV)) : Regs := { r with vq := mset r.vq i x }
def Regs.setSP (r : Regs) (i : Nat) (x : SV) : Regs := { r with sp := mset r.sp i x }
def Regs.setVP (r : Regs) (i : Nat) (x : VV) : Regs := { r with vp := mset r.vp i x }
/-- Write a predicate; k0 discards (R126). -/
def Regs.setKP (r : Regs) (i : Nat) (x : PV) : Regs := if i = 0 then r else { r with kp := mset r.kp i x }

/-- Depth of a queue register (Table 6-6). -/
def sDepth : Nat := 4
def vDepth : Nat := 2

/-- Count: the committed entries, those before the first reservation (R129). -/
def qCount {α : Type} (q : List (QCell α)) : Nat :=
  match q with
  | .hole _ :: _ => 0
  | _ :: r => qCount r + 1
  | [] => 0

/-- Put `y` into the reservation of operation `id` (R129). -/
def qPut {α : Type} (q : List (QCell α)) (id : Nat) (y : QCell α) : List (QCell α) :=
  q.map (fun c => match c with
    | .hole j => if j = id then y else .hole j
    | z => z)

/-- Fill the reservation of operation `id` (R129). -/
def qFill {α : Type} (q : List (QCell α)) (id : Nat) (x : α) : List (QCell α) := qPut q id (.full x)

/-- Withdraw the reservation of operation `id`, or what it pushed while an earlier slot could still trap (R364). -/
def qWithdraw {α : Type} (q : List (QCell α)) (id : Nat) : List (QCell α) :=
  q.filter (fun c => match c with
    | .hole j => decide (j ≠ id)
    | .late j _ => decide (j ≠ id)
    | _ => true)

/-- Whether a queue holds what operation `id` pushed while an earlier slot could still trap. -/
def qHasLate {α : Type} (q : List (QCell α)) (id : Nat) : Bool :=
  q.any (fun c => match c with
    | .late j _ => decide (j = id)
    | _ => false)

/-- Late entries of operations other than `ids` can no longer be withdrawn. -/
def qSettle {α : Type} (q : List (QCell α)) (ids : List Nat) : List (QCell α) :=
  q.map (fun c => match c with
    | .late j x => if ids.contains j then .late j x else .full x
    | y => y)

/-- Whether a queue holds a reservation of operation `id`. -/
def qHasHole {α : Type} (q : List (QCell α)) (id : Nat) : Bool :=
  q.any (fun c => match c with
    | .hole j => decide (j = id)
    | _ => false)

/-- Change the registers of one strand. -/
def State.modRegs (s : State) (n : Nat) (f : Regs → Regs) : State :=
  s.modStrand n (fun st => { st with regs := f st.regs })

/-! ### In flight -/

def WB.isDest (w : WB) (d : Dest) : Bool :=
  match w, d with
  | .s r _, .s q => r == q
  | .v r _ _, .v q => r == q
  | .k r _ _, .k q => r == q
  | _, _ => false

/-- WriteInFlight of a plain register or predicate (R127, R131). -/
def Strand.inFlight (st : Strand) (d : Dest) : Bool :=
  st.flights.any (fun f => f.wbs.any (fun w => w.isDest d)) || st.open_.any (fun e => e.dests.contains d)

/-- Program order of two slots (bundle order, then A, B, C). -/
def ordLt (s1 k1 s2 k2 : Nat) : Bool := decide (s1 < s2) || (s1 == s2 && decide (k1 < k2))

/-- Every operation before (seq, slot) has written back (R162, R364). -/
def Strand.drainedBefore (st : Strand) (seq slot : Nat) : Bool :=
  st.flights.all (fun f => !ordLt f.seq f.slot seq slot) && st.open_.all (fun e => !ordLt e.seq e.slot seq slot)

/-- Every access before (seq, slot) has performed: no earlier open operation and no earlier queued write (R330). -/
def Strand.performedBefore (st : Strand) (seq slot : Nat) : Bool :=
  st.open_.all (fun e => !ordLt e.seq e.slot seq slot) && st.wq.all (fun e => !ordLt e.seq e.slot seq slot)

/-- Bundles before `seq` whose slots B and C have not issued: the slip of a slot A of bundle `seq` (R111). -/
def Strand.slipOf (st : Strand) (seq : Nat) : Nat := (st.front.pairs.filter (fun p => decide (p.seq < seq))).length

/-! ### Links (R157, R333, R336) -/

/-- LinkTarget: register v`r` of strand `n` is the receiving queue of a live link. -/
def State.linkTarget (s : State) (n r : Nat) : Bool :=
  s.strands.any (fun p => p.2.links.any (fun l => l.2.peer == n && l.2.reg == r && !l.2.broken))

/-! ### Streams at issue (R270) -/

def Stream.ty (q : Stream) : Nat :=
  let w := ((q.desc.drop 6).headD 0).toNat
  if bitN w 8 then tyRaw else bitsN w 7 5

/-- CNT0 × CNT1 × CNT2 (R266). -/
def Stream.total (q : Stream) : Nat :=
  let w1 := ((q.desc.drop 1).headD 0).toNat
  let w2 := ((q.desc.drop 2).headD 0).toNat
  (w1 % 2 ^ 32) * (w1 / 2 ^ 32) * (w2 % 2 ^ 32)

/-- The stages of the bound chain. -/
def Stream.stages (q : Stream) : List Stage :=
  match stagesOf q.chain with
  | .ok l => l
  | .error _ => []

/-- Banks that a stream's chain expands through. -/
def Stream.banks (q : Stream) : List Nat :=
  q.stages.filterMap (fun st => match st with
    | .expand _ b => some b
    | _ => none)

/-- The chain as evaluated: stages last first with their input types and lengths, and the output type. -/
def Stream.chainOf (q : Stream) (mode : Nat → Nat) : List (Stage × Nat × Nat) × Nat :=
  (chainRev mode q.stages q.ty q.total [],
   q.stages.foldl (fun t st => (stageType mode st t).getD t) q.ty)

/-- What a read of stream vector `m` finds: not yet ready, a fault, or the vector with its flags and the generator. -/
inductive StreamRead where
  | notReady
  | fault (t : Trap)
  | vec (x : VV) (f : LaneFlags) (rng : W64)
  deriving DecidableEq, Repr

/-- What a stream's chain reads: the pattern vectors kept, the copies current in core `c`, captured predicates, the scale. -/
def Stream.env (q : Stream) (c : Core) : ChainEnv :=
  ⟨fun k => mget? q.raw k, fun k => mget q.rawFlags k 0, fun b => (c.bank b).current,
   fun k => if k = 0 then ⟨~~~0#64, 0⟩ else mget q.preds k PV.zero, q.scale.toNat⟩

/-- Read stream vector `m` through the copies current in core `c` for an instruction whose active lanes are `act`
(R45, R270). -/
def Stream.read (q : Stream) (c : Core) (m : Nat) (act rng : W64) : StreamRead :=
  let (rev, ty) := q.chainOf (fun b => (c.bank b).current.mode)
  let iv := chainNeeds (fun b => (c.bank b).current) rev m m
  let hi := Nat.min iv.2 (q.total - 1)
  let faulted := match q.fault with
    | some (j, t) => if iv.1 ≤ j ∧ j ≤ hi then some t else none
    | none => none
  match faulted with
  | some t => .fault t
  | none =>
    if (List.range (hi + 1 - iv.1)).all (fun d => (mget? q.raw (iv.1 + d)).isSome) then
      let r := chainVec (q.env c) rev ty m act rng
      .vec r.1 r.2.1 r.2.2
    else .notReady

/-! ### Operations that a later read waits for (R112, R282) -/

/-- The stream register an access instruction binds, unbinds or positions. -/
def streamNamed (i : Instr) : Option Nat :=
  match i with
  | .sbind _ _ _ q => some q.toNat
  | .schain _ _ _ _ _ q => some q.toNat
  | .sunbind q => some q.toNat
  | .spos _ _ _ q _ => some q.toNat
  | _ => none

/-- The codebook bank an instruction writes (R75). -/
def bankWritten (i : Instr) : Option Nat :=
  match i with
  | .cbld b _ _ _ => some b.toNat
  | .cbwr k _ _ _ _ => some k.toNat
  | .cbinv k _ _ _ => some k.toNat
  | _ => none

/-- An issued writer of bank `b` of this strand has not retired (R282). -/
def Strand.bankPending (st : Strand) (b : Nat) : Bool := st.open_.any (fun e => bankWritten e.instr == some b)

/-- An issued operation on stream `q` has not completed. -/
def Strand.streamPending (st : Strand) (q : Nat) : Bool := st.open_.any (fun e => streamNamed e.instr == some q)

/-! ### The issue check (R130, R131) -/

/-- What the check has found so far: the strand with the pops made, the first trap, whether it waits, the values read
(latest first), flags of stream conversions and banks that stream chains capture. -/
structure Scan where
  st : Strand
  trap : Option Trap := none
  /-- The fault of a stream vector that would be popped: the vector counts as ready, and its fault comes after the check of
  R131 (R270, R362). -/
  late : Option Trap := none
  wait : Bool := false
  vals : List VV := []
  flags : LaneFlags := 0
  banks : List Nat := []
  /-- The active lanes of the instruction, in which stream conversions draw (R45). -/
  act : W64 := ~~~0#64

def Scan.fail (a : Scan) (t : Trap) : Scan := { a with trap := a.trap <|> some t, vals := VV.zero :: a.vals }
def Scan.failLate (a : Scan) (t : Trap) : Scan := { a with late := a.late <|> some t, vals := VV.zero :: a.vals }
def Scan.hold (a : Scan) : Scan := { a with wait := true, vals := VV.zero :: a.vals }
def Scan.value (a : Scan) (x : VV) : Scan := { a with vals := x :: a.vals }
def Scan.withRegs (a : Scan) (r : Regs) : Scan := { a with st := { a.st with regs := r } }

/-- The read takes stream vector `q`, which a later read of the instruction passes (R131). -/
def Scan.passed (a : Scan) (peek : Bool) (c : Nat) (q : Stream) : Scan :=
  if peek then a else { a with st := { a.st with streams := mset a.st.streams c { q with pos := q.pos + 1 } } }

/-- The pop of a link entry is an edge to what follows the next resynchronising bundle (R334). -/
def Scan.withEdge (a : Scan) (p : W64) : Scan :=
  { a with st := { a.st with front := { a.st.front with edges := a.st.front.edges ++ [(a.st.front.ctx.seq, p)] } } }

/-- Read the head of a queue, `rest` set behind it by `pop`: a committed entry gives its value, a reservation waits. -/
def Scan.head {α : Type} (a : Scan) (peek : Bool) (c : QCell α) (pop : Regs) (val : α → VV) : Scan :=
  let a1 := if peek then a else a.withRegs pop
  match c with
  | .hole _ => a1.hold
  | .full x => a1.value (val x)
  | .late _ x => a1.value (val x)
  | .linked x p => (if peek then a1 else a1.withEdge p).value (val x)

/-- Read one source operand of strand `n` (R130, R131): a pop takes the head, a peek leaves it. A peeked stream vector
leaves the generator and the flags to the pop (R46, R53). -/
def readSrc (s : State) (n slot : Nat) (a : Scan) (src : Src) : Scan :=
  let c := src.code.toNat
  let qunf (sub : Nat) : Trap := { cause := .qunf, sub := sub, slot := slot, einfo := BitVec.ofNat 64 c }
  match src.file with
  | .s =>
    if c < 24 then
      match a.st.regs.sQ c with
      | [] => a.fail (qunf 0)
      | x :: r => a.head src.peek x (a.st.regs.setSQ c r) SV.toVV
    else if c < 32 then
      if a.st.inFlight (.s c) then a.hold else a.value (a.st.regs.sP c).toVV
    else if c = 49 then
      a.value (SV.toVV ⟨BitVec.ofNat 64 ((a.st.bound.map Bound.pos).getD 0), false⟩)
    else if c = 50 then a.value (SV.toVV ⟨~~~0#64, false⟩)
    else a.value VV.zero
  | .v =>
    if c < 24 then
      match a.st.regs.vQ c with
      | [] => if s.linkTarget n c then a.hold else a.fail (qunf 0)
      | x :: r => a.head src.peek x (a.st.regs.setVQ c r) id
    else if c < 32 then
      if a.st.inFlight (.v c) then a.hold else a.value (a.st.regs.vP c)
    else if c < 48 then
      if a.st.streamPending (c - 32) then a.hold
      else match mget? a.st.streams (c - 32) with
      | none => a.fail (qunf 1)
      | some q =>
        if q.length ≤ q.pos then a.fail (qunf 2)
        else if q.banks.any (fun b => a.st.bankPending b) then (a.passed src.peek (c - 32) q).hold
        else
          match q.read (s.core (coreOf n)) q.pos a.act a.st.ctl.srng with
          | .notReady => (a.passed src.peek (c - 32) q).hold
          | .fault t => (a.passed src.peek (c - 32) q).failLate { t with slot := slot }
          | .vec x f g =>
            if src.peek then { a with vals := x :: a.vals, banks := a.banks ++ q.banks }
            else
              { a with
                st := { a.st with
                  streams := mset a.st.streams (c - 32) { q with pos := q.pos + 1, delivered := true }
                  ctl := { a.st.ctl with srng := g } }
                vals := x :: a.vals, flags := a.flags ||| f, banks := a.banks ++ q.banks }
    else if c = 49 then a.value ⟨vecOf (fun i => BitVec.ofNat 32 i), 0⟩
    else if c = 50 then a.value ⟨~~~0#2048, 0⟩
    else a.value VV.zero

/-- Where a destination code writes, once links are resolved; none for the discard code. -/
def destOf (st : Strand) (d : RFile × BitVec 6) : Option Dest :=
  let c := d.2.toNat
  if 32 ≤ c then none
  else match d.1 with
    | .s => some (.s c)
    | .v =>
      if c < 24 then
        match mget? st.links c with
        | some l => some (.lk c l.peer l.reg)
        | none => some (.v c)
      else some (.v c)

/-- Link pushes of other strands that reserved at the tail of a queue in this clock: the receiving strand's own reservations of
the clock stand before them (R333). -/
def foreignTail {α : Type} (clkOp : Nat) (st : Strand) (q : List (QCell α)) : List (QCell α) :=
  (q.reverse.takeWhile (fun c => match c with
    | .hole j => decide (clkOp ≤ j) && !st.flights.any (fun f => f.id == j) && !st.open_.any (fun e => e.id == j)
    | _ => false)).reverse

/-- The destination part of the check of R131, for one destination; `a.st` has the pops made. -/
def checkDest (s : State) (slot : Nat) (a : Scan) (d : RFile × BitVec 6) : Scan :=
  let qovf : Trap := { cause := .qovf, slot := slot, einfo := BitVec.ofNat 64 d.2.toNat }
  let trapd : Scan := { a with trap := a.trap <|> some qovf }
  match destOf a.st d with
  | some (.s r) => if r < 24 ∧ sDepth ≤ (a.st.regs.sQ r).length then trapd else a
  | some (.v r) =>
    let q := a.st.regs.vQ r
    if r < 24 ∧ vDepth ≤ q.length - (foreignTail s.clkOp a.st q).length then trapd else a
  | some (.lk r peer reg) =>
    if ((mget? a.st.links r).map Link.broken).getD false then trapd
    else if vDepth ≤ ((s.strand peer).regs.vQ reg).length ∨ (s.strand peer).front.stopped then { a with wait := true }
    else a
  | _ => a

/-- What the check decides for an instruction. -/
inductive Check where
  /-- The predicate's lane 0 is false: nothing is done (R128). -/
  | skip
  | stall
  | trap (t : Trap)
  /-- It issues: the strand with the pops made, the values of A, B and the third sources, the predicate as read,
  the active lanes, and what stream conversions contribute. -/
  | go (st : Strand) (a b c : List VV) (pred : PV) (act : W64) (flags : LaneFlags) (banks : List Nat)

/-- The check of R131 for an instruction of strand `n` in slot `slot` (0 A, 1 B, 2 C), with the predicate rule of R128
and the tagged-predicate rule of R372; the fault of a stream vector that it would pop comes last (R270, R362). A scalar form whose predicate is in flight cannot make its test and stalls; a vector
form finds its traps first. That R372 gives the scalar forms of chapter 9 POISON, which R201 does not list, is followed
(DESIGN CHOICE, log entry 91). -/
def checkInstr (s : State) (n slot : Nat) (i : Instr) : Check :=
  let f := opForm i
  let st := s.strand n
  let (k, neg) := (f.pred.map (fun p => (p.1.toNat, p.2))).getD (0, false)
  let pv := st.regs.kP k
  let act := if neg then ~~~pv.v else pv.v
  let predWait := decide (k ≠ 0) && st.inFlight (.k k)
  let scalarPred := f.pred.isSome && !f.vpred
  if scalarPred && predWait then .stall
  else
    let ptag := scalarPred && pv.t.getLsbD 0
    let pTrap : Trap := { cause := .poison, slot := slot, einfo := 3 }
    if scalarPred && !act.getLsbD 0 then (if ptag then .trap pTrap else .skip)
    else
      let a0 : Scan := { st := st, act := if f.vpred then act else ~~~0#64 }
      let a1 := f.srcs.foldl (readSrc s n slot) a0
      let a2 := f.dests.foldl (checkDest s slot) a1
      match a2.trap with
      | some t => .trap t
      | none =>
        if ptag then .trap pTrap
        else match a2.late with
        | some t => .trap t
        | none =>
        if a2.wait || predWait then .stall
        else
          let vs := a2.vals.reverse
          .go a2.st (vs.take f.a.length) ((vs.drop f.a.length).take f.b.length) (vs.drop (f.a.length + f.b.length))
            pv act a2.flags a2.banks

/-! ### Stalls and traps -/

/-- The slot stalls: it is retried in the next clock (R131). -/
def State.stall (s : State) (n : Nat) : State :=
  s.modStrand n (fun st => { st with front := { st.front with stalled := true } })

/-- The code of a cause (Table 16-1). -/
def Cause.code : Cause → Nat
  | .fetch => 0x01 | .xlate => 0x02 | .illins => 0x03 | .illopnd => 0x04 | .gangsync => 0x05 | .qunf => 0x06
  | .qovf => 0x07 | .poison => 0x08 | .fmtmis => 0x09 | .peer => 0x0A | .wrperm => 0x0B | .spovf => 0x0C
  | .pinovf => 0x0D | .fwdwait => 0x0E | .invidx => 0x0F | .memue => 0x10 | .sysc => 0x11 | .brk => 0x12
  | .debug => 0x13 | .preempt => 0x14

/-- The cause code a trap records. -/
def Trap.causeCode (t : Trap) : Nat := t.code.getD t.cause.code

/-- Withdraw every reservation of an entry (R252, R364). -/
def Regs.withdraw (r : Regs) (id : Nat) (ds : List Dest) : Regs :=
  ds.foldl (fun r d => match d with
    | .s q => r.setSQ q (qWithdraw (r.sQ q) id)
    | .v q => r.setVQ q (qWithdraw (r.vQ q) id)
    | _ => r) r

/-- Withdraw an entry's reservations, those in a peer's queue included. -/
def State.withdrawEntry (s : State) (n : Nat) (e : Entry) : State :=
  let s1 := s.modStrand n (fun st => { st with regs := st.regs.withdraw e.id (e.dests.filter (fun d => match d with
    | .s q => decide (q < 24)
    | .v q => decide (q < 24)
    | _ => false)) })
  e.dests.foldl (fun s d => match d with
    | .lk _ peer reg => s.modStrand peer (fun p => { p with regs := p.regs.setVQ reg (qWithdraw (p.regs.vQ reg) e.id) })
    | _ => s) s1

/-- A queued write as a replay entry (R113, R364). -/
def QWrite.toEntry (q : QWrite) : Entry :=
  { id := q.id, seq := q.seq, slot := q.slot, pc := q.pc, instr := q.instr, ext := q.ext, gang := false, frame := true,
    slip := true, done := false, placed := false, live := false, resolved := true, step := 0, aux := 0, x := q.x, y := q.y, z := q.z,
    pred := q.pred, dests := [], caps := [], clk := 0, rds := [], fl := q.sfl, undo := [] }

/-- Insert an entry into program order. -/
def insertEntry (e : Entry) : List Entry → List Entry
  | [] => [e]
  | x :: r => if ordLt e.seq e.slot x.seq x.slot then e :: x :: r else x :: insertEntry e r

/-- Every task of a group that has not been dispatched is cancelled; dispatched ones complete (R97, R314: one of the
outcomes R3 leaves open, log entry 12). -/
def State.cancelTasksOf (s : State) (lid grp : Nat) : State :=
  { s with tasks := s.tasks.map (fun t =>
      if t.bound.lid = lid ∧ t.bound.grp = grp then
        (match t.phase with
         | .queued => { t with cancelled := true }
         | .parked => { t with cancelled := true }
         | _ => t)
      else t) }

/-- An earlier pair of B and C slots has not issued: slip above zero for slot A of bundle `seq` (R132). -/
def Strand.slipped (st : Strand) (seq : Nat) : Bool := st.front.pairs.any (fun p => decide (p.seq < seq))

/-- What no earlier slot can undo any more stands for good: completed slot-A operations are forgotten, what they pushed is an
entry like any other, and their flags are recorded, behind every flag read of an earlier slot (R54, R132, R364). -/
def Strand.settle (st : Strand) : Strand :=
  if st.past.isEmpty then st
  else
    let ps := st.past.filter (fun e => st.slipped e.seq)
    let ids := ps.map Entry.id
    { st with
      past := ps
      ctl := { st.ctl with flags := (st.past.filter (fun e => !st.slipped e.seq)).foldl (fun f e => f ||| e.fl) st.ctl.flags }
      regs := { st.regs with
        sq := st.regs.sq.map (fun (q : Nat × List (QCell SV)) => (q.1, qSettle q.2 ids))
        vq := st.regs.vq.map (fun (q : Nat × List (QCell VV)) => (q.1, qSettle q.2 ids)) } }

/-- A strand stops for good: it issues nothing. Of what had not performed, the writes of slots A at slip zero still
perform, so that a slot before a trap completes (R132); the rest never does (R97: one of the outcomes R3 leaves open, log
entry 12). Bank copies that its operations had captured are released (R75). -/
def State.stopStrand (s : State) (n : Nat) : State :=
  let st := s.strand n
  let s1 := st.open_.foldl (fun s e => s.releaseBanks (coreOf n) e.caps) s
  let s2 := (st.flights.map Flight.caps ++ st.frame.map Entry.caps).foldl (fun s l => s.releaseBanks (coreOf n) l) s1
  -- a page that its `PGPASS` has closed opens again (R338)
  let s3 := { s2 with cur8 := { s2.cur8 with closed := s2.cur8.closed.filter (fun c => !st.open_.any (fun e => e.id == c.2.2)) } }
  s3.modStrand n (fun st => { st with
    running := false, flights := [], open_ := [], past := [], linkPend := []
    frame := st.frame.map (fun e => { e with caps := [] })
    wq := st.wq.filter (fun q => !st.slipped q.seq) })

/-- Stop a group's strands from the next clock and mark it killed; a saved group's image is dropped (R97, R389). -/
def State.killGroup (s : State) (lid grp : Nat) (faulted : Bool) : State :=
  match s.groups.find? (fun g => g.lid == lid && g.grp == grp) with
  | none => s
  | some g =>
    let s1 := { s with
      groups := s.groups.map (fun (h : Group) =>
        if h.lid = lid ∧ h.grp = grp then { h with phase := .killed, faulted := faulted } else h)
      saved := s.saved.filter (fun x => !(x.lid == lid && x.grp == grp)) }
    (g.strands.foldl (fun s n => s.stopStrand n) s1).cancelTasksOf lid grp

/-- Record the fault of a group that completes FAULTED as its launch's first fault: the earliest completion, then the lowest
group (R391). -/
def State.recordFault (s : State) (lid : Nat) (f : FirstFault) : State :=
  match mget? s.launches lid with
  | none => s
  | some l =>
    let take := match l.ff with
      | none => true
      | some g => decide (f.clk < g.clk) || (f.clk == g.clk && decide (f.grp < g.grp))
    if take then { s with launches := mset s.launches lid { l with ff := some f } } else s

/-- EndGroup(FAULTED, cause) of R364 for the group of strand `n`: its cause counts when the group completes. The fault of a task,
which a `TWAIT` delivers, has no position and no PC (R391). -/
def State.endGroupFaulted (s : State) (n : Nat) (pc : W64) (t : Trap) : State :=
  match (s.strand n).bound with
  | none => s.modStrand n (fun st => { st with running := false })
  | some b =>
    let ofTask := t.code.isSome
    let f : FirstFault := ⟨b.grp, if ofTask then 0 else b.pos, if ofTask then 0 else pc, t.eaddr, t.causeCode, t.sub, s.clk⟩
    { s with groups := s.groups.map (fun (h : Group) =>
        if h.lid = b.lid ∧ h.grp = b.grp ∧ h.fault.isNone then { h with fault := some f } else h) }.killGroup b.lid b.grp true

/-- The bundles after bundle `seq` whose slot A has issued: those that the entries `es` and the queued writes name, those
marked when they were reached, and the marks not yet reached; by distance from `seq` (R366, R368, R376). -/
def Strand.marksAfter (st : Strand) (seq : Nat) (es : List Entry) : List (Nat × W64) :=
  es.map (fun e => (e.seq - seq, e.pc)) ++
    (st.front.pairs.filter (fun p => p.aMarked && decide (seq < p.seq))).map (fun p => (p.seq - seq, p.pc)) ++
    (match st.front.latch with
     | some b => if b.aDone && decide (seq < b.seq) then [(b.seq - seq, b.pc)] else []
     | none => []) ++
    (st.front.marks.filter (fun m => decide (seq < m.1))).map (fun m => (m.1 - seq, m.2))

/-- A completed operation delivers its recorded result again at re-injection, but for a push that was popped since. -/
def Strand.pastEntry (st : Strand) (e : Entry) : Entry :=
  { e with dests := e.dests.filter (fun d => match d with
      | .s q => decide (24 ≤ q) || qHasLate (st.regs.sQ q) e.id
      | .v q => decide (24 ≤ q) || qHasLate (st.regs.vQ q) e.id
      | _ => true) }

/-- Make the FRAME entries of a trap at (seq, slot): every slot-A operation issued after it, in program order, its
reservation withdrawn and its write unperformed; one that had completed keeps its result (R364, R370). -/
def State.makeFrame (s : State) (n seq : Nat) : State :=
  let st := s.strand n
  let es := st.open_.filter (fun e => decide (seq < e.seq)) ++
    (st.past.filter (fun e => decide (seq < e.seq))).map st.pastEntry
  let ws := (st.wq.filter (fun w => decide (seq < w.seq))).map QWrite.toEntry
  let s1 := es.foldl (fun s e => s.withdrawEntry n e) s
  let es' := es.map (fun e => { e with frame := true, slip := true, placed := false })
  let all := (es' ++ ws).foldl (fun l e => insertEntry e l) []
  s1.modStrand n (fun st => { st with
    open_ := st.open_.filter (fun e => !decide (seq < e.seq))
    past := st.past.filter (fun e => !decide (seq < e.seq))
    linkPend := st.linkPend.filter (fun p => !es.any (fun e => e.id == p.id))
    wq := st.wq.filter (fun w => !decide (seq < w.seq))
    frame := st.frame ++ all
    front := { st.front with frameMarks := st.marksAfter seq all } })

/-- A faulting pattern vector whose trap is taken is read afresh (R370). -/
def Stream.afresh (q : Stream) (t : Trap) : Stream :=
  match q.fault with
  | some (_, u) => if u.cause = t.cause ∧ u.sub = t.sub ∧ u.eaddr = t.eaddr then { q with fault := none, rds := [] } else q
  | none => q

/-- The frame registers, EXL and the PC that taking a trap writes (R364, R366, R367). -/
def Strand.enterHandler (st : Strand) (pc : W64) (t : Trap) (gang : Bool) (clk : Nat) : Strand :=
  Strand.settle { st with
    ctl := { st.ctl with
      epc := if t.rq then st.ctl.epc else pc
      eslot := if t.rq then st.ctl.eslot else if t.fx then 0 else BitVec.ofNat 2 t.slot
      fx := t.fx, rq := t.rq
      sub := BitVec.ofNat 8 t.sub, cause := BitVec.ofNat 8 t.causeCode
      einfo := t.einfo, eaddr := t.eaddr, exl := true
      leftGang := st.ctl.leftGang || gang }
    streams := st.streams.map (fun q => (q.1, q.2.afresh t))
    front := { st.front with
      pc := st.ctl.trapBase, fellOff := false, latch := none, pairs := [], held := none, trapping := none
      wake := clk + 4, marks := [], firstSlot := 0, waitC := none, stepped := false } }

/-- Take the trap that waits at (seq, pc): the ONE operation by which a strand enters its handler (R364, R365). With
TRAPBASE = 0, or EXL = 1 outside re-injection, the group ends FAULTED. A DEBUG or BRK under DBGCTL.EXT = 1 stops the
strand for the external debugger instead (R386, R387). -/
def State.enterTrap (s : State) (n seq : Nat) (pc : W64) (t : Trap) : State :=
  let st := s.strand n
  if (t.cause = .debug ∨ t.cause = .brk) ∧ t.code = none ∧ st.ctl.dbgctl.getLsbD 1 then
    -- a `BRK` leaves EPC at its own bundle, and the stop stands at its slot (R387)
    s.modStrand n (fun st => Strand.settle { st with
      ctl := if t.cause = .brk then { st.ctl with epc := pc } else st.ctl
      front := { st.front with
        stopped := true, trapping := none, held := none, latch := none, pairs := []
        pc := pc, firstSlot := if t.cause = .brk then t.slot else 0 } })
  else
    let gang := (s.core (coreOf n)).gang.on
    let s1 := if t.rq then s else s.makeFrame n seq
    if st.ctl.trapBase = 0 ∨ (st.ctl.exl ∧ !t.rq) then s1.endGroupFaulted n pc t
    else
      let s2 := s1.modStrand n (fun st => st.enterHandler pc t gang s.clk)
      if gang then
        s2.modCore (coreOf n) (fun c => { c with gang := { c.gang with away := posInCore n :: c.gang.away } })
      else s2

/-- Take the waiting trap once every operation before it has written back (R364); TRAP_ENTRY calls this. -/
def State.tryTrap (s : State) (n : Nat) : State :=
  let st := s.strand n
  match st.front.trapping with
  | none => s
  | some (seq, pc, t) => if st.drainedBefore seq t.slot then s.enterTrap n seq pc t else s

/-- Raise a trap at the slot being executed: held when a slot A has slipped (R132) and in a long word, where R117
decides; else taken as soon as the earlier
write-backs have drained, at once when there are none. -/
def State.raise (s : State) (n : Nat) (t : Trap) : State :=
  let st := s.strand n
  let c := st.front.ctx
  if c.gang ∨ (t.slot = 0 ∧ st.slipped c.seq) then
    s.modStrand n (fun st => { st with front := { st.front with held := some (c.seq, c.pc, t), trapped := true } })
  else
    (s.modStrand n (fun st => { st with front := { st.front with
      held := none, trapping := some (c.seq, c.pc, t), trapped := true } })).tryTrap n

/-- Leave the handler (R161, R368): EXL := 0, PC := EPC from ESLOT onward, under the SLIP marks. -/
def Strand.leaveHandler (st : Strand) (clk : Nat) : Strand :=
  { st with
    ctl := { st.ctl with exl := false, leftGang := false }
    front := { st.front with
      pc := st.ctl.epc, fellOff := false, latch := none, pairs := []
      marks := st.front.frameMarks.map (fun m => (st.front.seq + m.1, m.2)), frameMarks := []
      firstSlot := st.ctl.eslot.toNat, wake := clk + 1 } }

/-- The return from a trap for strand `n`; a strand that left its gang rejoins it, and issues its next long word before it is
stepped again (R117, R120). -/
def State.returnTrap (s : State) (n : Nat) : State :=
  let left := (s.strand n).ctl.leftGang
  let s1 := s.modStrand n (fun st => st.leaveHandler s.clk)
  if left then
    (s1.modStrand n (fun st => { st with front := { st.front with stepped := false } })).modCore (coreOf n)
      (fun c => { c with gang := { c.gang with away := c.gang.away.filter (fun p => p != posInCore n) } })
  else s1

/-! ### Issue of slot-B operations (R129, R176) -/

/-- A result for one destination. -/
inductive DVal where
  | s (x : SV)
  | v (x : VV)
  deriving DecidableEq, Repr

/-- What a slot-B instruction computes: one value per destination, a predicate value with the bits it writes, flags,
the generator's next state if it draws, and bank captures. -/
structure BOut where
  vals : List DVal := []
  kval : Option (PV × W64) := none
  flags : LaneFlags := 0
  rng : Option W64 := none
  caps : List (Nat × Nat) := []

/-- The write-back of one destination. -/
def wbOf (d : Option Dest) (x : DVal) (mask : W64) : Option WB :=
  match d, x with
  | some (.s r), .s y => some (.s r y)
  | some (.v r), .v y => some (.v r y mask)
  | some (.lk r p q), .v y => some (.lk r p q y)
  | _, _ => none

/-- Reserve the tail position of a destination for operation `id` (R129). -/
def State.reserve (s : State) (n id : Nat) (d : Dest) : State :=
  match d with
  | .s r => if r < 24 then s.modRegs n (fun g => g.setSQ r (g.sQ r ++ [.hole id])) else s
  | .v r =>
    if r < 24 then
      let q := (s.strand n).regs.vQ r
      let t := foreignTail s.clkOp (s.strand n) q
      s.modRegs n (fun g => g.setVQ r (q.take (q.length - t.length) ++ .hole id :: t))
    else s
  | .lk _ p q => s.modRegs p (fun g => g.setVQ q (g.vQ q ++ [.hole id]))
  | .k _ => s

/-- Issue a slot-B operation of strand `n` whose check passed: pops, reservations, the operation in flight (R131, R176).
`mask` is the set of lanes that a plain vector destination takes. -/
def State.issueB (s : State) (n lat : Nat) (i : Instr) (st : Strand) (mask : W64) (act : W64) (sflags : LaneFlags)
    (sbanks : List Nat) (o : BOut) : State :=
  let f := opForm i
  let (id, s0) := s.newId
  let ds := f.dests.map (destOf st)
  let wbs := (ds.zip o.vals).filterMap (fun p => wbOf p.1 p.2 mask)
  let kwb := match f.kd, o.kval with
    | some k, some (x, m) => if k = 0 then [] else [WB.k k.toNat x m]
    | _, _ => []
  let core := s.core (coreOf n)
  let scaps := sbanks.map (fun b => (b, (core.bank b).curIdx))
  let fl := if f.nf then 0 else o.flags ||| (if f.vpred then maskFlags sflags act else sflags)
  let fli : Flight :=
    { id := id, seq := st.front.ctx.seq, slot := 1, due := s.clk + lat, wbs := wbs ++ kwb, flags := fl
      caps := o.caps ++ scaps }
  let st' := { st with
    flights := st.flights ++ [fli]
    ctl := { st.ctl with srng := o.rng.getD st.ctl.srng } }
  let s1 := s0.setStrand n st'
  let s2 := (ds.filterMap (fun d => d)).foldl (fun s d => s.reserve n id d) s1
  (o.caps.map Prod.fst ++ sbanks).foldl (fun s b => s.captureBank (coreOf n) b) s2

/-! ### Write-back (R127, R129, R176, R333) -/

/-- What operation `id` of bundle `seq` pushes: an entry, which an earlier slot that traps still withdraws while it has not
issued (R364). -/
def Strand.pushed {α : Type} (st : Strand) (id seq : Nat) (x : α) : QCell α :=
  if st.slipped seq then .late id x else .full x

/-- Deliver one write-back of operation `id` of strand `n`. -/
def State.deliver (s : State) (n id seq : Nat) (w : WB) : State :=
  match w with
  | .s r x => s.modRegs n (fun g =>
      if r < 24 then g.setSQ r (qPut (g.sQ r) id ((s.strand n).pushed id seq x)) else g.setSP r x)
  | .v r x m => s.modRegs n (fun g =>
      if r < 24 then g.setVQ r (qPut (g.vQ r) id ((s.strand n).pushed id seq x)) else g.setVP r (VV.merge m x (g.vP r)))
  | .k r x m => s.modRegs n (fun g =>
      g.setKP r ⟨(x.v &&& m) ||| ((g.kP r).v &&& ~~~m), (x.t &&& m) ||| ((g.kP r).t &&& ~~~m)⟩)
  | .lk r p q x => s.modStrand n (fun st => { st with linkPend := st.linkPend ++
      [{ id := id, seq := seq, reg := r, peer := p, peerReg := q, val := x, due := s.clk + 2, pts := st.ctl.pts }] })

/-- An operation before (seq, slot) writes the same plain register or predicate and has not written back (R176). -/
def Strand.blockedDest (st : Strand) (seq slot : Nat) (d : Dest) : Bool :=
  let plain := match d with
    | .s r => decide (24 ≤ r)
    | .v r => decide (24 ≤ r)
    | .k _ => true
    | .lk _ _ _ => false
  plain && (st.flights.any (fun f => ordLt f.seq f.slot seq slot && f.wbs.any (fun w => w.isDest d)) ||
    st.open_.any (fun e => ordLt e.seq e.slot seq slot && e.dests.contains d))

/-- The same for one write-back. -/
def Strand.blockedWB (st : Strand) (seq slot : Nat) (w : WB) : Bool :=
  match w with
  | .s r _ => st.blockedDest seq slot (.s r)
  | .v r _ _ => st.blockedDest seq slot (.v r)
  | .k r _ _ => st.blockedDest seq slot (.k r)
  | .lk _ _ _ _ => false

/-- The same for an open operation. -/
def Strand.blockedEntry (st : Strand) (e : Entry) : Bool := e.dests.any (fun d => st.blockedDest e.seq e.slot d)

/-- Complete a flight: its values are delivered, its flags ORed in, its captures released (R51, R75, R176). -/
def State.completeFlight (s : State) (n : Nat) (f : Flight) : State :=
  let s1 := f.wbs.foldl (fun s w => s.deliver n f.id f.seq w) s
  let s2 := s1.modStrand n (fun st => { st with
    flights := st.flights.filter (fun g => decide (g.id ≠ f.id))
    ctl := { st.ctl with flags := st.ctl.flags ||| f.flags } })
  s2.releaseBanks (coreOf n) f.caps

/-- The latest issue clock of slot-B work: operands as the check read them. -/
structure BIn where
  a : List VV
  b : List VV
  c : List VV
  pred : PV
  act : W64
  st : Strand

/-- Source A, B or the third source. -/
def BIn.va (i : BIn) : VV := i.a.headD VV.zero
def BIn.vb (i : BIn) : VV := i.b.headD VV.zero
def BIn.vc (i : BIn) : VV := i.c.headD VV.zero
def BIn.sa (i : BIn) : SV := i.va.toSV
def BIn.sb (i : BIn) : SV := i.vb.toSV
def BIn.sc (i : BIn) : SV := i.vc.toSV

/-- Run a slot-B instruction of the strand whose slot executes: the check of R131, then the issue of what `f` computes
with write-back `lat` clocks later (R176). -/
def State.runB (s : State) (lat : Nat) (i : Instr) (f : BIn → BOut) : Result :=
  match checkInstr s s.cur 1 i with
  | .skip => .next s
  | .stall => .next (s.stall s.cur)
  | .trap t => .next (s.raise s.cur t)
  | .go st a b c pred act fl bks =>
    .next (s.issueB s.cur lat i st (if (opForm i).vpred then act else ~~~0#64) act fl bks (f ⟨a, b, c, pred, act, st⟩))

end Sys2Proof.Machine
end

