-- ==== Sys2Proof/Machine/Memory.lean ====
section
/-! DEFINITION. Memory: bytes in one canonical list, lines with homes, leases and stamps (R224 to R235), marks (R371),
the write log (R99, R384), page tables and translation (R58 to R66, R76 to R79). -/

namespace Sys2Proof.Machine

/-! ### Bytes: addresses strictly rising, no zero byte listed (log entry 2) -/

/-- The byte at an address; an unlisted address reads 0 (log entry 2). -/
def memGet (m : List Host.Cell) (a : Nat) : Byte :=
  match m with
  | [] => 0
  | (k, b) :: r => if k = a then b else memGet r a

/-- Remove an address. -/
def memDel (m : List Host.Cell) (a : Nat) : List Host.Cell :=
  match m with
  | [] => []
  | (k, b) :: r => if k = a then memDel r a else (k, b) :: memDel r a

/-- List a byte at an address, in order. -/
def memPut (m : List Host.Cell) (a : Nat) (x : Byte) : List Host.Cell :=
  match m with
  | [] => [(a, x)]
  | (k, b) :: r => if a < k then (a, x) :: (k, b) :: r else if a = k then (a, x) :: r else (k, b) :: memPut r a x

/-- Write one byte; writing 0 removes the entry. -/
def memSet (m : List Host.Cell) (a : Nat) (x : Byte) : List Host.Cell := if x = 0 then memDel m a else memPut m a x

/-- The canonical form of memory. -/
abbrev Memory.wf (m : List Host.Cell) : Prop := m.Pairwise (fun x y => x.1 < y.1) ∧ ∀ c ∈ m, c.2 ≠ 0

/-- Write (address, byte) pairs, in order. -/
def memSetAll (m : List Host.Cell) (l : List (Nat × Byte)) : List Host.Cell := l.foldl (fun m p => memSet m p.1 p.2) m

/-- `n` bytes from an address. -/
def memBytes (m : List Host.Cell) (a n : Nat) : List Byte := (List.range n).map (fun i => memGet m (a + i))

/-- A little-endian value (R7). -/
def leNat (l : List Byte) : Nat := l.foldr (fun b acc => acc * 256 + b.toNat) 0

/-- Bytes paired with consecutive offsets. -/
def atOffsets (o : Nat) (l : List Byte) : List (Nat × Byte) := l.zipIdx.map (fun p => (o + p.2, p.1))

/-- The `i`-th 64-bit word of bytes. -/
def word64 (l : List Byte) (i : Nat) : W64 := BitVec.ofNat 64 (leNat ((l.drop (8 * i)).take 8))

/-! ### Lines, homes and marks -/

def State.home (s : State) (line : Nat) : Home := mget s.homes line ⟨0, 0, none⟩

def wmax (a b : W64) : W64 := if a.toNat < b.toNat then b else a

/-- What tile copies hold exclusively of a line: bytes with the bits that count (R231, R233). -/
def State.ownedBytes (s : State) (line : Nat) : List (Nat × Byte × Byte) :=
  match (s.home line).excl with
  | none => []
  | some w => (s.wing w).slots.flatMap (fun k => (k.2.own.filter (fun o => o.1 == line)).flatMap (fun o =>
      (k.2.part o.2).filter (fun b => b.1 / 256 == line)))

/-- A line is held exclusively by a row of damaged data (R373). -/
def State.ownedBad (s : State) (line : Nat) : Bool :=
  match (s.home line).excl with
  | none => false
  | some w => (s.wing w).slots.any (fun k => k.2.own.any (fun o => o.1 == line && k.2.prow.getLsbD (o.2 % 64)))

/-- A line holds damaged data (R371, R373). -/
def State.marked (s : State) (line : Nat) : Bool := s.marks.contains line || s.ownedBad line

/-- Write the selected bits of bytes, in order. -/
def memMerge (m : List Host.Cell) (l : List (Nat × Byte × Byte)) : List Host.Cell :=
  l.foldl (fun m b => memSet m b.1 (mixByte (memGet m b.1) b.2.1 b.2.2)) m

/-- Memory with the current values of some lines. -/
def State.memNow (s : State) (lines : List Nat) : List Host.Cell := lines.foldl (fun m l => memMerge m (s.ownedBytes l)) s.mem

/-- The lines of `n` bytes from an address. -/
def linesOf (pa n : Nat) : List Nat := (List.range ((pa + n - 1) / 256 + 1 - pa / 256)).map (fun i => pa / 256 + i)

/-- The current values of `n` bytes: those that a tile copy holds exclusively stand there (R230, R231). -/
def State.readBytes (s : State) (pa n : Nat) : List Byte := memBytes (s.memNow (linesOf pa n)) pa n

/-- Keep the list of marked lines rising and without repeats. -/
def insNat (x : Nat) : List Nat → List Nat
  | [] => [x]
  | y :: r => if x < y then x :: y :: r else if x = y then y :: r else y :: insNat x r

def State.mark (s : State) (line : Nat) : State := { s with marks := insNat line s.marks }
def State.unmark (s : State) (line : Nat) : State := { s with marks := s.marks.filter (fun l => l != line) }

/-- Copies that hold nothing exclusively any more are no exclusive writers of their tiles (R297). -/
def State.settleExcl (s : State) (w : Nat) : State :=
  { s with catalogue := s.catalogue.map (fun e =>
      if e.excl = some w ∧ !(s.wing w).slots.any (fun k => k.2.v && k.2.tag == e.tag && !k.2.own.isEmpty) then
        { e with excl := none } else e) }

/-- The home recalls a line before it serves another agent: what a tile copy holds of it goes to memory, which changes no
value (R225, R231). -/
def State.recall (s : State) (line : Nat) : State :=
  match (s.home line).excl with
  | none => s
  | some w =>
    let s1 := { s with
      mem := s.memNow [line]
      marks := if s.ownedBad line then insNat line s.marks else s.marks
      homes := mset s.homes line { s.home line with excl := none } }
    (s1.modWing w (fun g => { g with slots := g.slots.map (fun (k : Nat × Slot) =>
      (k.1, { k.2 with own := k.2.own.filter (fun o => o.1 != line) })) })).settleExcl w

/-- The lease length (R230). -/
def lease : W64 := 8

/-- What a load of a line gives: the state, the reader's pts, the line's bytes, its mark. -/
structure LineRead where
  st : State
  pts : W64
  data : List Byte
  mark : Bool

/-- Lines of an L1 data cache and of a die's L2 (R19). -/
def l1Lines : Nat := 1024
def l2Lines : Nat := 524288

/-- Put a copy of a line into a cache of `cap` lines; of a full cache the lowest other line leaves (log entry 13). -/
def copyPut (cap : Nat) (m : AMap Copy) (line : Nat) (c : Copy) : AMap Copy :=
  let r := mset m line c
  if r.length ≤ cap then r
  else match r.find? (fun p => p.1 != line) with
    | some p => mdel r p.1
    | none => r

/-- A copy serves a reader whose pts its lease covers and whose ASID it is tagged with (R82, R231). -/
def Copy.hits (c : Copy) (asid : Nat) (pts : W64) : Bool := c.asid == asid && decide ((wmax pts c.wts).toNat ≤ c.rts.toNat)

/-- Load of a line by an agent under R231: nearest valid copy (the core's L1, then the die's L2), else the home, which
grants a lease; an acquiring read goes to the home. -/
def State.loadLine (s : State) (core : Option Nat) (die asid : Nat) (pts : W64) (line : Nat) (acq : Bool) : LineRead :=
  let l1 := core.bind (fun c => mget? (s.core c).l1 line)
  let l2 := mget? (s.die die).l2 line
  let fromHome : LineRead :=
    let s0 := s.recall line
    let h := s0.home line
    let grant := wmax pts h.wts + lease
    let cp : Copy := ⟨h.wts, grant, s0.readBytes (256 * line) 256, s0.marked line, asid⟩
    let s1 := { s0 with homes := mset s0.homes line { h with mrts := wmax h.mrts grant } }
    let s2 := s1.modDie die (fun d => { d with l2 := copyPut l2Lines d.l2 line cp })
    let s3 := match core with
      | some c => s2.modCore c (fun k => { k with l1 := copyPut l1Lines k.l1 line cp })
      | none => s2
    ⟨s3, wmax pts h.wts, cp.data, cp.mark⟩
  if acq then fromHome
  else
    match l1 with
    | some c =>
      if c.hits asid pts then ⟨s, wmax pts c.wts, c.data, c.mark⟩
      else (match l2 with
        | some d => if d.hits asid pts then
            (let s1 := match core with
              | some k => s.modCore k (fun x => { x with l1 := copyPut l1Lines x.l1 line d })
              | none => s
             ⟨s1, wmax pts d.wts, d.data, d.mark⟩) else fromHome
        | none => fromHome)
    | none => (match l2 with
        | some d => if d.hits asid pts then
            (let s1 := match core with
              | some k => s.modCore k (fun x => { x with l1 := copyPut l1Lines x.l1 line d })
              | none => s
             ⟨s1, wmax pts d.wts, d.data, d.mark⟩) else fromHome
        | none => fromHome)

/-- The stamp of a write of several lines by an agent: above every lease granted on any of them (R231, R233). -/
def State.storeStamp (s : State) (pts : W64) (lines : List Nat) : W64 :=
  lines.foldl (fun t l => wmax t ((s.home l).mrts + 1)) pts

/-- A read at a line's home, as `Load` of R231 makes it without a copy: a lease is granted and the reader's pts rises. -/
def State.readHome (s : State) (pts : W64) (line : Nat) : State × W64 :=
  let s0 := s.recall line
  let h := s0.home line
  ({ s0 with homes := mset s0.homes line { h with mrts := wmax h.mrts (wmax pts h.wts + lease) } }, wmax pts h.wts)

/-- Write bytes (at physical addresses) at one stamp at their homes, which recall the lines first. A full 256-byte write of
a line clears its mark (R231, R373). -/
def State.storeAt (s : State) (ts : W64) (bytes : List (Nat × Byte)) : State :=
  let lines := (bytes.map (fun p => p.1 / 256)).eraseDups
  let s0 := lines.foldl State.recall s
  let s1 := { s0 with
    mem := memSetAll s0.mem bytes
    homes := lines.foldl (fun h l => mset h l ⟨ts, ts, none⟩) s0.homes }
  lines.foldl (fun s l =>
    if 256 ≤ ((bytes.filter (fun p => p.1 / 256 == l)).map Prod.fst).eraseDups.length then s.unmark l else s) s1

/-- One store of an agent: the state and the agent's new pts (R231). -/
def State.store (s : State) (pts : W64) (bytes : List (Nat × Byte)) : State × W64 :=
  if bytes.isEmpty then (s, pts)
  else
    let ts := s.storeStamp pts ((bytes.map (fun p => p.1 / 256)).eraseDups)
    (s.storeAt ts bytes, ts)

/-- Subcauses of XLATE (Table 3-6). -/
def xNomap : Nat := 0
def xNoncanon : Nat := 1
def xBadpte : Nat := 2
def xPerm : Nat := 3
def xOwner : Nat := 4
def xNotensor : Nat := 5
def xTilerange : Nat := 6
def xBadpa : Nat := 7

/-- R63: the entry of a level with V = 1 is malformed. -/
def pteBad (level : Nat) (w0 w1 : W64) : Bool :=
  let n0 := w0.toNat
  let n1 := w1.toNat
  if pteLf w0 then
    bitsN n0 63 52 != 0 || bitsN n0 4 2 != 0 || decide (3 ≤ level) || !psAllowed level (ptePs w0) ||
      leafSck w1 == 3 || leafWs w1 == 3 || bitsN n1 4 0 != 0 ||
      (leafCbk w1 != 0 && !(leafFmt w1 == 13 || leafFmt w1 == 14 || leafFmt w1 == 15)) ||
      ptePa w0 % pageSize (ptePs w0) != 0
  else
    level == 0 || bitsN n0 63 52 != 0 || bitsN n0 11 1 != 0 || n1 != 0 || bitN n0 12

/-- Canonical virtual address (R58). -/
def canonical (va : W64) : Bool :=
  let t := bitsN va.toNat 63 56
  t == 0 || t == 255

/-- An address space as a walk uses it: its root, ASID, tenant, partition, and the die of the unit that asks. -/
structure Space where
  root : Nat
  asid : Nat
  tenant : Nat
  part : Nat
  die : Nat
  deriving DecidableEq, Repr

/-- The address space of a strand's binding. -/
def Bound.space (b : Bound) (die : Nat) : Space := ⟨b.root, b.asid, b.tenant, b.part, die⟩

/-! ### Walking (R60 to R66) -/

/-- What a walk ends in. -/
inductive WalkEnd where
  | leaf (t : Tlb)
  | fault (c : Cause) (sub : Nat)
  deriving DecidableEq, Repr

/-- Read an entry for a walk: from the die's walk cache unless it is bypassed, else memory through L2 (R66). The Bool is
the line's mark. -/
def State.readPte (s : State) (sp : Space) (bypass : Bool) (level va pa : Nat) : State × W64 × W64 × Bool :=
  let tag := va >>> (12 + 9 * level)
  let cached := if bypass then none
    else (s.die sp.die).walk.find? (fun e => e.asid == sp.asid && e.level == level && e.tag == tag && e.pa == pa)
  match cached with
  | some e => (s, e.w0, e.w1, false)
  | none =>
    let r := s.loadLine none sp.die sp.asid (s.die sp.die).walkPts (pa / 256) bypass
    let bs := (r.data.drop (pa % 256)).take 16
    let w0 := word64 bs 0
    let w1 := word64 bs 1
    let s1 := r.st.modDie sp.die (fun d => { d with
      walkPts := r.pts
      walk := if pteV w0 then ((⟨sp.asid, level, tag, pa, w0, w1⟩ : WalkEnt) :: d.walk.filter (fun e =>
          !(e.asid == sp.asid && e.level == level && e.tag == tag))).take 32768 else d.walk })
    (s1, w0, w1, r.mark)

/-- The walk from a level down (R60, R63, R79); a marked line gives MEMUE (R382). -/
def State.walkGo (s : State) (sp : Space) (bypass : Bool) (va : Nat) (level node : Nat) : State × WalkEnd :=
  let pa := node + 16 * (va >>> (12 + 9 * level) % 512)
  if !paHome pa then (s, .fault .xlate xBadpa)
  else
    let (s1, w0, w1, dmg) := s.readPte sp bypass level va pa
    if dmg then (s1, .fault .memue 0)
    else if !pteV w0 then (s1, .fault .xlate xNomap)
    else if pteBad level w0 w1 then (s1, .fault .xlate xBadpte)
    else if pteLf w0 then
      let size := pageSize (ptePs w0)
      let t : Tlb := ⟨sp.asid, level, va / size * size, w0, w1, pa⟩
      if leafOwner w1 ≠ 0 ∧ leafOwner w1 ≠ sp.tenant then (s1, .fault .xlate xOwner)
      else (s1, .leaf t)
    else
      match level with
      | 0 => (s1, .fault .xlate xBadpte)
      | l + 1 => s1.walkGo sp bypass va l (ptePa w0)

/-- Set A, and D when it is wanted, in the leaf's word 0 by compare-and-write: none when word 0 has changed (R66). -/
def State.setAD (s : State) (sp : Space) (t : Tlb) (wantD : Bool) : Option (State × Tlb) :=
  let w := t.w0 ||| (if wantD then 0x300#64 else 0x100#64)
  if w = t.w0 then some (s, t)
  else
    let now := word64 (s.readBytes t.pte 8) 0
    if now ≠ t.w0 then none
    else
      let (s1, ts) := s.store (s.die sp.die).walkPts (atOffsets t.pte (leBytes 8 w.toNat))
      let t' := { t with w0 := w }
      some (s1.modDie sp.die (fun d => { d with
        walkPts := ts
        walk := d.walk.map (fun e => if e.pa = t.pte ∧ e.asid = sp.asid then { e with w0 := w } else e) }), t')

/-- One whole walk: through the walk cache, and once more from the root past it when word 0 has changed (R66). The
second pass sets the bits on the word it has just read. -/
def State.walk (s : State) (sp : Space) (va : W64) (wantD : Bool) : State × WalkEnd :=
  if !canonical va then (s, .fault .xlate xNoncanon)
  else
    match s.walkGo sp false (va57 va) 4 sp.root with
    | (s1, .fault c x) => (s1, .fault c x)
    | (s1, .leaf t) =>
      match s1.setAD sp t wantD with
      | some (s2, t2) => (s2, .leaf t2)
      | none =>
        match s1.walkGo sp true (va57 va) 4 sp.root with
        | (s2, .fault c x) => (s2, .fault c x)
        | (s2, .leaf u) =>
          match s2.setAD sp u wantD with
          | some (s3, u2) => (s3, .leaf u2)
          | none => (s2, .leaf u)

/-- Put a translation into a TLB of `cap` entries, the oldest leaving (log entry 13). -/
def tlbPut (cap : Nat) (l : List Tlb) (t : Tlb) : List Tlb :=
  (t :: l.filter (fun e => !(e.asid == t.asid && e.base == t.base))).take cap

/-! ### Access checks (R59, R64, R79) -/

inductive Acc where
  | load | store | fetch
  /-- A look at a page's attributes alone (R255, R256). -/
  | attr
  deriving DecidableEq, Repr

/-- Whether WS admits the kind of a die (R64). -/
def wsAdmits (ws die : Nat) : Bool :=
  match ws with
  | 1 => dieIsDawn die
  | 2 => !dieIsDawn die
  | _ => true

/-- The permission checks of a leaf, in the order OWNER (made by the walk), BADPA, W or X, WS. -/
def leafCheck (t : Tlb) (va : W64) (die : Nat) (acc : Acc) : Option (Cause × Nat) :=
  if acc = .attr then none
  else if paKind (t.pa va) = .reserved then some (.xlate, xBadpa)
  else match acc with
    | .load => none
    | .attr => none
    | .store =>
      if !pteWr t.w0 then some (.xlate, xPerm)
      else if !wsAdmits (leafWs t.w1) die then some (.wrperm, 0)
      else none
    | .fetch => if !pteX t.w0 then some (.xlate, xPerm) else none

/-- What translating an address gives: a physical address with its leaf, a wait for a walk, or a trap's cause. -/
inductive Xl where
  | ok (pa : Nat) (t : Tlb)
  | miss
  | fault (c : Cause) (sub : Nat)
  deriving DecidableEq, Repr

/-- Open a miss, or join the one open for the page; with 256 open the miss waits (R77). Before its walk the size of the
missed page is unknown, and R77 does not say by which page the entry goes: it is known by the address's 4 KiB page, and a
walk serves every entry that its leaf covers (DESIGN CHOICE, log entry 69). -/
def State.openMiss (s : State) (w : Nat) (m : Miss) : State :=
  s.modWing w (fun g =>
    if g.misses.any (fun x => x.asid == m.asid && x.page == m.page) then
      { g with misses := g.misses.map (fun x =>
          if x.asid = m.asid ∧ x.page = m.page then { x with wantD := x.wantD || m.wantD } else x) }
    else if 256 ≤ g.misses.length then g
    else { g with misses := g.misses ++ [m] })

/-- A physical address lies in a page that a `PGPASS` has closed: new write resolutions stall (R338). -/
def State.closedAt (s : State) (pa : Nat) : Bool := s.cur8.closed.any (fun c => decide (c.1 ≤ pa ∧ pa < c.1 + c.2.1))

/-- A translation is missed: the fault that its walk has just delivered, or a wait for the walk (R77, R79). -/
def State.xlateMiss (s : State) (sp : Space) (w : Nat) (va : W64) (wantD : Bool) : State × Xl :=
  let page := va57 va / 4096
  match (s.wing w).missFaults.find? (fun f => f.asid == sp.asid && f.page == page && f.clk + 1 == s.clk) with
  | some f => (s, .fault f.cause f.sub)
  | none => (s.openMiss w ⟨sp.asid, page, sp.root, sp.tenant, wantD, s.clk⟩, .miss)

/-- Use a held translation: writes to a page that is being closed wait (R338, R339), then the checks of the leaf, then D. -/
def State.xlateUse (s : State) (sp : Space) (w : Nat) (t : Tlb) (va : W64) (acc : Acc) : State × Xl :=
  if acc = .store ∧ s.closedAt (t.pa va) then (s, .miss)
  else match leafCheck t va sp.die acc with
    | some (k, x) => (s, .fault k x)
    | none => if acc = .store ∧ !pteD t.w0 then s.xlateMiss sp w va true else (s, .ok (t.pa va) t)

/-- Translate for a unit of wing `w`, a fill or a task: the wing's TLB, then a miss (R76, R77). -/
def State.xlateWing (s : State) (sp : Space) (w : Nat) (va : W64) (acc : Acc) : State × Xl :=
  if !canonical va then (s, .fault .xlate xNoncanon)
  else match (s.wing w).tlb.find? (fun t => t.hits sp.asid va) with
    | some t => s.xlateUse sp w t va acc
    | none => s.xlateMiss sp w va false

/-- Translate an address for a strand: L1 TLB, wing TLB, then a miss whose walk another step carries out (R76, R77).
A store that first uses a translation whose D is 0 waits for the update (R66). -/
def State.xlate (s : State) (n : Nat) (va : W64) (acc : Acc) : State × Xl :=
  match (s.strand n).bound with
  | none => (s, .fault .xlate xNomap)
  | some b =>
    let sp := b.space (dieOf n)
    let w := wingOf n
    if !canonical va then (s, .fault .xlate xNoncanon)
    else match (s.core (coreOf n)).tlb.find? (fun t => t.hits b.asid va) with
      | some t => s.xlateUse sp w t va acc
      | none =>
        match (s.wing w).tlb.find? (fun t => t.hits b.asid va) with
        | some t => (s.modCore (coreOf n) (fun k => { k with tlb := tlbPut 64 k.tlb t })).xlateUse sp w t va acc
        | none => s.xlateMiss sp w va false

/-- Walk, and put the leaf into the wing's TLB. -/
def State.walkPut (s : State) (sp : Space) (w : Nat) (va : W64) (wantD : Bool) : State × WalkEnd :=
  let (s1, e) := s.walk sp va wantD
  match e with
  | .leaf t => (s1.modWing w (fun g => { g with tlb := tlbPut 4096 g.tlb t }), .leaf t)
  | .fault k x => (s1, .fault k x)

/-- Translate for the front-end or the write log, which wait for no miss table: the state, and the physical address with its
leaf, or the fault. D is set once the checks of the leaf have passed (R66). -/
def State.xlateNow (s : State) (sp : Space) (w : Nat) (va : W64) (acc : Acc) : State × Except (Cause × Nat) (Nat × Tlb) :=
  let found := (s.wing w).tlb.find? (fun t => t.hits sp.asid va)
  let r : State × WalkEnd := match found with
    | some t => (s, .leaf t)
    | none => s.walkPut sp w va false
  if !canonical va then (s, .error (.xlate, xNoncanon))
  else
    match r with
    | (s1, .fault k x) => (s1, .error (k, x))
    | (s1, .leaf t) =>
      match leafCheck t va sp.die acc with
      | some (k, x) => (s1, .error (k, x))
      | none =>
        if acc = .store ∧ !pteD t.w0 then
          (match s1.walkPut sp w va true with
           | (s2, .leaf u) => (s2, .ok (u.pa va, u))
           | (s2, .fault k x) => (s2, .error (k, x)))
        else (s1, .ok (t.pa va, t))

/-! ### The write log of a restartable launch (R99, R383, R384) -/

/-- A context record's fields (Table 4-1). -/
def ctxRoot (w : List W64) : Nat := bitsN ((w.headD 0).toNat) 51 12 * 4096
def ctxWord (w : List W64) (i : Nat) : Nat := ((w.drop i).headD 0).toNat
def ctxTtbase (w : List W64) : W64 := (w.drop 1).headD 0
def ctxTenant (w : List W64) : Nat := bitsN (ctxWord w 2) 63 52
def ctxAsid (w : List W64) : Nat := bitsN (ctxWord w 2) 51 40
def ctxPart (w : List W64) : Nat := bitsN (ctxWord w 2) 39 30
def ctxTtcount (w : List W64) : Nat := bitsN (ctxWord w 2) 28 16
def ctxWlbase (w : List W64) : W64 := (w.drop 3).headD 0
def ctxWlsize (w : List W64) : Nat := bitsN (ctxWord w 4) 31 0

/-- Malformed context records (R80). -/
def ctxBad (w : List W64) : Bool :=
  let w0 := ctxWord w 0
  let w2 := ctxWord w 2
  !bitN w0 0 || bitsN w0 63 52 != 0 || bitsN w0 11 1 != 0 || bitN w0 12 || ctxTenant w == 0 ||
    decide (4096 < ctxTtcount w) || bitN w2 29 || bitsN w2 15 0 != 0 || (ctxWlbase w).toNat % 4096 != 0 ||
    bitsN (ctxWord w 4) 63 32 != 0 || ctxWord w 5 != 0 || ctxWord w 6 != 0 || ctxWord w 7 != 0

/-- The context of a launch as dispatch or the front-end last read it: that of its queue as last registered, also for a
launch accepted before (DESIGN CHOICE, log entry 88). -/
def State.launchCtx (s : State) (l : Launch) : List W64 :=
  match mget? s.lqueues l.qnum with
  | none => []
  | some q => ((s.contexts.find? (fun c => c.pa == q.ctx)).map Context.words).getD []

def recWord (r : List W64) (i : Nat) : Nat := ((r.drop i).headD 0).toNat
def Launch.restartable (l : Launch) : Bool := bitN (recWord l.rec_ 7) 2 && !l.rstLost

/-- Set a launch. -/
def State.modLaunch (s : State) (lid : Nat) (f : Launch → Launch) : State :=
  match mget? s.launches lid with
  | none => s
  | some l => { s with launches := mset s.launches lid (f l) }

/-- The launch loses restartability (R99). -/
def State.loseRst (s : State) (lid : Nat) : State := s.modLaunch lid (fun l => { l with rstLost := true })

/-- The launch of a strand loses restartability (R99). -/
def State.loseRstOf (s : State) (n : Nat) : State :=
  match (s.strand n).bound with
  | none => s
  | some b => s.loseRst b.lid

/-- Write pieces of the write log, each inside one page: whether all were written. -/
def State.logWrite (s : State) (sp : Space) (va0 : W64) (bytes : List Byte) : State × Bool :=
  (List.range 5).foldl (fun (a : State × Bool) j =>
    let (st, e) := a.1.xlateNow sp (8 * sp.die) (va0 + BitVec.ofNat 64 (64 * j)) .store
    match e with
    | .error _ => (st, false)
    | .ok (pa, _) =>
      if paKind pa ≠ .mod then (st, false)
      else
        let st1 := st.recall (pa / 256)
        ({ st1 with mem := memSetAll st1.mem (atOffsets pa ((bytes.drop (64 * j)).take 64)) }, a.2)) (s, true)

/-- Log the pre-image of a line before the launch first writes it; a log that is full, absent or faults ends
restartability (R99, R383, R384). The log is upkeep: its write takes no stamp (R225). -/
def State.logLine (s : State) (lid die line : Nat) : State :=
  match mget? s.launches lid with
  | none => s
  | some l =>
    if !l.restartable || !l.started || l.log.any (fun e => e.1 == line) then s
    else if !(paKind (256 * line) == .mod) then s.loseRst lid
    else
      let cw := s.launchCtx l
      let k := l.log.length
      if ctxWlsize cw * 4096 < 320 * (k + 1) then s.loseRst lid
      else
        let sp : Space := ⟨ctxRoot cw, ctxAsid cw, ctxTenant cw, ctxPart cw, die⟩
        let s := s.recall line
        let img := s.readBytes (256 * line) 256
        let h := s.home line
        let mk := s.marked line
        let bytes := leBytes 8 (256 * line) ++ leBytes 8 (lid * 2 ^ 52 + k) ++ leBytes 8 h.wts.toNat ++
          leBytes 8 (if mk then 1 else 0) ++ List.replicate 32 0 ++ img
        let (s1, ok) := s.logWrite sp (ctxWlbase cw + BitVec.ofNat 64 (320 * k)) bytes
        if ok then s1.modLaunch lid (fun l => { l with log := l.log ++ [(line, img, h.wts, mk)] })
        else s1.loseRst lid

/-- Log every line that a write touches. -/
def State.logBytes (s : State) (lid die : Nat) (bytes : List (Nat × Byte)) : State :=
  ((bytes.map (fun p => p.1 / 256)).eraseDups).foldl (fun s l => s.logLine lid die l) s

/-! ### Accesses of a strand -/

/-- Set a strand's pts. -/
def State.setPts (s : State) (n : Nat) (p : W64) : State :=
  s.modStrand n (fun st => { st with ctl := { st.ctl with pts := p } })

def State.pts (s : State) (n : Nat) : W64 := (s.strand n).ctl.pts

def State.asidOf (s : State) (n : Nat) : Nat := ((s.strand n).bound.map Bound.asid).getD 0

/-- One load of a strand inside one line: the state, the bytes, the line's mark (R231). -/
def State.load (s : State) (n pa len : Nat) (acq : Bool) : State × List Byte × Bool :=
  let r := s.loadLine (some (coreOf n)) (dieOf n) (s.asidOf n) (s.pts n) (pa / 256) acq
  (r.st.setPts n r.pts, (r.data.drop (pa % 256)).take len, r.mark)

/-- One store of a strand inside one line, with the write log of its launch (R99, R231). -/
def State.storeBy (s : State) (n : Nat) (bytes : List (Nat × Byte)) : State :=
  let s0 := match (s.strand n).bound with
    | none => s
    | some b => s.logBytes b.lid (dieOf n) bytes
  let (s1, ts) := s0.store (s0.pts n) bytes
  s1.setPts n ts

end Sys2Proof.Machine
end

