-- ==== Sys2Proof/Machine/Window.lean ====
section
/-! DEFINITION. Leaving the module: identity checks (R347, R349), window registers (R351), allowances (R352), and
giving request packets their sequence numbers (R243, R353, R355); the ticketed arbiters (R102) and those of the ports. -/

namespace Sys2Proof.Machine

/-! ### The identity table (Table 15-1) -/

def idV (w : W32) : Bool := w.getLsbD 31
def idEn (w : W32) : Bool := w.getLsbD 30
def idHold (w : W32) : Bool := w.getLsbD 29
def idEpoch (w : W32) : Nat := bitsN w.toNat 28 27
def idPart (w : W32) : Nat := bitsN w.toNat 26 17
def idKind (w : W32) : Nat := bitsN w.toNat 7 6
def idIdx (w : W32) : Nat := bitsN w.toNat 4 0

/-- Malformed entries (R347). -/
def idBad (own : Option Nat) (l : Nat) (w : W32) : Bool :=
  bitsN w.toNat 16 8 != 0 || bitN w.toNat 5 || idKind w == 3 || (idKind w == 1 && idIdx w == 31) ||
    (idKind w == 0 && own != some l)

/-- The active entry of a logical number; a malformed one counts as V = 0, its other fields standing. -/
def Fabric.entry (f : Fabric) (l : Nat) : W32 :=
  let w := mget f.active l 0
  if idBad f.own l w then w &&& 0x7FFFFFFF#32 else w

/-- The source check of R349: the PEER subcause of Table 15-2, if it fails. -/
def Fabric.sourceCheck (f : Fabric) (l part : Nat) : Option Nat :=
  let w := f.entry l
  if !idV w then some 0
  else if !idEn w then some 1
  else if idPart w ≠ 0 ∧ idPart w ≠ part then some 2
  else none

/-- The module's own logical number as packets carry it; 0 while it has none. -/
def Fabric.ownNum (f : Fabric) : Nat := f.own.getD 0
/-- The epoch packets carry (R350). -/
def Fabric.ownEpoch (f : Fabric) : Nat := idEpoch (f.entry f.ownNum)

/-! ### Windows (Table 15-3) -/

def winV (w : W64 × W64) : Bool := w.1.getLsbD 63
def winDlm (w : W64 × W64) : Nat := bitsN w.1.toNat 62 48
def winLimit (w : W64 × W64) : Nat := bitsN w.1.toNat 47 32
def winSize (w : W64 × W64) : Nat := bitsN w.1.toNat 31 21
def winDbase (w : W64 × W64) : Nat := bitsN w.2.toNat 40 31

/-- Usable windows (R351). -/
def winUsable (w : W64 × W64) : Bool :=
  winV w && bitsN w.1.toNat 20 0 == 0 && bitsN w.2.toNat 63 41 == 0 && bitsN w.2.toNat 30 0 == 0 &&
    decide (winSize w ≤ 1024) && decide ((winDbase w + winSize w) * 2 ^ 31 ≤ moduleEnd)

def Fabric.window (f : Fabric) (w : Nat) : W64 × W64 := mget f.windows w (0, 0)

/-- Where a physical address of a context's partition leads: memory, or a window's module and address after the source
check; or the XLATE or PEER cause (R349, R351). -/
def State.target (s : State) (part pa : Nat) : Except (Cause × Nat) Target :=
  match paKind pa with
  | .mod => .ok (.mem pa)
  | .host => .ok (.mem pa)
  | .reserved => .error (.xlate, xBadpa)
  | .window w =>
    let r := s.fabric.window w
    let o := pa - (windowBase + w * 2 ^ 41)
    if winUsable r ∧ o < winSize r * 2 ^ 31 then
      match s.fabric.sourceCheck (winDlm r) part with
      | some x => .error (.peer, x)
      | none => .ok (.window w (winDlm r) (winDbase r * 2 ^ 31 + o))
    else .error (.xlate, xBadpa)

/-- Pieces of queued writes into window `w`. -/
def piecesInto (l : List Piece) (w : Nat) : Nat :=
  (l.filter (fun p => match p.tgt with
    | .window v _ _ => v == w
    | .mem _ => false)).length

/-- LIMIT of a window; 0 acts as 1. -/
def State.winLimitOf (s : State) (w : Nat) : Nat := Nat.max 1 (winLimit (s.fabric.window w))

/-- Posted writes into a window that have left their strand or task and are not acknowledged. -/
def State.winSent (s : State) (w : Nat) : Nat :=
  s.fabric.src.foldl (fun a p => a + (p.2.unacked.filter (fun k => k.window == some w)).length) 0

/-- The same with those that stand in strands' write queues. -/
def State.winHeld (s : State) (w : Nat) : Nat :=
  s.strands.foldl (fun a p => a + p.2.wq.foldl (fun b q => b + piecesInto q.pieces w) 0) 0 + s.winSent w

/-- OUT of a window (R352): posted writes issued and not acknowledged. Of a write of more pieces than LIMIT the rest issues
as units come free. -/
def State.winOut (s : State) (w : Nat) : Nat := Nat.min (s.winHeld w) (Nat.max (s.winLimitOf w) (s.winSent w))

/-- Ask for `k` units of a window's allowance, one for each posted write: granted when they fit below LIMIT beside what every
waiter that came first asks for; a write of more pieces than LIMIT is granted when nothing is out. Otherwise the asker waits in
order. A waiter that did not ask again in the last clock has left (R352). -/
def State.askAllow (s : State) (w : Nat) (who : Waiter) (k : Nat) : State × Bool :=
  let q := (mget s.fabric.allowQ w []).filter (fun e => decide (s.clk ≤ e.2.1 + 1))
  let ahead := (q.takeWhile (fun e => e.1 != who)).foldl (fun a e => a + e.2.2) 0
  let u := Nat.min k (s.winLimitOf w)
  let put (l : List (Waiter × Nat × Nat)) : State := { s with fabric := { s.fabric with allowQ := mset s.fabric.allowQ w l } }
  if s.winHeld w + ahead + u ≤ s.winLimitOf w then (put (q.filter (fun e => e.1 != who)), true)
  else if q.any (fun e => e.1 == who) then (put (q.map (fun e => if e.1 = who then (who, s.clk, u) else e)), false)
  else (put (q ++ [(who, s.clk, u)]), false)

/-! ### Packets -/

/-- A pair's source side. -/
def Fabric.pairSrc (f : Fabric) (dst : Nat) : PairSrc := mget f.src dst ⟨0, [], 0, false⟩
def Fabric.pairDst (f : Fabric) (src : Nat) : PairDst := mget f.dst src ⟨0, [], 0, 0, 0, []⟩

/-- Packets of a pair that neither an acknowledgement nor a returned value has acknowledged. -/
def PairSrc.outstanding (p : PairSrc) : List Packet := p.unacked.filter (fun k => !k.back)

/-- Whether a request packet to each of some destinations finds room, as often as each is named: 65,536 retained in all, 4,096 of a
pair not acknowledged (R353, R355). -/
def Fabric.roomForAll (f : Fabric) (dsts : List Nat) : Bool :=
  decide (f.src.foldl (fun a p => a + p.2.unacked.length) 0 + dsts.length ≤ 65536) &&
    dsts.all (fun d => decide ((f.pairSrc d).outstanding.length + dsts.count d ≤ 4096))

/-- Whether one request packet to `dst` finds room. -/
def Fabric.roomFor (f : Fabric) (dst : Nat) : Bool := f.roomForAll [dst]

/-- A packet that waits for a value. -/
def PktKind.returns (k : PktKind) : Bool := match k with
  | .load _ => true
  | .atomic _ => true
  | _ => false

def PktKind.isMcst (k : PktKind) : Bool := match k with
  | .mcst _ => true
  | _ => false

/-- The same requester: an operation is known by its number on whichever strand it is. -/
def Waiter.same (a b : Waiter) : Bool := match a, b with
  | .op _ x, .op _ y => x == y
  | x, y => x == y

/-- A value for the requester has not returned. -/
def Fabric.awaited (f : Fabric) (w : Waiter) : Bool := f.awaits.any (fun x => x.same w)

/-- The number that names a packet kind in an arriving packet (the model's own framing, log entry 14). -/
def PktKind.code : PktKind → Nat
  | .store => 0
  | .reduce fmt rm rng dmg => 1 + 8 * (fmt + 16 * (rm + 8 * (rng.toNat + (if dmg then 2 ^ 64 else 0))))
  | .mcst chain => 2 + 8 * chain.foldr (fun p c => 2 ^ 47 + p.1 % 2 ^ 15 + 2 ^ 15 * (p.2 % 2 ^ 32) + 2 ^ 48 * c) 0
  | .add => 3
  | .load len => 4 + 8 * len
  | .atomic op => 5 + 8 * op
  | .row bits dmg => 6 + 8 * (bits % 8 + (if dmg then 8 else 0))

/-- The chain of a multicast that a number names: at most seven later targets. -/
def chainOf : Nat → Nat → List (Nat × Nat)
  | 0, _ => []
  | f + 1, c => if c = 0 then [] else (c % 2 ^ 15, c / 2 ^ 15 % 2 ^ 32) :: chainOf f (c / 2 ^ 48)

/-- The kind that a number names, if any. -/
def pktKindOf (n : Nat) : Option PktKind :=
  let x := n / 8
  match n % 8 with
  | 0 => if x = 0 then some .store else none
  | 1 => some (.reduce (x % 16) (x / 16 % 8) (BitVec.ofNat 64 (x / 128)) (x.testBit 71))
  | 2 => some (.mcst (chainOf 7 x))
  | 3 => if x = 0 then some .add else none
  | 4 => some (.load x)
  | 5 => some (.atomic x)
  | 6 => if x < 16 then some (.row (x % 8) (x.testBit 3)) else none
  | _ => none

/-- Payload as it travels: pairs of an offset, of six bytes, and a byte (the model's own framing, log entry 14). -/
def pktData (l : List (Nat × Byte)) : List Byte := (l.map (fun p => leBytes 6 p.1 ++ [p.2])).flatten

/-- The pairs of a payload. -/
def pktBytes : List Byte → List (Nat × Byte)
  | o :: p :: q :: u :: v :: w :: b :: r => (leNat [o, p, q, u, v, w], b) :: pktBytes r
  | _ => []

/-- The first hop that the table names toward a number: a link that has not failed (R343, R344, Table 15-1). -/
def Fabric.hop (f : Fabric) (dst : Nat) : Option Hop :=
  let w := f.entry dst
  let h : Hop := ⟨idKind w == 2, idIdx w⟩
  if (idKind w = 1 ∨ idKind w = 2) ∧ !f.failedLinks.contains (h.glob, h.idx) then some h else none

/-- Something leaves the module over the first hop toward a number; a link that failed carries nothing (R343, R344). -/
def State.sendOver (s : State) (dst : Nat) (o : Hop → Out) : State :=
  match s.fabric.hop dst with
  | none => s
  | some h => { s with fabric := { s.fabric with sent := s.fabric.sent ++ [o h] } }

/-! ### Ticketed arbiters (R102) -/

/-- An item offered to an arbiter: launch queue, launch, source, charge. -/
structure Offer where
  q : Nat
  lid : Nat
  src : Nat
  charge : Nat
  uid : Nat

/-- The first of some numbers after a pointer, in ascending order, wrapping. -/
def afterPtr (p : Option Nat) (l : List Nat) : Option Nat :=
  let least (l : List Nat) : Option Nat := l.foldl (fun (b : Option Nat) x => match b with
    | none => some x
    | some y => some (Nat.min x y)) none
  match p with
  | none => least l
  | some k => least (l.filter (fun x => decide (k < x))) <|> least l

/-- Queues that enter B take at least V. -/
def Arbiter.enter (a : Arbiter) (b : List Nat) : Arbiter :=
  { a with
    inB := b
    pass := b.foldl (fun m q => if a.inB.contains q then m else mset m q (Nat.max (mget m q 0) a.vt)) a.pass }

/-- The item that the arbiter serves next, among those offered. -/
def Arbiter.pick (a : Arbiter) (l : List Offer) : Option Offer :=
  let qs := (l.map Offer.q).eraseDups
  let best := qs.foldl (fun (b : Option Nat) q => match b with
    | none => some q
    | some p =>
      let x := mget a.pass q 0
      let y := mget a.pass p 0
      if x < y ∨ (x = y ∧ q < p) then some q else some p) none
  match best with
  | none => none
  | some q =>
    let l1 := l.filter (fun o => o.q == q)
    match afterPtr (mget? a.lptr q) (l1.map Offer.lid) with
    | none => none
    | some lid =>
      let l2 := l1.filter (fun o => o.lid == lid)
      match afterPtr (mget? a.sptr lid) (l2.map Offer.src) with
      | none => none
      | some x => l2.find? (fun o => o.src == x)

/-- Grant an item: V, the pass value and the pointers move. A launch's source pointer goes by its handle, so that a launch that
takes the handle anew begins where the earlier one stood, which R102 leaves open (DESIGN CHOICE, log entry 75). -/
def Arbiter.grant (a : Arbiter) (tickets : Nat) (o : Offer) : Arbiter :=
  let p := mget a.pass o.q 0
  { a with
    vt := p
    pass := mset a.pass o.q (p + o.charge * (2 ^ 20 / Nat.max 1 tickets))
    lptr := mset a.lptr o.q o.lid
    sptr := mset a.sptr o.lid o.src }

def State.tickets (s : State) (q : Nat) : Nat := ((mget? s.lqueues q).map LaunchQueue.tickets).getD 1

/-- A packet at its port's arbiter: the launch queue and launch it is sent for, the strand, task queue or wing it comes from,
and its charge (R100 to R102; log entry 63). -/
def State.portOffer (s : State) (who : Waiter) (charge : Nat) : Option Offer :=
  let ofStrand (n : Nat) : Option Offer := (s.strand n).bound.map (fun b => ⟨b.qnum, b.lid, n, charge, 0⟩)
  let ofTask (u : Nat) : Option Offer :=
    (s.tasks.find? (fun t => t.uid == u)).map (fun t => ⟨t.bound.qnum, t.bound.lid, t.qpa, charge, 0⟩)
  match who with
  | .op n _ => ofStrand n
  | .stream n _ => ofStrand n
  | .task u => ofTask u
  | .itin u => ofTask u
  | .fill w id => ((s.wing w).fills.find? (fun f => f.id == id)).map (fun f => ⟨f.bound.qnum, f.bound.lid, 2048 + w, charge, 0⟩)
  | .front l => (mget? s.launches l).map (fun x => ⟨x.qnum, l, 0, charge, 0⟩)
  | .prep u => (s.placement.find? (fun p => p.2.uid == u)).bind (fun p =>
      (mget? s.launches p.2.lid).map (fun x => ⟨x.qnum, x.lid, 0, charge, 0⟩))

/-- The port of a packet's first hop grants it: a port has room as soon as a packet is sent, so that one queue at a time
stands at it (Table 4-8, R102; log entry 63). -/
def State.portGrant (s : State) (dst : Nat) (who : Waiter) (len : Nat) : State :=
  let w := s.fabric.entry dst
  match s.portOffer who (Nat.min ((len + 255) / 256) 16) with
  | none => s
  | some o =>
    let k := 32 * idKind w + idIdx w
    let a := (mget s.fabric.ports k Arbiter.reset).enter [o.q]
    { s with fabric := { s.fabric with ports := mset s.fabric.ports k (a.grant (s.tickets o.q) o) } }

/-- Put one packet on its way: out of the module over its first hop, or into this module's own inbox in the pair (m, m)
(R243, R344, R345). -/
def State.emit (s : State) (dst seqno part : Nat) (kind : PktKind) (pa : Nat) (bytes : List (Nat × Byte)) (who : Waiter) :
    State :=
  let f := s.fabric
  if some dst = f.own then
    { s with inbox := s.inbox ++ [.requestPacketArrival dst dst seqno f.ownEpoch part kind.code pa (pktData bytes)] }
  else if (f.hop dst).isNone then s
  else (s.sendOver dst (fun h => .packet h f.ownNum dst seqno f.ownEpoch part kind pa bytes)).portGrant dst who bytes.length

/-- Give a request packet its number in the pair and retain it (R353, R355). -/
def State.number (s : State) (dst part : Nat) (kind : PktKind) (pa : Nat) (bytes : List (Nat × Byte)) (who : Waiter)
    (window : Option Nat) (va : W64) : State × Nat :=
  let p := s.fabric.pairSrc dst
  let k : Packet :=
    { seqno := p.next, va := va, kind := kind, pa := pa, bytes := bytes, part := part, who := who, window := window
      sent := !idHold (s.fabric.entry dst) }
  let p' := { p with
    next := (p.next + 1) % 2 ^ 32
    unacked := p.unacked ++ [k]
    advanced := if p.outstanding.isEmpty then s.clk else p.advanced }
  let f := s.fabric
  ({ s with fabric := { f with
      src := mset f.src dst p', awaits := if kind.returns then f.awaits ++ [who] else f.awaits } }, p.next)

/-- Number a request packet; it leaves unless the entry is held (R357). -/
def State.request (s : State) (dst part : Nat) (kind : PktKind) (pa : Nat) (bytes : List (Nat × Byte)) (who : Waiter)
    (window : Option Nat) (va : W64 := 0) : State × Nat :=
  let (s1, k) := s.number dst part kind pa bytes who window va
  (if idHold (s.fabric.entry dst) then s1 else s1.emit dst k part kind pa bytes who, k)

end Sys2Proof.Machine
end

