-- ==== Sys2Proof/Machine/Access.lean ====
section
/-! DEFINITION. The shared operations of slot A: planning accesses and their checks (R251, R252), decoding reads and
formatted writes of registers (R255, R256), opening an operation, completing it, and trapping when it resolves (R252,
R364, R369). -/

namespace Sys2Proof.Machine

/-! ### Planning -/

/-- Rank of a cause within one operation (Table 16-1, FX = 0). -/
def Cause.rank : Cause → Nat
  | .fetch => 1 | .illins => 2 | .illopnd => 3 | .gangsync => 4 | .spovf => 5 | .qunf => 6 | .qovf => 6 | .poison => 7
  | .xlate => 8 | .fmtmis => 9 | .peer => 10 | .wrperm => 11 | .pinovf => 12 | .fwdwait => 13 | .memue => 14
  | .invidx => 15 | .sysc => 15 | .brk => 15 | .debug => 16 | .preempt => 17

/-- The accesses of an operation as they are checked: the reads found good so far, in order, the trap of lowest rank
found first, and whether some translation is awaited (R252, R362). -/
structure Plan where
  st : State
  rds : List Rd := []
  trap : Option Trap := none
  miss : Bool := false
  /-- The trap was found before any translation was awaited. -/
  sure : Bool := true

/-- Meet a trap: the lowest rank stands, and among equal ranks the first met (R362). -/
def Plan.fail (p : Plan) (t : Trap) : Plan :=
  match p.trap with
  | none => { p with trap := some t, sure := !p.miss }
  | some u => if t.cause.rank < u.cause.rank then { p with trap := some t, sure := !p.miss } else p

/-- The trap to be raised, if it is known: while a translation is awaited, one of a rank that no access can have, or an XLATE
of an access before the one that waits (R252, R362). -/
def Plan.verdict (p : Plan) : Option Trap :=
  match p.trap with
  | none => none
  | some t =>
    if !p.miss ∨ t.cause.rank < Cause.rank .xlate ∨ (t.cause.rank = Cause.rank .xlate ∧ p.sure) then some t else none

/-- Check one access of strand `n`: translation, permissions, window and peer (R252); the target stands in the plan. -/
def Plan.access (p : Plan) (n slot : Nat) (acc : Acc) (va : W64) (len : Nat) : Plan :=
  let (s1, r) := p.st.xlate n va acc
  let p1 := { p with st := s1 }
  match r with
  | .miss => { p1 with miss := true }
  | .fault c x => p1.fail { cause := c, sub := x, slot := slot, eaddr := va }
  | .ok pa t =>
    match s1.target (((s1.strand n).bound.map Bound.part).getD 0) pa with
    | .error (c, x) => p1.fail { cause := c, sub := x, slot := slot, eaddr := va }
    | .ok tgt => { p1 with rds := p1.rds ++ [⟨va, tgt, len, t.w0, t.w1, none, false⟩] }

/-- Look up the attributes of the page of an address, which is no access (R255, R256): the leaf stands in the plan with a
read of no bytes. -/
def Plan.lookup (p : Plan) (n slot : Nat) (va : W64) : Plan :=
  let (s1, r) := p.st.xlate n va .attr
  let p1 := { p with st := s1 }
  match r with
  | .miss => { p1 with miss := true }
  | .fault c x => p1.fail { cause := c, sub := x, slot := slot, eaddr := va }
  | .ok pa t => { p1 with rds := p1.rds ++ [⟨va, .mem pa, 0, t.w0, t.w1, none, false⟩] }

/-- As `Plan.lookup`, of a page that no active element touches: where it has no translation there are no attributes to
compare, and nothing traps (R256, R259). -/
def Plan.lookupFar (p : Plan) (n : Nat) (va : W64) : Plan :=
  let (s1, r) := p.st.xlate n va .attr
  let p1 := { p with st := s1 }
  match r with
  | .miss => { p1 with miss := true }
  | .fault _ _ => p1
  | .ok pa t => { p1 with rds := p1.rds ++ [⟨va, .mem pa, 0, t.w0, t.w1, none, false⟩] }

/-- Check accesses in order. -/
def Plan.accesses (p : Plan) (n slot : Nat) (acc : Acc) (l : List (W64 × Nat)) : Plan :=
  l.foldl (fun p x => p.access n slot acc x.1 x.2) p

/-- Reads after the first are one access with it. -/
def joinRest (l : List Rd) : List Rd :=
  match l with
  | [] => []
  | r :: t => r :: t.map (fun x => { x with join := true })

/-- Reads of one access that lie side by side in one window are one window access (R226, R244). -/
def mergeReads (l : List Rd) : List Rd :=
  l.foldr (fun r t => match t with
    | [] => [r]
    | x :: u => match r.tgt, x.tgt with
      | .window w d a, .window v e b =>
        if x.join ∧ w = v ∧ d = e ∧ b = a + r.len then { r with len := r.len + x.len } :: u else r :: t
      | _, _ => r :: t) []

/-- Check one access of a few bytes that may lie in two lines (R226). -/
def Plan.element (p : Plan) (n slot : Nat) (acc : Acc) (va : W64) (len : Nat) : Plan :=
  let q := p.accesses n slot acc (splitRange 256 2 va len)
  { q with rds := q.rds.take p.rds.length ++ mergeReads (joinRest (q.rds.drop p.rds.length)) }

/-- FMTMIS for each read from the `k`-th on whose page differs in FMT, SCK or CBK from leaf word 1 `w1`, or holds a pair that
R68 forbids (R255). -/
def Plan.samePages (p : Plan) (k slot : Nat) (w1 : W64) : Plan :=
  (p.rds.drop k).foldl (fun (p : Plan) r =>
    if leafFmt r.w1 ≠ leafFmt w1 ∨ leafSck r.w1 ≠ leafSck w1 ∨ leafCbk r.w1 ≠ leafCbk w1 ∨
        pairForbidden (leafFmt r.w1) (leafSck r.w1) ∨ (leafSck r.w1 = 2 ∧ ptePs r.w0 = 0) then
      p.fail { cause := .fmtmis, slot := slot, eaddr := r.va } else p) p

/-- The accesses of a scalar of `n` bytes: one when aligned, else one for each aligned 8-byte piece (Table 10-3). -/
def scalarPieces (va : W64) (n : Nat) : List (W64 × Nat) :=
  if va.toNat % n = 0 then [(va, n)] else splitRange 8 3 va n

/-! ### Bytes read -/

/-- The leaf of the page that holds an address, among the reads planned. -/
def pageAt (rds : List Rd) (va : W64) : Option (W64 × W64) :=
  (rds.find? (fun r =>
    let z := pageSize (ptePs r.w0)
    va57 va / z == va57 r.va / z)).map (fun r => (r.w0, r.w1))

/-- A byte read, with the mark of its line. -/
def byteAt (rds : List Rd) (va : W64) : Byte × Bool :=
  match rds.find? (fun r => decide ((va - r.va).toNat < r.len)) with
  | none => (0, false)
  | some r =>
    match r.got with
    | none => (0, false)
    | some (l, m) => ((l.drop (va - r.va).toNat).headD 0, m)

/-- Bytes from an address, and whether any carries a mark. -/
def bytesAt (rds : List Rd) (va : W64) (n : Nat) : List Byte × Bool :=
  let l := (List.range n).map (fun i => byteAt rds (va + BitVec.ofNat 64 i))
  (l.map Prod.fst, l.any Prod.snd)

/-- A little-endian value read. -/
def natAt (rds : List Rd) (va : W64) (n : Nat) : Nat × Bool :=
  let (l, m) := bytesAt rds va n
  (leNat l, m)

/-! ### Decoding reads of one register (R255) -/

/-- Whether memory element `m`, giving `k` register elements of width `wt`, feeds an active lane. -/
def elemActive (act : W64) (wt k m : Nat) : Bool :=
  (List.range k).any (fun j => act.getLsbD (laneOfElem wt (m * k + j)))

/-- The (address, length) pairs that cover the bytes wanted, one for each line that holds one (Table 10-3). -/
def maskedLines (ea : W64) (len : Nat) (want : Nat → Bool) : List (W64 × Nat) :=
  (linePieces ea len).filterMap (fun p =>
    let o := (p.1 - ea).toNat
    let l := (List.range p.2).filter (fun i => want (o + i))
    match l.head?, l.getLast? with
    | some a, some b => some (p.1 + BitVec.ofNat 64 a, b + 1 - a)
    | _, _ => none)

/-- The accesses and checks of a decoding or raw read of one register of type `ty` from `ea`; `mode` is the mode of a
bank's current copy. -/
def Plan.readReg (p : Plan) (n slot ty : Nat) (raw : Bool) (act : W64) (mode : Nat → Nat) (ea : W64) : Plan :=
  let rawLines := maskedLines ea 256 (fun i => act.getLsbD (i / 4))
  if act = 0 then p
  else if raw then p.accesses n slot .load rawLines
  else
    let p1 := p.lookup n slot ea
    match (p1.rds.drop p.rds.length).head? with
    | none => p1
    | some a =>
      let fmt := leafFmt a.w1
      let sck := leafSck a.w1
      let mis : Trap := { cause := .fmtmis, slot := slot, eaddr := ea }
      if pairForbidden fmt sck || (sck == 2 && ptePs a.w0 == 0) then p1.fail mis
      else if fmt = 0 then (p1.accesses n slot .load rawLines).samePages p1.rds.length slot a.w1
      else
        let w := fmtBits fmt
        let m := mode (leafCbk a.w1)
        let k := expandCount fmt m
        let cnt := tyN ty / k
        let on := fun j => elemActive act (tyWidth ty) k j
        let want := fun i => (List.range cnt).any (fun j => on j && decide (elemFirst w j ≤ i ∧ i ≤ elemLast w j))
        let full := act == ~~~0#64
        let p2 := p1.accesses n slot .load (maskedLines ea (cnt * w / 8) (fun i => full || want i))
        let p3 := p2.samePages p1.rds.length slot a.w1
        let p4 := if (w = 6 ∧ va57 ea % pageSize (ptePs a.w0) % 3 ≠ 0) ∨
            (fmtCb fmt ∧ sck = 1 ∧ modeInt m) then p3.fail mis else p3
        if sck = 0 then p4
        else
          let vas := ((List.range cnt).filter on).filterMap (fun j =>
            let (v, nb) := elemPlace w ea j
            (pageAt (p4.rds.drop p.rds.length) v).map (fun l => scaleVa l.1 l.2 w v nb))
          let p5 := p4.accesses n slot .load (((vas.map Prod.fst).eraseDups).map (fun v => (v, 1)))
          if sck = 2 then p5.accesses n slot .load (((vas.map Prod.snd).eraseDups).map (fun v => (v, 4))) else p5

/-- Footprint of one register of a decoding or raw read (R259). -/
def readFootprint (ty : Nat) (raw : Bool) (mode : Nat → Nat) (leaf : Option (W64 × W64)) : Nat :=
  match leaf with
  | none => 256
  | some (_, w1) =>
    let fmt := leafFmt w1
    if raw ∨ fmt = 0 then 256 else tyN ty / expandCount fmt (mode (leafCbk w1)) * fmtBits fmt / 8

/-- The register that a decoding or raw read delivers from the bytes read, with its flags by lane; disabled lanes are
zero. -/
def decodeReg (rds : List Rd) (ty : Nat) (raw : Bool) (act : W64) (copy : Nat → BankCopy) (ea : W64) : VV × LaneFlags :=
  let w1 := ((pageAt rds ea).map Prod.snd).getD 0
  let fmt := leafFmt w1
  let sck := leafSck w1
  (if raw ∨ fmt = 0 then
      let ls := (List.range 64).map (fun i =>
        if act.getLsbD i then
          (let (x, t) := natAt rds (ea + BitVec.ofNat 64 (4 * i)) 4
           (⟨x, t, 0⟩ : El))
        else ⟨0, false, 0⟩)
      (vvOfEls 32 ls, flagsOfEls 32 ls)
    else
      let w := fmtBits fmt
      let cp := copy (leafCbk w1)
      let k := expandCount fmt cp.mode
      let wt := tyWidth ty
      let els := ((List.range (tyN ty / k)).map (fun j =>
        if elemActive act wt k j then
          (let b0 := elemFirst w j
           let (x, t) := natAt rds (ea + BitVec.ofNat 64 b0) (elemLast w j + 1 - b0)
           let code := (x >>> (w * j - 8 * b0)) % 2 ^ w
           let (v, nb) := elemPlace w ea j
           let (sv, pv) := match pageAt rds v with
             | some l => scaleVa l.1 l.2 w v nb
             | none => (0, 0)
           let (sc, t1) := if sck = 0 then (0, false) else natAt rds sv 1
           let (su, t2) := if sck = 2 then natAt rds pv 4 else (0, false)
           decodeElem ty fmt sck cp code sc su (t || t1 || t2))
        else List.replicate k ⟨0, false, 0⟩)).flatten
      let els' := els.zipIdx.map (fun p => if act.getLsbD (laneOfElem wt p.2) then p.1 else ⟨0, false, 0⟩)
      (vvOfEls wt els', flagsOfEls wt els'))

/-! ### Formatted writes of one register (R256) -/

/-- Footprint of one register of a formatted or raw write (R259). -/
def writeFootprint (ty : Nat) (raw : Bool) (leaf : Option (W64 × W64)) : Nat :=
  match leaf with
  | none => 256
  | some (_, w1) => if raw ∨ leafFmt w1 = 0 then 256 else tyN ty * fmtBits (leafFmt w1) / 8

/-- The bytes that a write of register `x` to `ea` stores, by address, and its flags: formatted for the page, or as
held; only those of active lanes. -/
def encodeReg (leaf : W64 × W64) (ty : Nat) (raw : Bool) (act : W64) (ea : W64) (x : VV) : List (W64 × Byte) × LaneFlags :=
  let fmt := leafFmt leaf.2
  if raw ∨ fmt = 0 then
    (((List.range 256).filter (fun i => act.getLsbD (i / 4))).map (fun i =>
      (ea + BitVec.ofNat 64 i, BitVec.ofNat 8 (elemN x.v 8 i))), 0)
  else
    let wt := tyWidth ty
    let w := fmtBits fmt
    let rs := (List.range (tyN ty)).map (fun e => (e, encodeElem ty fmt (elemN x.v wt e)))
    let bs := (rs.filter (fun r => act.getLsbD (laneOfElem wt r.1))).flatMap (fun r =>
      (leBytes (w / 8) r.2.pat).zipIdx.map (fun b => (ea + BitVec.ofNat 64 (r.1 * (w / 8) + b.2), b.1)))
    (bs, flagsOfEls wt (rs.map (fun r =>
      if act.getLsbD (laneOfElem wt r.1) then ⟨0, false, r.2.flags⟩ else ⟨0, false, 0⟩)))

/-- The checks of a write of one register (R256): the accesses of its active elements, and FMT and SCK of every page that
its footprint touches; with no lane enabled there is no check at all (DESIGN CHOICE, log entry 92). -/
def Plan.writeReg (p : Plan) (n slot ty : Nat) (raw : Bool) (act : W64) (ea : W64) : Plan :=
  if act = 0 then p
  else if raw then p.accesses n slot .store (maskedLines ea 256 (fun i => act.getLsbD (i / 4)))
  else
    let p1 := p.lookup n slot ea
    match (p1.rds.drop p.rds.length).head? with
    | none => p1
    | some a =>
      let fmt := leafFmt a.w1
      let sck := leafSck a.w1
      let wt := tyWidth ty
      if !writeFmtOk fmt sck then p1.fail { cause := .fmtmis, slot := slot, eaddr := ea }
      else
        let w := fmtBits fmt
        let len := writeFootprint ty raw (some (a.w0, a.w1))
        let want := fun i => act.getLsbD (if fmt = 0 then i / 4 else laneOfElem wt (i * 8 / w))
        let p2 := p1.accesses n slot .store (maskedLines ea len want)
        let p3 := p2.lookupFar n (ea + BitVec.ofNat 64 (len - 1))
        (p3.rds.drop p1.rds.length).foldl (fun (p : Plan) r =>
          if leafFmt r.w1 ≠ fmt ∨ leafSck r.w1 ≠ sck then
            p.fail { cause := .fmtmis, slot := slot, eaddr := r.va } else p) p3

/-- Two pieces of one access into one module through one window, as one posted store: its bytes go by their distance from the
lower of the two places (R226, R299; log entry 82). -/
def Piece.merge (p q : Piece) : Option Piece :=
  match p.tgt, q.tgt with
  | .window w d a, .window v e b =>
    if q.join ∧ w = v ∧ d = e then
      let z := Nat.min a b
      some { p with
        tgt := .window w d z
        bytes := p.bytes.map (fun x => (x.1 + (a - z), x.2)) ++ q.bytes.map (fun x => (x.1 + (b - z), x.2)) }
    else none
  | _, _ => none

/-- The pieces of a write as they leave. -/
def mergePieces (l : List Piece) : List Piece :=
  l.foldr (fun p t => match t with
    | [] => [p]
    | q :: u => match p.merge q with
      | some x => x :: u
      | none => p :: t) []

/-- The single-copy atomic pieces of a write from the accesses planned and the bytes stored (R226). -/
def piecesOf (rds : List Rd) (bytes : List (W64 × Byte)) : List Piece :=
  mergePieces ((rds.filter (fun r => decide (0 < r.len))).filterMap (fun r =>
    let bs := bytes.filterMap (fun b => if (b.1 - r.va).toNat < r.len then some ((b.1 - r.va).toNat, b.2) else none)
    if bs.isEmpty then none else some ⟨r.va, r.tgt, bs, r.join⟩))

/-! ### Vector results (R128, R372) -/

/-- Lanes of a result: the value computed where the lane is active, the third source or 0 elsewhere; the predicate's
tags reach every lane delivered; flags of active lanes, PS where the lane carries a tag. -/
def finishVec (x : VV) (f : LaneFlags) (pred : PV) (act : W64) (acc : Option VV) : VV × LaneFlags :=
  let base := acc.getD VV.zero
  let t := (x.t &&& act) ||| (base.t &&& ~~~act) ||| pred.t
  (⟨(VV.merge act x base).v, t⟩,
   maskFlags (f ||| flagsOfList ((List.range 64).map (fun i => if t.getLsbD i then fPS else 0))) act)

/-- Lanes a predicate enables. -/
def actOf (i : Instr) (pred : PV) : W64 :=
  match (opForm i).pred with
  | some (_, true) => ~~~pred.v
  | some (_, false) => pred.v
  | none => ~~~0#64

/-! ### Opening and completing operations (R252, R253, R369) -/

/-- The operands of an instruction as captured at issue. -/
structure Cap where
  x : VV := VV.zero
  y : VV := VV.zero
  z : List VV := []
  pred : PV := ⟨~~~0#64, 0⟩
  deriving DecidableEq, Repr

/-- Slot-A operations whose completion clock Table 11-1 fixes: they are not open operations (R369). -/
def fixedClock (i : Instr) : Bool :=
  match i with
  | .fill .. => true
  | .unpark .. => true
  | .sbind .. => true
  | .schain .. => true
  | .spos .. => true
  | _ => false

/-- Open operations of a strand, FRAME entries and unperformed writes included (R369). -/
def Strand.openCount (st : Strand) : Nat :=
  (st.open_.filter (fun e => !fixedClock e.instr)).length + st.frame.length + st.wq.length

/-- A 25th open operation stalls its slot (R369). -/
def Strand.openFull (st : Strand) (i : Instr) : Bool := !fixedClock i && decide (24 ≤ st.openCount)

/-- The registers an instruction writes, links resolved; the discard code names none. -/
def destsOf (st : Strand) (i : Instr) : List Dest := ((opForm i).dests.map (destOf st)).filterMap id

/-- An entry for an instruction that issues now. -/
def mkEntry (s : State) (st : Strand) (slot id : Nat) (i : Instr) (c : Cap) (resolved : Bool) (rds : List Rd) : Entry :=
  { id := id, seq := st.front.ctx.seq, slot := slot, pc := st.front.ctx.pc, instr := i, ext := st.front.ctx.ext
    gang := st.front.ctx.gang, frame := false, slip := false, done := false, placed := true, live := false, resolved := resolved
    step := 0, aux := 0, x := c.x, y := c.y, z := c.z, pred := c.pred, dests := destsOf st i, caps := [], clk := s.clk
    rds := rds, fl := 0
    undo := (opForm i).srcs.filterMap (fun x =>
      let q := x.code.toNat - 32
      if x.file = .v ∧ 32 ≤ x.code.toNat ∧ x.code.toNat < 48 ∧ !x.peek then
        (mget? (s.strand s.cur).streams q).map (fun y =>
          (q, y.pos, y.delivered, srngSteps (s.strand s.cur).ctl.srng st.ctl.srng 2048))
      else none) }

/-- Every access of an operation is to memory: no refusal can come back for it (R244, R252, R350). -/
def memOnly (l : List Rd) : Bool := l.all (fun r => match r.tgt with
  | .mem _ => true
  | .window _ _ _ => false)

/-- Issue an operation that stays open: the pops of the check stand, its reservations are made (R131, R252). -/
def State.openOp (s : State) (n slot : Nat) (i : Instr) (st : Strand) (c : Cap) (resolved : Bool) (rds : List Rd) : State :=
  let (id, s0) := s.newId
  let e := mkEntry s0 st slot id i c resolved rds
  let s1 := s0.setStrand n { st with open_ := st.open_ ++ [e] }
  let s2 := e.dests.foldl (fun s d => s.reserve n id d) s1
  if slot = 2 then s2.modStrand n (fun st => { st with front := { st.front with waitC := some id } }) else s2

/-- Change an open entry. -/
def State.modEntry (s : State) (n id : Nat) (f : Entry → Entry) : State :=
  s.modStrand n (fun st => { st with open_ := st.open_.map (fun e => if e.id = id then f e else e) })

def State.entry? (s : State) (n id : Nat) : Option Entry := (s.strand n).open_.find? (fun e => e.id == id)

/-- Drop an open entry. -/
def State.dropEntry (s : State) (n id : Nat) : State :=
  s.modStrand n (fun st => { st with
    open_ := st.open_.filter (fun e => e.id != id)
    front := { st.front with waitC := if st.front.waitC = some id then none else st.front.waitC } })

/-- Or flags into a strand's lanes (R51). -/
def State.orFlags (s : State) (n : Nat) (f : LaneFlags) : State :=
  s.modStrand n (fun st => { st with ctl := { st.ctl with flags := st.ctl.flags ||| f } })

/-- The PS flags of a value delivered: one in each lane that carries the tag (R51, R371). -/
def DVal.ps (x : DVal) : LaneFlags :=
  match x with
  | .s y => flagsOfList [if y.t then fPS else 0]
  | .v y => flagsOfList ((List.range 64).map (fun i => if y.t.getLsbD i then fPS else 0))

/-- Write-backs of values for the destinations of an entry. -/
def entryWbs (e : Entry) (vals : List DVal) : List WB :=
  (e.dests.zip vals).filterMap (fun p => wbOf (some p.1) p.2 (actOf e.instr e.pred))

/-- A value as a vector. -/
def DVal.toVV (x : DVal) : VV :=
  match x with
  | .s y => y.toVV
  | .v y => y

/-- The result that a completed entry recorded, for its destinations. -/
def Entry.recorded (e : Entry) : List DVal :=
  (e.dests.zip e.z).map (fun p => match p.1 with
    | .s _ => .s p.2.toSV
    | _ => .v p.2)

/-- Record a completed operation's flags; while an earlier slot can still trap or read the flags, a slot-A operation is remembered
with them, its result in Z (R54, R364, R370, Table 16-5). -/
def Strand.remember (st : Strand) (e : Entry) (vals : List DVal) (fl : LaneFlags) : Strand :=
  if e.slot = 0 ∧ st.slipped e.seq then
    { st with past := st.past ++ [{ e with done := true, resolved := true, z := vals.map DVal.toVV, caps := [], rds := [], fl := fl }] }
  else { st with ctl := { st.ctl with flags := st.ctl.flags ||| fl } }

/-- Complete an open entry: its values are delivered, its flags recorded, its captures released (R75, R252). -/
def State.completeEntry (s : State) (n : Nat) (e : Entry) (vals : List DVal) (fl : LaneFlags) : State :=
  let s1 := (entryWbs e vals).foldl (fun s w => s.deliver n e.id e.seq w) s
  ((s1.dropEntry n e.id).modStrand n (fun st => st.remember e vals (fl ||| e.fl))).releaseBanks (coreOf n) e.caps

/-- Put popped operands back at the heads of their queues, last read first: a trap is precise, nothing is popped
(R131, R252, log entry 15). -/
def unpop (r : Regs) (l : List (Src × VV)) : Regs :=
  l.foldr (fun p r =>
    let c := p.1.code.toNat
    if p.1.peek ∨ 24 ≤ c then r
    else match p.1.file with
      | .s => r.setSQ c (.full p.2.toSV :: r.sQ c)
      | .v => r.setVQ c (.full p.2 :: r.vQ c)) r

/-- Put back the positions of the streams that an entry popped, and take back its own draws: those that earlier bundles have made
since stay made (R46, R252). -/
def Strand.unpopStreams (st : Strand) (l : List (Nat × Nat × Bool × Nat)) : Strand :=
  l.foldl (fun st u =>
    match mget? st.streams u.1 with
    | none => st
    | some q => { st with
        streams := mset st.streams u.1 { q with pos := u.2.1, delivered := u.2.2.1 }
        ctl := { st.ctl with srng := srngBack st.ctl.srng u.2.2.2 } }) st

/-- The operand values of an entry beside its source operands. -/
def entrySrcs (e : Entry) : List (Src × VV) :=
  let f := opForm e.instr
  f.a.zip [e.x] ++ f.b.zip [e.y] ++ f.c.zip e.z

/-- A `RPLY` or `ERET` of the strand re-injects, or goes on with it after a resume (R425). -/
def Strand.replays (st : Strand) : Bool := st.open_.any (fun x => decide (x.instr = .rply) || decide (x.instr = .eret))

/-- An open operation resolves with a trap: it is withdrawn with its reservations, its operands return, and the trap
stands at its slot (R252, R364); that of a slot A of a long word, of which no other slot has issued, is held for R117. A re-injected entry stays in the queue and raises with RQ (R368, R381, R425). -/
def State.trapEntry (s : State) (n : Nat) (e : Entry) (t : Trap) : State :=
  let rel := s.releaseBanks (coreOf n) e.caps
  if e.frame || (e.live && (s.strand n).replays) then
    (rel.dropEntry n e.id).modStrand n (fun st => { st with
      frame := { e with frame := true, live := false, caps := [], rds := [] } :: st.frame
      open_ := st.open_.filter (fun x => !(decide (x.instr = .rply) || decide (x.instr = .eret)))
      front := { st.front with
        waitC := none, trapped := true, trapping := some (e.seq, e.pc, { t with slot := e.slot, rq := true }) } })
  else if e.live then
    -- a live entry of a resume: it and the later ones stay, EPC is the resume PC (R381)
    rel.modStrand n (fun st =>
      let later (x : Entry) : Bool := x.live && !x.frame && !ordLt x.seq x.slot e.seq e.slot
      let keep := (st.open_.filter later).map (fun x => { x with
        frame := true, live := false, slip := true, caps := if x.id = e.id then [] else x.caps, rds := [] })
      { st with
        open_ := st.open_.filter (fun x => !later x)
        frame := keep ++ st.frame
        ctl := { st.ctl with epc := st.front.pc, eslot := BitVec.ofNat 2 st.front.firstSlot }
        front := { st.front with
          frameMarks := st.front.marks.map (fun m => (m.1 - st.front.seq, m.2)), waitC := none
          trapped := true, trapping := some (e.seq, e.pc, { t with slot := e.slot, rq := true }) } })
  else
    let s1 := (rel.withdrawEntry n e).dropEntry n e.id
    let t' := { t with slot := e.slot }
    let s2 := s1.modStrand n (fun st => Strand.unpopStreams { st with
      regs := unpop st.regs (entrySrcs e)
      front := if e.gang ∧ e.slot = 0 then { st.front with held := some (e.seq, e.pc, t'), trapped := true }
        else { st.front with held := none, trapped := true, trapping := some (e.seq, e.pc, t') } } e.undo)
    if e.gang ∧ e.slot = 0 then s2 else s2.tryTrap n

/-- An entry may perform: no earlier pair of B and C slots is outstanding, every earlier access of the strand has
performed (R113, R227). -/
def Strand.mayPerform (st : Strand) (e : Entry) : Bool := !st.slipped e.seq && st.performedBefore e.seq e.slot

end Sys2Proof.Machine
end

