-- ==== Sys2Proof/Machine/Flags.lean ====
section
/-! DEFINITION. Results with their flags: the shapes in which slot-B instructions deliver values, tags and flags (R51
to R53, R174, R175, R202), and the reading and clearing of FLG (Table 2-9). -/

namespace Sys2Proof.Machine

/-- PS joins the flags of a result that carries the tag (R51). -/
def withPs (t : Bool) (f : Nat) : Nat := if t then f ||| fPS else f

/-- A scalar result with its tag; flags go to lane 0 (R52, R175). -/
def sOut (v : W64) (t : Bool) (f : Nat) : BOut := { vals := [.s ⟨v, t⟩], flags := lane0Flags (withPs t f) }

/-- A scalar result of two sources: tagged when either is (R174). -/
def sOut2 (i : BIn) (f : W64 → W64 → W64 × Nat) : BOut :=
  let r := f i.sa.v i.sb.v
  sOut r.1 (i.sa.t || i.sb.t) r.2

/-- A scalar result of one source. -/
def sOut1 (i : BIn) (f : W64 → W64) : BOut := sOut (f i.sa.v) i.sa.t 0

/-- A vector result: lanes with tags and flags, under the predicate; `acc` is the third source (R127, R128, R174). -/
def vOut (i : BIn) (x : VV) (f : LaneFlags) (acc : Option VV) : BOut :=
  let r := finishVec x f i.pred i.act acc
  { vals := [.v r.1], flags := r.2 }

/-- A vector result lane by lane; each lane gives its bits, its tag and its flags. -/
def vLanes (i : BIn) (acc : Option VV) (f : Nat → El) : BOut :=
  let l := (List.range 64).map f
  vOut i (vvOfEls 32 l) (flagsOfList (l.map El.f)) acc

/-- Lane-wise forms of one source. -/
def vOut1 (i : BIn) (f : W32 → W32 × Nat) : BOut :=
  vLanes i none (fun n =>
    let r := f (lane i.va.v n)
    ⟨r.1.toNat, i.va.tag n, r.2⟩)

/-- Lane-wise forms of two sources. -/
def vOut2 (i : BIn) (f : W32 → W32 → W32 × Nat) : BOut :=
  vLanes i none (fun n =>
    let r := f (lane i.va.v n) (lane i.vb.v n)
    ⟨r.1.toNat, i.va.tag n || i.vb.tag n, r.2⟩)

/-- Lane-wise accumulating forms. -/
def vOut3 (i : BIn) (f : W32 → W32 → W32 → W32 × Nat) : BOut :=
  vLanes i (some i.vc) (fun n =>
    let r := f (lane i.va.v n) (lane i.vb.v n) (lane i.vc.v n)
    ⟨r.1.toNat, i.va.tag n || i.vb.tag n || i.vc.tag n, r.2⟩)

/-- A predicate result: for each lane its truth, its tag and its flags; only active bits are written, and a tagged
predicate tags them (R191, R372). -/
def kOut (i : BIn) (f : Nat → Bool × Bool × Nat) : BOut :=
  let l := (List.range 64).map f
  let t := maskOfList (l.map (fun x => x.2.1)) ||| i.pred.t
  { kval := some (⟨maskOfList (l.map Prod.fst), t⟩, i.act)
    flags := maskFlags (flagsOfList (l.zipIdx.map (fun x => withPs (t.getLsbD x.2) x.1.2.2))) i.act }

/-- The OR of every lane's flags (R52, Table 2-9). -/
def flagSummary (f : LaneFlags) : Nat := (List.range 64).foldl (fun a i => a ||| (laneFlags f i).toNat) 0

/-- Clear the flags named by a mask in the lanes of `m`. -/
def clearFlags (f : LaneFlags) (mask : Nat) (m : W64) : LaneFlags :=
  flagsOfList ((List.range 64).map (fun i =>
    let x := (laneFlags f i).toNat
    if m.getLsbD i then x &&& (127 - mask % 128) else x))

/-- No operation before (seq, slot) that may still set flags is outstanding (R54). -/
def Strand.flagsSettled (st : Strand) (seq slot : Nat) : Bool := st.drainedBefore seq slot && st.performedBefore seq slot

end Sys2Proof.Machine
end

