-- ==== Sys2Proof/Machine/ScalarInt.lean ====
section
/-! DEFINITION. Scalar integer instructions (R177 to R185). -/

namespace Sys2Proof.Machine

/-- Division results (Table 8-3): value and DZ. -/
def divS (a b : W64) : W64 × Nat := if b = 0 then (~~~0#64, fDZ) else (a.sdiv b, 0)
def divU (a b : W64) : W64 × Nat := if b = 0 then (~~~0#64, fDZ) else (a / b, 0)
def remS (a b : W64) : W64 × Nat := if b = 0 then (a, fDZ) else (a.srem b, 0)
def remU (a b : W64) : W64 × Nat := if b = 0 then (a, fDZ) else (a % b, 0)

/-- Shifts by the full amount (Table 8-4). -/
def shl64 (a b : W64) : W64 := if b.toNat < 64 then a <<< b.toNat else 0
def shr64 (a b : W64) : W64 := if b.toNat < 64 then a >>> b.toNat else 0
def sar64 (a b : W64) : W64 := if b.toNat < 64 then a.sshiftRight b.toNat else (if a.getLsbD 63 then ~~~0#64 else 0)
def rot64 (a b : W64) : W64 := a.rotateLeft (b.toNat % 64)

/-- The count of leading zero bits of a 64-bit value (R180). -/
def clz64 (a : W64) : W64 := BitVec.ofNat 64 (64 - bitLen a.toNat)
/-- The count of trailing zero bits, 64 for 0 (R180). -/
def ctz64 (a : W64) : W64 :=
  BitVec.ofNat 64 (((List.range 64).find? (fun i => a.getLsbD i)).getD 64)
/-- Popc (R173). -/
def popcN (w : Nat) (n : Nat) : Nat := ((List.range w).filter (fun i => n.testBit i)).length

/-- Bits [pos + lm1 : pos] of a value (R182). -/
def fieldOf (a : W64) (pos lm1 : Nat) : Nat := bitsN a.toNat (pos + lm1) pos

/-- Insert the low bits of `a` into a field of `c` (R182). -/
def insField (c a : W64) (pos lm1 : Nat) : W64 :=
  let m : W64 := BitVec.ofNat 64 ((2 ^ (lm1 + 1) - 1) <<< pos)
  (c &&& ~~~m) ||| ((a <<< pos) &&& m)

/-- An integer condition (Table 8-6) on readings as integers. -/
def intCond (c : Nat) (x y : Int) : Bool :=
  match c with
  | 0 => x == y
  | 1 => x != y
  | 2 => decide (x < y)
  | 3 => decide (y ≤ x)
  | 4 => decide (x ≤ y)
  | _ => decide (y < x)

/-- The reading of a pattern: unsigned or signed (R173). -/
def reading {w : Nat} (u : Bool) (a : BitVec w) : Int := if u then (a.toNat : Int) else a.toInt

/-- `ADD` (R177). -/
def execAdd (d a b : BitVec 6) (p q n : Bool) (k : BitVec 3) (x : Bool) (s : State) : Result :=
  s.runB 1 (.add d a b p q n k x) (fun i => sOut2 i (fun a b => (a + b, 0)))

/-- `SUB` (R177). -/
def execSub (d a b : BitVec 6) (p q n : Bool) (k : BitVec 3) (x : Bool) (s : State) : Result :=
  s.runB 1 (.sub d a b p q n k x) (fun i => sOut2 i (fun a b => (a - b, 0)))

/-- `MUL` (R177). -/
def execMul (d a b : BitVec 6) (p q n : Bool) (k : BitVec 3) (x : Bool) (s : State) : Result :=
  s.runB 3 (.mul d a b p q n k x) (fun i => sOut2 i (fun a b => (a * b, 0)))

/-- `MULH` (R177): bits [127:64] of the signed product. -/
def execMulh (d a b : BitVec 6) (p q n : Bool) (k : BitVec 3) (x : Bool) (s : State) : Result :=
  s.runB 3 (.mulh d a b p q n k x) (fun i => sOut2 i (fun a b => (BitVec.ofInt 64 (a.toInt * b.toInt / 2 ^ 64), 0)))

/-- `MULHU` (R177): bits [127:64] of the unsigned product. -/
def execMulhu (d a b : BitVec 6) (p q n : Bool) (k : BitVec 3) (x : Bool) (s : State) : Result :=
  s.runB 3 (.mulhu d a b p q n k x) (fun i => sOut2 i (fun a b => (BitVec.ofNat 64 (a.toNat * b.toNat / 2 ^ 64), 0)))

/-- `DIV` (R178). -/
def execDiv (d a b : BitVec 6) (p q n : Bool) (k : BitVec 3) (x : Bool) (s : State) : Result :=
  s.runB 12 (.div d a b p q n k x) (fun i => sOut2 i divS)

/-- `DIVU` (R178). -/
def execDivu (d a b : BitVec 6) (p q n : Bool) (k : BitVec 3) (x : Bool) (s : State) : Result :=
  s.runB 12 (.divu d a b p q n k x) (fun i => sOut2 i divU)

/-- `REM` (R178). -/
def execRem (d a b : BitVec 6) (p q n : Bool) (k : BitVec 3) (x : Bool) (s : State) : Result :=
  s.runB 12 (.rem d a b p q n k x) (fun i => sOut2 i remS)

/-- `REMU` (R178). -/
def execRemu (d a b : BitVec 6) (p q n : Bool) (k : BitVec 3) (x : Bool) (s : State) : Result :=
  s.runB 12 (.remu d a b p q n k x) (fun i => sOut2 i remU)

/-- `AND` (R177). -/
def execAnd (d a b : BitVec 6) (p q n : Bool) (k : BitVec 3) (x : Bool) (s : State) : Result :=
  s.runB 1 (.and d a b p q n k x) (fun i => sOut2 i (fun a b => (a &&& b, 0)))

/-- `OR` (R177). -/
def execOr (d a b : BitVec 6) (p q n : Bool) (k : BitVec 3) (x : Bool) (s : State) : Result :=
  s.runB 1 (.or d a b p q n k x) (fun i => sOut2 i (fun a b => (a ||| b, 0)))

/-- `XOR` (R177). -/
def execXor (d a b : BitVec 6) (p q n : Bool) (k : BitVec 3) (x : Bool) (s : State) : Result :=
  s.runB 1 (.xor d a b p q n k x) (fun i => sOut2 i (fun a b => (a ^^^ b, 0)))

/-- `ANDN` (R177). -/
def execAndn (d a b : BitVec 6) (p q n : Bool) (k : BitVec 3) (x : Bool) (s : State) : Result :=
  s.runB 1 (.andn d a b p q n k x) (fun i => sOut2 i (fun a b => (a &&& ~~~b, 0)))

/-- `SHL` (R179). -/
def execShl (d a b : BitVec 6) (p q n : Bool) (k : BitVec 3) (x : Bool) (s : State) : Result :=
  s.runB 1 (.shl d a b p q n k x) (fun i => sOut2 i (fun a b => (shl64 a b, 0)))

/-- `SHR` (R179). -/
def execShr (d a b : BitVec 6) (p q n : Bool) (k : BitVec 3) (x : Bool) (s : State) : Result :=
  s.runB 1 (.shr d a b p q n k x) (fun i => sOut2 i (fun a b => (shr64 a b, 0)))

/-- `SAR` (R179). -/
def execSar (d a b : BitVec 6) (p q n : Bool) (k : BitVec 3) (x : Bool) (s : State) : Result :=
  s.runB 1 (.sar d a b p q n k x) (fun i => sOut2 i (fun a b => (sar64 a b, 0)))

/-- `ROT` (R179). -/
def execRot (d a b : BitVec 6) (p q n : Bool) (k : BitVec 3) (x : Bool) (s : State) : Result :=
  s.runB 1 (.rot d a b p q n k x) (fun i => sOut2 i (fun a b => (rot64 a b, 0)))

/-- `MIN` (R177). -/
def execMin (d a b : BitVec 6) (p q n : Bool) (k : BitVec 3) (x : Bool) (s : State) : Result :=
  s.runB 1 (.min d a b p q n k x) (fun i => sOut2 i (fun a b => (if b.toInt < a.toInt then b else a, 0)))

/-- `MAX` (R177). -/
def execMax (d a b : BitVec 6) (p q n : Bool) (k : BitVec 3) (x : Bool) (s : State) : Result :=
  s.runB 1 (.max d a b p q n k x) (fun i => sOut2 i (fun a b => (if a.toInt < b.toInt then b else a, 0)))

/-- `MINU` (R177). -/
def execMinu (d a b : BitVec 6) (p q n : Bool) (k : BitVec 3) (x : Bool) (s : State) : Result :=
  s.runB 1 (.minu d a b p q n k x) (fun i => sOut2 i (fun a b => (if b.toNat < a.toNat then b else a, 0)))

/-- `MAXU` (R177). -/
def execMaxu (d a b : BitVec 6) (p q n : Bool) (k : BitVec 3) (x : Bool) (s : State) : Result :=
  s.runB 1 (.maxu d a b p q n k x) (fun i => sOut2 i (fun a b => (if a.toNat < b.toNat then b else a, 0)))

/-- `CLZ` (R180). -/
def execClz (d a : BitVec 6) (p n : Bool) (k : BitVec 3) (x : Bool) (s : State) : Result :=
  s.runB 1 (.clz d a p n k x) (fun i => sOut1 i clz64)

/-- `CTZ` (R180). -/
def execCtz (d a : BitVec 6) (p n : Bool) (k : BitVec 3) (x : Bool) (s : State) : Result :=
  s.runB 1 (.ctz d a p n k x) (fun i => sOut1 i ctz64)

/-- `POPC` (R180). -/
def execPopc (d a : BitVec 6) (p n : Bool) (k : BitVec 3) (x : Bool) (s : State) : Result :=
  s.runB 1 (.popc d a p n k x) (fun i => sOut1 i (fun a => BitVec.ofNat 64 (popcN 64 a.toNat)))

/-- `BFX` (R182). -/
def execBfx (d a : BitVec 6) (p : Bool) (sv l : BitVec 6) (s : State) : Result :=
  s.runB 1 (.bfx d a p sv l) (fun i => sOut1 i (fun a => BitVec.ofInt 64 (sIntN (l.toNat + 1) (fieldOf a sv.toNat l.toNat))))

/-- `BFXU` (R182). -/
def execBfxu (d a : BitVec 6) (p : Bool) (sv l : BitVec 6) (s : State) : Result :=
  s.runB 1 (.bfxu d a p sv l) (fun i => sOut1 i (fun a => BitVec.ofNat 64 (fieldOf a sv.toNat l.toNat)))

/-- `BFI` (R182): the third source with a field replaced. -/
def execBfi (d a : BitVec 6) (p : Bool) (sv l : BitVec 6) (s : State) : Result :=
  s.runB 1 (.bfi d a p sv l) (fun i => sOut (insField i.sc.v i.sa.v sv.toNat l.toNat) (i.sa.t || i.sc.t) 0)

/-- `SEXT` (R181). -/
def execSext (d a m : BitVec 6) (p n : Bool) (k : BitVec 3) (x : Bool) (s : State) : Result :=
  s.runB 1 (.sext d a m p n k x) (fun i => sOut1 i (fun a => BitVec.ofInt 64 (sIntN m.toNat (a.toNat % 2 ^ m.toNat))))

/-- `ZEXT` (R181). -/
def execZext (d a m : BitVec 6) (p n : Bool) (k : BitVec 3) (x : Bool) (s : State) : Result :=
  s.runB 1 (.zext d a m p n k x) (fun i => sOut1 i (fun a => BitVec.ofNat 64 (a.toNat % 2 ^ m.toNat)))

/-- `SEL` (R183): the condition is popped third; only it and the operand selected decide the tag (R174). -/
def execSel (d a b : BitVec 6) (p q n : Bool) (k : BitVec 3) (x : Bool) (s : State) : Result :=
  s.runB 1 (.sel d a b p q n k x) (fun i => 
    if i.sc.v ≠ 0 then sOut i.sa.v (i.sc.t || i.sa.t) 0 else sOut i.sb.v (i.sc.t || i.sb.t) 0)

/-- `MOV` (R180). -/
def execMov (d a : BitVec 6) (p n : Bool) (k : BitVec 3) (x : Bool) (s : State) : Result :=
  s.runB 1 (.mov d a p n k x) (fun i => sOut1 i (fun a => a))

/-- `MOVI` (R184): the immediate in force, an `EXT` of the bundle included (R123). -/
def execMovi (d : BitVec 6) (im : BitVec 12) (s : State) : Result :=
  s.runB 1 (.movi d im) (fun i => sOut (immOf i.st.front.ctx.ext im) false 0)

/-- `LEA` (R184). -/
def execLea (d a : BitVec 6) (p : Bool) (im : BitVec 12) (s : State) : Result :=
  s.runB 1 (.lea d a p im) (fun i => sOut1 i (fun a => a + immOf i.st.front.ctx.ext im))

/-- `CMP` (R185). -/
def execCmp (d a b : BitVec 6) (p q u : Bool) (c : BitVec 3) (s : State) : Result :=
  s.runB 1 (.cmp d a b p q u c) (fun i => sOut2 i (fun a b =>
    (if intCond c.toNat (reading u a) (reading u b) then 1 else 0, 0)))

end Sys2Proof.Machine
end

