-- ==== Sys2Proof/Machine/VectorInt.lean ====
section
/-! DEFINITION. Vector integer instructions (R186 to R200). -/

namespace Sys2Proof.Machine

/-- A clamped INT32 result with SA when it clamps (R186). -/
def sat32 (x : Int) : W32 × Nat :=
  let r := satI 32 false x
  (BitVec.ofInt 32 r.1, if r.2 then fSA else 0)

/-- Signed 16-bit half `h` of a lane. -/
def half (x : W32) (h : Nat) : Int := (x.extractLsb' (16 * h) 16).toInt
/-- Signed byte `k` of a lane. -/
def byteS (x : W32) (k : Nat) : Int := (x.extractLsb' (8 * k) 8).toInt

/-- Vector shifts (R187). -/
def shl32 (a b : W32) : W32 := if b.toNat < 32 then a <<< b.toNat else 0
def shr32 (a b : W32) : W32 := if b.toNat < 32 then a >>> b.toNat else 0
def sar32 (a b : W32) : W32 := if b.toNat < 32 then a.sshiftRight b.toNat else (if a.getLsbD 31 then ~~~0#32 else 0)

/-- A lane shifted right with rounding and saturation (R189). -/
def shrr (nw : Bool) (sh : Nat) (a : W32) : W32 × Nat :=
  let t := a.toInt + (if sh = 0 then 0 else ((2 ^ (sh - 1) : Nat) : Int))
  let r := satI (if nw then 16 else 32) false (t / ((2 ^ sh : Nat) : Int))
  (BitVec.ofInt 32 r.1, if r.2 then fSA else 0)

/-- A lane clamped to N bits (R190). -/
def satLane (u : Bool) (n : Nat) (a : W32) : W32 × Nat :=
  let r := satI n u a.toInt
  (BitVec.ofInt 32 r.1, if r.2 then fSA else 0)

/-- The combine of an integer reduction or scan at 32 bits (R200): value and SA. -/
def combine (o : Nat) (sat : Bool) (x y : W32) : W32 × Nat :=
  match o with
  | 0 => if sat then sat32 (x.toInt + y.toInt) else (x + y, 0)
  | 1 => (x &&& y, 0)
  | 2 => (x ||| y, 0)
  | 3 => (x ^^^ y, 0)
  | 4 => (if y.toInt < x.toInt then y else x, 0)
  | 5 => (if x.toInt < y.toInt then y else x, 0)
  | 6 => (if y.toNat < x.toNat then y else x, 0)
  | _ => (if x.toNat < y.toNat then y else x, 0)

/-- Identities of inactive elements (Table 2-10). -/
def identityI (o : Nat) : W32 :=
  match o with
  | 1 => ~~~0#32
  | 4 => 0x7FFFFFFF#32
  | 5 => 0x80000000#32
  | 6 => ~~~0#32
  | _ => 0

/-- One level of the pairwise tree (R55): neighbours combined, flags ORed. -/
def treeLevel {α : Type} (f : α → α → α × Nat) : List α → List α × Nat
  | x :: y :: r =>
    let (z, fl) := f x y
    let (l, g) := treeLevel f r
    (z :: l, fl ||| g)
  | l => (l, 0)

/-- The fixed pairwise tree (R55), `n` levels. -/
def treeReduce {α : Type} (f : α → α → α × Nat) : Nat → List α → Nat → List α × Nat
  | 0, l, fl => (l, fl)
  | n + 1, l, fl =>
    let (l', g) := treeLevel f l
    treeReduce f n l' (fl ||| g)

/-- Whether an operation of Table 8-13 reads its operands signed. -/
def redSigned (o : Nat) : Bool := o == 0 || o == 4 || o == 5

/-- The elements a reduction combines: values and whether each is active (R200). -/
def redElems (p16 : Bool) (o : Nat) (a : VV) (act : W64) : List (W32 × Bool) :=
  if p16 then
    (List.range 128).map (fun j =>
      let e := elemN a.v 16 j
      (if redSigned o then BitVec.ofInt 32 (sIntN 16 e) else BitVec.ofNat 32 e, act.getLsbD (j / 2)))
  else (List.range 64).map (fun j => (lane a.v j, act.getLsbD j))

/-- `VRED`'s result (R200): the value extended to 64 bits, its tag, SA. A tagged predicate bit tags it whether it is true or
not: R174 and R372 leave that open (DESIGN CHOICE, log entry 78). -/
def redOut (o : Nat) (sat p16 : Bool) (i : BIn) : BOut :=
  let l := (redElems p16 o i.va i.act).map (fun x => if x.2 then x.1 else identityI o)
  let (r, fl) := treeReduce (combine o sat) (if p16 then 7 else 6) l 0
  let z := r.headD 0
  sOut (if redSigned o then z.signExtend 64 else z.setWidth 64) ((i.va.t &&& i.act ||| i.pred.t) != 0) fl

/-- The left fold of a scan (R57): for each lane the running value, tag and flags. -/
def scanGo (o : Nat) (sat : Bool) (a : VV) (act : W64) : List Nat → Option W32 → Bool → List El
  | [], _, _ => []
  | j :: r, acc, t =>
    let x := if act.getLsbD j then lane a.v j else identityI o
    let t' := t || (act.getLsbD j && a.tag j)
    let (z, fl) := match acc with
      | none => (x, 0)
      | some y => combine o sat y x
    ⟨z.toNat, t', fl⟩ :: scanGo o sat a act r (some z) t'

/-- The packed result of `VPACK` (R192): elements 64h to 64h + 63 replaced, with SA where an element clamped. -/
def packOut (w8 sat u : Bool) (h : Nat) (i : BIn) : BOut :=
  let w := if w8 then 8 else 16
  let els : List El := (List.range (2048 / w)).map (fun e =>
    if 64 * h ≤ e ∧ e < 64 * h + 64 then
      let a := lane i.va.v (e - 64 * h)
      let t := i.va.tag (e - 64 * h)
      if sat then
        (let r := satI w u a.toInt
         ⟨truncN w r.1, t, if r.2 then fSA else 0⟩)
      else ⟨a.toNat % 2 ^ w, t, 0⟩
    else ⟨elemN i.vc.v w e, i.vc.tag (laneOfElem w e), 0⟩)
  vOut i (vvOfEls w els) (flagsOfEls w els) (some i.vc)

/-- `VSLIDE` (R195): elements of width `w` moved one place, the free place filled. -/
def slideOut (fv dn : Bool) (w : Nat) (i : BIn) : VV :=
  let n := 2048 / w
  let tg (x : VV) (e : Nat) : Bool := x.tag (laneOfElem w e)
  let fill (e : Nat) : El := if fv then ⟨elemN i.vb.v w e, tg i.vb e, 0⟩ else ⟨i.vb.v.toNat % 2 ^ w, i.sb.t, 0⟩
  let src (e : Nat) : El := ⟨elemN i.va.v w e, tg i.va e, 0⟩
  vvOfEls w ((List.range n).map (fun e =>
    if dn then (if e = n - 1 then fill 0 else src (e + 1)) else (if e = 0 then fill (n - 1) else src (e - 1))))

/-- The selected lanes of a selector vector, in order (R199). -/
def selected (b : VV) : List Nat := (List.range 64).filter (fun j => lane b.v j != 0)

/-- Whether any selector lane 0 to `j` is tagged. -/
def selTag (b : VV) (j : Nat) : Bool := (List.range (j + 1)).any (fun x => b.tag x)


/-- `VADD` (R186). -/
def execVadd (d a b : BitVec 6) (p q n : Bool) (k : BitVec 3) (x : Bool) (s : State) : Result :=
  s.runB 2 (.vadd d a b p q n k x) (fun i => vOut2 i (fun a b => (a + b, 0)))

/-- `VSUB` (R186). -/
def execVsub (d a b : BitVec 6) (p q n : Bool) (k : BitVec 3) (x : Bool) (s : State) : Result :=
  s.runB 2 (.vsub d a b p q n k x) (fun i => vOut2 i (fun a b => (a - b, 0)))

/-- `VMUL` (R186). -/
def execVmul (d a b : BitVec 6) (p q n : Bool) (k : BitVec 3) (x : Bool) (s : State) : Result :=
  s.runB 4 (.vmul d a b p q n k x) (fun i => vOut2 i (fun a b => (a * b, 0)))

/-- `VMULH` (R186). -/
def execVmulh (d a b : BitVec 6) (p q n : Bool) (k : BitVec 3) (x : Bool) (s : State) : Result :=
  s.runB 4 (.vmulh d a b p q n k x) (fun i => vOut2 i (fun a b => (BitVec.ofInt 32 (a.toInt * b.toInt / 2 ^ 32), 0)))

/-- `VMAC` (R186). -/
def execVmac (d a b : BitVec 6) (p q n : Bool) (k : BitVec 3) (x : Bool) (s : State) : Result :=
  s.runB 4 (.vmac d a b p q n k x) (fun i => vOut3 i (fun a b c => (a * b + c, 0)))

/-- `VMAC2` (R188): the second factor is the plain register v(24 + MB), read as source B. -/
def execVmac2 (d a : BitVec 6) (m : BitVec 3) (l p n : Bool) (k : BitVec 3) (x : Bool) (s : State) : Result :=
  s.runB 4 (.vmac2 d a m l p n k x) (fun i => vLanes i (some i.vc) (fun j =>
    let f := if l then 0 else j
    let a := lane i.va.v j
    let m := lane i.vb.v f
    let r := sat32 (half a 0 * half m 0 + half a 1 * half m 1 + (lane i.vc.v j).toInt)
    ⟨r.1.toNat, i.va.tag j || i.vb.tag f || i.vc.tag j, r.2⟩))

/-- `VDOT4` (R186): one clamp of the exact sum. -/
def execVdot4 (d a b : BitVec 6) (p q n : Bool) (k : BitVec 3) (x : Bool) (s : State) : Result :=
  s.runB 4 (.vdot4 d a b p q n k x) (fun i => vOut3 i (fun a b c =>
    sat32 (byteS a 0 * byteS b 0 + byteS a 1 * byteS b 1 + byteS a 2 * byteS b 2 + byteS a 3 * byteS b 3 + c.toInt)))

/-- `VABS` (R186). -/
def execVabs (d a : BitVec 6) (p n : Bool) (k : BitVec 3) (x : Bool) (s : State) : Result :=
  s.runB 2 (.vabs d a p n k x) (fun i => vOut1 i (fun a => sat32 (if a.toInt < 0 then -a.toInt else a.toInt)))

/-- `VNEG` (R186). -/
def execVneg (d a : BitVec 6) (p n : Bool) (k : BitVec 3) (x : Bool) (s : State) : Result :=
  s.runB 2 (.vneg d a p n k x) (fun i => vOut1 i (fun a => sat32 (-a.toInt)))

/-- `VMIN` (R186). -/
def execVmin (d a b : BitVec 6) (p q n : Bool) (k : BitVec 3) (x : Bool) (s : State) : Result :=
  s.runB 2 (.vmin d a b p q n k x) (fun i => vOut2 i (fun a b => (if b.toInt < a.toInt then b else a, 0)))

/-- `VMAX` (R186). -/
def execVmax (d a b : BitVec 6) (p q n : Bool) (k : BitVec 3) (x : Bool) (s : State) : Result :=
  s.runB 2 (.vmax d a b p q n k x) (fun i => vOut2 i (fun a b => (if a.toInt < b.toInt then b else a, 0)))

/-- `VAND` (R186). -/
def execVand (d a b : BitVec 6) (p q n : Bool) (k : BitVec 3) (x : Bool) (s : State) : Result :=
  s.runB 2 (.vand d a b p q n k x) (fun i => vOut2 i (fun a b => (a &&& b, 0)))

/-- `VOR` (R186). -/
def execVor (d a b : BitVec 6) (p q n : Bool) (k : BitVec 3) (x : Bool) (s : State) : Result :=
  s.runB 2 (.vor d a b p q n k x) (fun i => vOut2 i (fun a b => (a ||| b, 0)))

/-- `VXOR` (R186). -/
def execVxor (d a b : BitVec 6) (p q n : Bool) (k : BitVec 3) (x : Bool) (s : State) : Result :=
  s.runB 2 (.vxor d a b p q n k x) (fun i => vOut2 i (fun a b => (a ^^^ b, 0)))

/-- `VSHL` (R187). -/
def execVshl (d a b : BitVec 6) (p q n : Bool) (k : BitVec 3) (x : Bool) (s : State) : Result :=
  s.runB 2 (.vshl d a b p q n k x) (fun i => vOut2 i (fun a b => (shl32 a b, 0)))

/-- `VSHR` (R187). -/
def execVshr (d a b : BitVec 6) (p q n : Bool) (k : BitVec 3) (x : Bool) (s : State) : Result :=
  s.runB 2 (.vshr d a b p q n k x) (fun i => vOut2 i (fun a b => (shr32 a b, 0)))

/-- `VSAR` (R187). -/
def execVsar (d a b : BitVec 6) (p q n : Bool) (k : BitVec 3) (x : Bool) (s : State) : Result :=
  s.runB 2 (.vsar d a b p q n k x) (fun i => vOut2 i (fun a b => (sar32 a b, 0)))

/-- `VSHRR` (R189). -/
def execVshrr (d a : BitVec 6) (w : Bool) (sv : BitVec 5) (p n : Bool) (k : BitVec 3) (x : Bool) (s : State) : Result :=
  s.runB 2 (.vshrr d a w sv p n k x) (fun i => vOut1 i (shrr w sv.toNat))

/-- `VSAT` (R190): N is the field plus one. -/
def execVsat (d a : BitVec 6) (u : Bool) (sv : BitVec 5) (p n : Bool) (k : BitVec 3) (x : Bool) (s : State) : Result :=
  s.runB 2 (.vsat d a u sv p n k x) (fun i => vOut1 i (satLane u (sv.toNat + 1)))

/-- `VPACK` (R192). -/
def execVpack (d a : BitVec 6) (w t u : Bool) (h : BitVec 2) (p n : Bool) (k : BitVec 3) (x : Bool) (s : State) : Result :=
  s.runB 3 (.vpack d a w t u h p n k x) (fun i => packOut w t u h.toNat i)

/-- `VUNPK` (R193). -/
def execVunpk (d a : BitVec 6) (w u : Bool) (h : BitVec 2) (p n : Bool) (k : BitVec 3) (x : Bool) (s : State) : Result :=
  s.runB 3 (.vunpk d a w u h p n k x) (fun i => vLanes i none (fun j =>
    let b := if w then 8 else 16
    let e := 64 * h.toNat + j
    let y := elemN i.va.v b e
    ⟨if u then y else truncN 32 (sIntN b y), i.va.tag (laneOfElem b e), 0⟩))

/-- `VCMP` (R191). -/
def execVcmp (y c : BitVec 3) (a b : BitVec 6) (p q u : Bool) (k : BitVec 3) (x : Bool) (s : State) : Result :=
  s.runB 2 (.vcmp y c a b p q u k x) (fun i => kOut i (fun j =>
    (intCond c.toNat (reading u (lane i.va.v j)) (reading u (lane i.vb.v j)), i.va.tag j || i.vb.tag j, 0)))

/-- `VSEL` (R186): only the condition and the operand selected decide the tag (R174). -/
def execVsel (d a b : BitVec 6) (p q n : Bool) (k : BitVec 3) (x : Bool) (s : State) : Result :=
  s.runB 2 (.vsel d a b p q n k x) (fun i => vLanes i (some i.vc) (fun j =>
    if lane i.vc.v j ≠ 0 then ⟨(lane i.va.v j).toNat, i.vc.tag j || i.va.tag j, 0⟩
    else ⟨(lane i.vb.v j).toNat, i.vc.tag j || i.vb.tag j, 0⟩))

/-- `VSLIDE` (R195). -/
def execVslide (d a f : BitVec 6) (p q v w : Bool) (e : BitVec 2) (s : State) : Result :=
  s.runB 3 (.vslide d a f p q v w e) (fun i => vOut i (slideOut v w (32 >>> e.toNat) i) 0 none)

/-- `VBCAST` (R196): source A is scalar. -/
def execVbcast (d a : BitVec 6) (p n : Bool) (k : BitVec 3) (x : Bool) (s : State) : Result :=
  s.runB 2 (.vbcast d a p n k x) (fun i => vLanes i none (fun _ => ⟨i.sa.v.toNat % 2 ^ 32, i.sa.t, 0⟩))

/-- `VEXT` (R197). -/
def execVext (d a : BitVec 6) (p u : Bool) (l : BitVec 6) (s : State) : Result :=
  s.runB 3 (.vext d a p u l) (fun i => 
    let y := lane i.va.v l.toNat
    sOut (if u then y.setWidth 64 else y.signExtend 64) (i.va.tag l.toNat) 0)

/-- `VINS` (R197). -/
def execVins (d a : BitVec 6) (p : Bool) (l : BitVec 6) (s : State) : Result :=
  s.runB 3 (.vins d a p l) (fun i => vLanes i none (fun j =>
    if j = l.toNat then ⟨i.sa.v.toNat % 2 ^ 32, i.sa.t, 0⟩ else ⟨(lane i.vc.v j).toNat, i.vc.tag j, 0⟩))

/-- `VPERM` (R198). -/
def execVperm (d a b : BitVec 6) (p q n : Bool) (k : BitVec 3) (x : Bool) (s : State) : Result :=
  s.runB 3 (.vperm d a b p q n k x) (fun i => vLanes i none (fun j =>
    let y := lane i.vb.v j
    if y.getLsbD 31 then ⟨0, i.vb.tag j, 0⟩
    else ⟨(lane i.va.v (y.toNat % 64)).toNat, i.vb.tag j || i.va.tag (y.toNat % 64), 0⟩))

/-- `VCOMPR` (R199). -/
def execVcompr (d a b : BitVec 6) (p q n : Bool) (k : BitVec 3) (x : Bool) (s : State) : Result :=
  s.runB 3 (.vcompr d a b p q n k x) (fun i => 
    let m := selected i.vb
    vLanes i none (fun j =>
      match (m.drop j).head? with
      | some y => ⟨(lane i.va.v y).toNat, i.va.tag y || selTag i.vb y, 0⟩
      | none => ⟨0, i.vb.t != 0, 0⟩))

/-- `VEXPD` (R199). -/
def execVexpd (d a b : BitVec 6) (p q n : Bool) (k : BitVec 3) (x : Bool) (s : State) : Result :=
  s.runB 3 (.vexpd d a b p q n k x) (fun i => 
    let m := selected i.vb
    vLanes i none (fun j =>
      if lane i.vb.v j ≠ 0 then
        (let c := (m.filter (fun y => decide (y < j))).length
         ⟨(lane i.va.v c).toNat, i.va.tag c || selTag i.vb j, 0⟩)
      else ⟨0, i.vb.tag j, 0⟩))

/-- `VRED` (R200). -/
def execVred (d a : BitVec 6) (o : BitVec 3) (t sv p n : Bool) (k : BitVec 3) (x : Bool) (s : State) : Result :=
  s.runB 8 (.vred d a o t sv p n k x) (fun i => redOut o.toNat t sv i)

/-- `VSCAN` (R200): accumulating, the left fold of R57. -/
def execVscan (d a : BitVec 6) (o : BitVec 3) (t p n : Bool) (k : BitVec 3) (x : Bool) (s : State) : Result :=
  s.runB 8 (.vscan d a o t p n k x) (fun i => 
    let l := scanGo o.toNat t i.va i.act (List.range 64) none false
    vOut i (vvOfEls 32 l) (flagsOfList (l.map El.f)) (some i.vc))

/-- `VPOPC` (R186). -/
def execVpopc (d a : BitVec 6) (p n : Bool) (k : BitVec 3) (x : Bool) (s : State) : Result :=
  s.runB 2 (.vpopc d a p n k x) (fun i => vOut1 i (fun a => (BitVec.ofNat 32 (popcN 32 a.toNat), 0)))

end Sys2Proof.Machine
end

