-- ==== Sys2Proof/Machine/Float.lean ====
section
/-! DEFINITION. Floating-point instructions (R203 to R211). -/

namespace Sys2Proof.Machine

/-- An exact result delivered to FP32, RNE, saturation off (R203). -/
def toF32 (x : XRes) : W32 × Nat :=
  let r := x.deliver .fp32 .rne 0
  (BitVec.ofNat 32 r.pat, r.flags)

/-- FP32 value of a lane. -/
def fl (a : W32) : XVal := f32 a.toNat

/-- Operations on FP32 patterns (Table 9-2). -/
def fAdd (a b : W32) : W32 × Nat := toF32 (xAdd .rne (fl a) (fl b))
def fSub (a b : W32) : W32 × Nat := toF32 (xAdd .rne (fl a) (fl b).negate)
def fMul (a b : W32) : W32 × Nat := toF32 (xMulR (fl a) (fl b))
def fFma (a b c : W32) : W32 × Nat := toF32 (xDot .rne [(fl a, fl b)] [fl c])
def fFnma (a b c : W32) : W32 × Nat := toF32 (xDot .rne [((fl a).negate, fl b)] [fl c])
def fDiv (a b : W32) : W32 × Nat := toF32 (xDiv (fl a) (fl b))
def fSqrt (a : W32) : W32 × Nat := toF32 (xSqrt (fl a))
def fMin (a b : W32) : W32 × Nat :=
  let r := fMinMax false a.toNat b.toNat
  (BitVec.ofNat 32 r.pat, r.flags)
def fMax (a b : W32) : W32 × Nat :=
  let r := fMinMax true a.toNat b.toNat
  (BitVec.ofNat 32 r.pat, r.flags)
def fScale (a b : W32) : W32 × Nat := toF32 (xScale (fl a) b.toInt)
def fDot2 (a b c : W32) : W32 × Nat :=
  let h (x : W32) (j : Nat) : XVal := bf16 (x.extractLsb' (16 * j) 16).toNat
  toF32 (xDot .rne [(h a 0, h b 0), (h a 1, h b 1)] [fl c])

/-- The FP32 operand of a scalar register (R126). -/
def SV.f (x : SV) : W32 := x.v.setWidth 32

/-- A scalar FP32 result of two sources, zero-extended (R126). -/
def fOut2 (i : BIn) (f : W32 → W32 → W32 × Nat) : BOut :=
  let r := f i.sa.f i.sb.f
  sOut (r.1.setWidth 64) (i.sa.t || i.sb.t) r.2

/-- States of the generator after each of the next `n` draws (R45, R46). -/
def srngStates (x : W64) : Nat → List W64
  | 0 => []
  | n + 1 => srngNext x :: srngStates (srngNext x) n

/-- The combine of a floating-point reduction under a mode, with a draw (R210). -/
def fCombine (o : Nat) (mode : RMode) (r : Nat) (x y : W32) : W32 × Nat :=
  match o with
  | 0 =>
    let z := (xAdd mode (fl x) (fl y)).deliver .fp32 mode r
    (BitVec.ofNat 32 z.pat, z.flags)
  | 1 => fMin x y
  | _ => fMax x y

/-- One level of the tree with the generator advanced for each combine under SR (R56). -/
def fTreeLevel (o : Nat) (mode : RMode) (sr : Bool) : List W32 → W64 → List W32 × Nat × W64
  | x :: y :: r, g =>
    let g1 := if sr then srngNext g else g
    let (z, fl) := fCombine o mode (srngDraw g1) x y
    let (l, f2, g2) := fTreeLevel o mode sr r g1
    (z :: l, fl ||| f2, g2)
  | l, g => (l, 0, g)

/-- The tree, `n` levels. -/
def fTree (o : Nat) (mode : RMode) (sr : Bool) : Nat → List W32 → Nat → W64 → List W32 × Nat × W64
  | 0, l, fl, g => (l, fl, g)
  | n + 1, l, fl, g =>
    let (l', f, g') := fTreeLevel o mode sr l g
    fTree o mode sr n l' (fl ||| f) g'

/-- Identities of inactive elements: -0.0, +inf, -inf (Table 2-10). -/
def fIdentity (o : Nat) : W32 :=
  match o with
  | 0 => 0x80000000#32
  | 1 => 0x7F800000#32
  | _ => 0xFF800000#32

/-- `VFRED`'s result (R210); any tagged bit of the predicate, active or not, tags it (DESIGN CHOICE, log entry 78). -/
def fredOut (o rm : Nat) (p16 : Bool) (i : BIn) : BOut :=
  let mode := RMode.ofField rm
  let sr := rm == 4
  let els : List (W32 × Nat) :=
    if p16 then (List.range 128).map (fun j =>
      if i.act.getLsbD (j / 2) then
        (let r := FFmt.fp32.encode .rne false 0 (bf16 (elemN i.va.v 16 j))
         (BitVec.ofNat 32 r.pat, r.flags))
      else (fIdentity o, 0))
    else (List.range 64).map (fun j => (if i.act.getLsbD j then lane i.va.v j else fIdentity o, 0))
  let (l, fl, g) := fTree o mode sr (if p16 then 7 else 6) (els.map Prod.fst) (els.foldl (fun a e => a ||| e.2) 0)
    i.st.ctl.srng
  { sOut ((l.headD 0).setWidth 64) ((i.va.t &&& i.act ||| i.pred.t) != 0) fl with rng := if sr then some g else none }

/-- `FADD` (R204). -/
def execFadd (d a b : BitVec 6) (p q n : Bool) (k : BitVec 3) (x : Bool) (s : State) : Result :=
  s.runB 4 (.fadd d a b p q n k x) (fun i => fOut2 i fAdd)

/-- `FSUB` (R204). -/
def execFsub (d a b : BitVec 6) (p q n : Bool) (k : BitVec 3) (x : Bool) (s : State) : Result :=
  s.runB 4 (.fsub d a b p q n k x) (fun i => fOut2 i fSub)

/-- `FMUL` (R204). -/
def execFmul (d a b : BitVec 6) (p q n : Bool) (k : BitVec 3) (x : Bool) (s : State) : Result :=
  s.runB 4 (.fmul d a b p q n k x) (fun i => fOut2 i fMul)

/-- `FMA` (R204): the third source is the addend. -/
def execFma (d a b : BitVec 6) (p q n : Bool) (k : BitVec 3) (x : Bool) (s : State) : Result :=
  s.runB 4 (.fma d a b p q n k x) (fun i => 
    let r := fFma i.sa.f i.sb.f i.sc.f
    sOut (r.1.setWidth 64) (i.sa.t || i.sb.t || i.sc.t) r.2)

/-- `FDIV` (R204). -/
def execFdiv (d a b : BitVec 6) (p q n : Bool) (k : BitVec 3) (x : Bool) (s : State) : Result :=
  s.runB 16 (.fdiv d a b p q n k x) (fun i => fOut2 i fDiv)

/-- `FSQRT` (R204). -/
def execFsqrt (d a : BitVec 6) (p n : Bool) (k : BitVec 3) (x : Bool) (s : State) : Result :=
  s.runB 16 (.fsqrt d a p n k x) (fun i => 
    let r := fSqrt i.sa.f
    sOut (r.1.setWidth 64) i.sa.t r.2)

/-- `FMIN` (R206). -/
def execFmin (d a b : BitVec 6) (p q n : Bool) (k : BitVec 3) (x : Bool) (s : State) : Result :=
  s.runB 2 (.fmin d a b p q n k x) (fun i => fOut2 i fMin)

/-- `FMAX` (R206). -/
def execFmax (d a b : BitVec 6) (p q n : Bool) (k : BitVec 3) (x : Bool) (s : State) : Result :=
  s.runB 2 (.fmax d a b p q n k x) (fun i => fOut2 i fMax)

/-- `FCMP` (R208). -/
def execFcmp (d a b : BitVec 6) (p q n : Bool) (c : BitVec 3) (s : State) : Result :=
  s.runB 2 (.fcmp d a b p q n c) (fun i => fOut2 i (fun a b =>
    let r := fCond c.toNat a.toNat b.toNat
    (if r.1 then 1 else 0, if r.2 then fIV else 0)))

/-- `VFADD` (R204). -/
def execVfadd (d a b : BitVec 6) (p q n : Bool) (k : BitVec 3) (x : Bool) (s : State) : Result :=
  s.runB 4 (.vfadd d a b p q n k x) (fun i => vOut2 i fAdd)

/-- `VFSUB` (R204). -/
def execVfsub (d a b : BitVec 6) (p q n : Bool) (k : BitVec 3) (x : Bool) (s : State) : Result :=
  s.runB 4 (.vfsub d a b p q n k x) (fun i => vOut2 i fSub)

/-- `VFMUL` (R204). -/
def execVfmul (d a b : BitVec 6) (p q n : Bool) (k : BitVec 3) (x : Bool) (s : State) : Result :=
  s.runB 4 (.vfmul d a b p q n k x) (fun i => vOut2 i fMul)

/-- `VFMA` (R204). -/
def execVfma (d a b : BitVec 6) (p q n : Bool) (k : BitVec 3) (x : Bool) (s : State) : Result :=
  s.runB 4 (.vfma d a b p q n k x) (fun i => vOut3 i fFma)

/-- `VFNMA` (R204). -/
def execVfnma (d a b : BitVec 6) (p q n : Bool) (k : BitVec 3) (x : Bool) (s : State) : Result :=
  s.runB 4 (.vfnma d a b p q n k x) (fun i => vOut3 i fFnma)

/-- `VFMIN` (R206). -/
def execVfmin (d a b : BitVec 6) (p q n : Bool) (k : BitVec 3) (x : Bool) (s : State) : Result :=
  s.runB 2 (.vfmin d a b p q n k x) (fun i => vOut2 i fMin)

/-- `VFMAX` (R206). -/
def execVfmax (d a b : BitVec 6) (p q n : Bool) (k : BitVec 3) (x : Bool) (s : State) : Result :=
  s.runB 2 (.vfmax d a b p q n k x) (fun i => vOut2 i fMax)

/-- `VFABS` (R207). -/
def execVfabs (d a : BitVec 6) (p n : Bool) (k : BitVec 3) (x : Bool) (s : State) : Result :=
  s.runB 2 (.vfabs d a p n k x) (fun i => vOut1 i (fun a => (a &&& 0x7FFFFFFF#32, 0)))

/-- `VFNEG` (R207). -/
def execVfneg (d a : BitVec 6) (p n : Bool) (k : BitVec 3) (x : Bool) (s : State) : Result :=
  s.runB 2 (.vfneg d a p n k x) (fun i => vOut1 i (fun a => (a ^^^ 0x80000000#32, 0)))

/-- `VFDIV` (R204). -/
def execVfdiv (d a b : BitVec 6) (p q n : Bool) (k : BitVec 3) (x : Bool) (s : State) : Result :=
  s.runB 16 (.vfdiv d a b p q n k x) (fun i => vOut2 i fDiv)

/-- `VFSQRT` (R204). -/
def execVfsqrt (d a : BitVec 6) (p n : Bool) (k : BitVec 3) (x : Bool) (s : State) : Result :=
  s.runB 16 (.vfsqrt d a p n k x) (fun i => vOut1 i fSqrt)

/-- `VFRCP` (R204, Table 9-3). -/
def execVfrcp (d a : BitVec 6) (p n : Bool) (k : BitVec 3) (x : Bool) (s : State) : Result :=
  s.runB 16 (.vfrcp d a p n k x) (fun i => vOut1 i (fun a => toF32 (xRcp (fl a))))

/-- `VFRSQ` (R204, Table 9-3). -/
def execVfrsq (d a : BitVec 6) (p n : Bool) (k : BitVec 3) (x : Bool) (s : State) : Result :=
  s.runB 16 (.vfrsq d a p n k x) (fun i => vOut1 i (fun a => toF32 (xRsq (fl a))))

/-- `VFEXP2` (R204, Table 9-3). -/
def execVfexp2 (d a : BitVec 6) (p n : Bool) (k : BitVec 3) (x : Bool) (s : State) : Result :=
  s.runB 12 (.vfexp2 d a p n k x) (fun i => vOut1 i (fun a => toF32 (xExp2 (fl a))))

/-- `VFLOG2` (R204, Table 9-3). -/
def execVflog2 (d a : BitVec 6) (p n : Bool) (k : BitVec 3) (x : Bool) (s : State) : Result :=
  s.runB 12 (.vflog2 d a p n k x) (fun i => vOut1 i (fun a => toF32 (xLog2 (fl a))))

/-- `VFCMP` (R208). -/
def execVfcmp (y c : BitVec 3) (a b : BitVec 6) (p q n : Bool) (k : BitVec 3) (x : Bool) (s : State) : Result :=
  s.runB 2 (.vfcmp y c a b p q n k x) (fun i => kOut i (fun j =>
    let r := fCond c.toNat (lane i.va.v j).toNat (lane i.vb.v j).toNat
    (r.1, i.va.tag j || i.vb.tag j, if r.2 then fIV else 0)))

/-- `VFCLASS` (R209). -/
def execVfclass (d a : BitVec 6) (p n : Bool) (k : BitVec 3) (x : Bool) (s : State) : Result :=
  s.runB 2 (.vfclass d a p n k x) (fun i => vOut1 i (fun a => (BitVec.ofNat 32 (fClass a.toNat), 0)))

/-- `VFRED` (R210). -/
def execVfred (d a : BitVec 6) (o : BitVec 2) (r : BitVec 3) (sv p n : Bool) (k : BitVec 3) (x : Bool) (s : State) : Result :=
  s.runB 12 (.vfred d a o r sv p n k x) (fun i => fredOut o.toNat r.toNat sv i)

/-- `VFDOT2` (R211). -/
def execVfdot2 (d a b : BitVec 6) (p q n : Bool) (k : BitVec 3) (x : Bool) (s : State) : Result :=
  s.runB 5 (.vfdot2 d a b p q n k x) (fun i => vOut3 i fDot2)

/-- `VSCALE` (R204, R216). -/
def execVscale (d a b : BitVec 6) (p q n : Bool) (k : BitVec 3) (x : Bool) (s : State) : Result :=
  s.runB 4 (.vscale d a b p q n k x) (fun i => vOut2 i fScale)

end Sys2Proof.Machine
end

