-- ==== Sys2Proof/Machine/Convert.lean ====
section
/-! DEFINITION. Conversions (R212 to R215), codebook and quantising instructions (R217 to R221), reading and clearing
of flags (R222, R223). -/

namespace Sys2Proof.Machine

/-- An element of width `w` of a register group, whose registers hold `2048 / w` elements each (R214). -/
def groupElem (l : List VV) (w e : Nat) : Nat × Bool :=
  let per := 2048 / w
  let x := (l.drop (e / per)).headD VV.zero
  (elemN x.v w (e % per), x.tag (laneOfElem w (e % per)))

/-- `VCVT`'s results (R214): every element converted in ascending order, one draw each under SR (R45). -/
def cvtOut (sv t : Nat) (rm : Nat) (sat : Bool) (i : BIn) : BOut :=
  let sf := EFmt.ofCode sv
  let df := EFmt.ofCode t
  let n := 2048 / Nat.min sf.bits df.bits
  let sr := rm == 4 && convertDraws sf df
  let gs := if sr then srngStates i.st.ctl.srng n else List.replicate n i.st.ctl.srng
  let els : List El := ((List.range n).zip gs).map (fun p =>
    let (x, tg) := groupElem i.a sf.bits p.1
    let y := convertElem sf df (.ofField rm) sat (srngDraw p.2) x
    ⟨y.pat, tg, y.flags⟩)
  let per := 2048 / df.bits
  let outs := (List.range (n / per)).map (fun j => (els.drop (per * j)).take per)
  { vals := outs.map (fun l => .v (vvOfEls df.bits l))
    flags := (outs.map (fun l => flagsOfEls df.bits l)).foldl (fun a b => a ||| b) 0
    rng := if sr then gs.getLast? else none }

/-- Lanes converted one by one, one draw for each active lane under SR (R45, R215). -/
def cvtLanes (i : BIn) (sr : Bool) (f : Nat → W32 → Rounded) : BOut :=
  let act := (List.range 64).filter (fun j => i.act.getLsbD j)
  let gs := srngStates i.st.ctl.srng act.length
  let o := vLanes i none (fun j =>
    let g := if sr then (gs.drop (act.filter (fun y => decide (y < j))).length).headD 0 else i.st.ctl.srng
    let y := f (srngDraw g) (lane i.va.v j)
    ⟨y.pat, i.va.tag j, y.flags⟩)
  { o with rng := if sr then gs.getLast? else none }

/-- Run a slot-B instruction once a condition on its strand holds; it stalls until then (R54, R282). -/
def State.runBWhen (s : State) (ok : Bool) (lat : Nat) (i : Instr) (f : BIn → BOut) : Result :=
  match checkInstr s s.cur 1 i with
  | .go .. => if ok then s.runB lat i f else .next (s.stall s.cur)
  | _ => s.runB lat i f

/-- Run a reader of codebook bank `b` (R75, R282): it waits for an earlier writer of its strand, captures the current
copy, and releases it at write-back. -/
def State.runReader (s : State) (lat : Nat) (i : Instr) (b : Nat) (f : BankCopy → BIn → BOut) : Result :=
  let k := (s.core (coreOf s.cur)).bank b
  s.runBWhen (!s.me.bankPending b) lat i (fun x => { f k.current x with caps := [(b, k.curIdx)] })

/-- `VCBX`'s result (R217). -/
def cbxOut (part : Nat) (c : BankCopy) (i : BIn) : BOut :=
  let lp := lanesPer c.mode
  vLanes i none (fun j =>
    let b := (32 * part + j / lp) % 256
    let e := ((expandLanes c (elemN i.va.v 8 b)).drop (j % lp)).headD ⟨0, true, 0⟩
    ⟨e.v, e.t || i.va.tag (b / 4), e.f⟩)

/-- The candidates of `VQNT` (R218): indices below `n` whose entry is valid, scalar and not a NaN, with their values. -/
def qntCands (c : BankCopy) (n : Nat) : List (Nat × XVal) :=
  if 1 ≤ c.mode ∧ c.mode ≤ 6 then
    (List.range n).filterMap (fun k =>
      match c.entry k with
      | none => none
      | some e => match entryVals c.mode e with
        | v :: _ => if v.isNan then none else some (k, v)
        | [] => none)
  else []

/-- |x - v| as a pair ordered like the distance: infinite or not, then the exact difference over 2^q. -/
def distance (x v : XVal) (q : Int) : Bool × Nat :=
  match x, v with
  | .fin n m e, .fin t k f => (false, (scaledAt q n m e - scaledAt q t k f).natAbs)
  | _, _ => (true, 0)

/-- The nearest candidate to x, ties to the lowest index (R218). -/
def qntPick (x : XVal) (l : List (Nat × XVal)) : Option (Nat × XVal) :=
  match x with
  | .inf neg =>
    l.foldl (fun (best : Option (Nat × XVal)) c => match best with
      | none => some c
      | some b => if (if neg then xLt c.2 b.2 else xLt b.2 c.2) then some c else some b) none
  | _ =>
    let q : Int := l.foldl (fun q c => match c.2 with
      | .fin _ _ e => min q e
      | _ => q) (match x with
        | .fin _ _ e => e
        | _ => 0)
    l.foldl (fun (best : Option (Nat × XVal)) c => match best with
      | none => some c
      | some b =>
        let d := distance x c.2 q
        let e := distance x b.2 q
        if (e.1 && !d.1) || (d.1 == e.1 && decide (d.2 < e.2)) then some c else some b) none

/-- Elements 64h to 64h + 63 of width `w` of the third source replaced by codes (R218 to R220). -/
def replaceCodes (i : BIn) (w h : Nat) (f : Nat → El) : BOut :=
  let els : List El := (List.range (2048 / w)).map (fun e =>
    if 64 * h ≤ e ∧ e < 64 * h + 64 then f (e - 64 * h)
    else ⟨elemN i.vc.v w e, i.vc.tag (laneOfElem w e), 0⟩)
  vOut i (vvOfEls w els) (flagsOfEls w els) (some i.vc)

/-- `VQNT`'s result (R218). -/
def qntOut (iw : Bool) (h : Nat) (c : BankCopy) (i : BIn) : BOut :=
  let l := qntCands c (if iw then 16 else 256)
  replaceCodes i (if iw then 4 else 8) h (fun e =>
    let x := f32 (lane i.va.v e).toNat
    let t := i.va.tag e
    if l.isEmpty then ⟨0, true, if x.isNan then fIV else 0⟩
    else if x.isNan then ⟨0, t, fIV⟩
    else match qntPick x l with
      | none => ⟨0, true, 0⟩
      | some (k, v) => ⟨k, t, if xCmp x v == .eq then 0 else fIX⟩)

/-- The largest magnitude of the lanes of a block that are not NaN (R219, R220). -/
def blockMax (l : List XVal) : XVal := l.foldl (fun m x => if x.isNan then m else if xLt m x.abs then x.abs else m) (.fin false 0 0)

/-- `VQ4N.S` (R219): the scale code, its flags. -/
def q4nScaleOf (lanes : List XVal) (sPat : Nat) : Nat × Nat :=
  let sg := if lanes.any XVal.isSig then fIV else 0
  match f32 sPat with
  | .nan _ => (0, fIV)
  | .inf _ => (0, fIV)
  | .fin n m _ =>
    if n ∨ m = 0 then (0, fIV)
    else
      let mx := blockMax lanes
      match (List.range 255).find? (fun u => !xLt (f32 (u8Scale (u + 1) sPat)) mx) with
      | some u => (u + 1, sg)
      | none => (255, sg ||| fSA)

/-- emax of an element format (R220). -/
def mxEmax (ef : Nat) : Int :=
  match ef with
  | 0 => 8
  | 1 => 15
  | 2 => 2
  | _ => 0

/-- Width of an element format of `VMXQ`. -/
def mxWidth (ef : Nat) : Nat := if ef = 2 then 4 else 8

/-- One element of a block under scale code x (R220); an infinite one takes the flags of Table 2-7, also where EF = INT8
(DESIGN CHOICE, log entry 90). -/
def mxElem (ef x : Nat) (a : XVal) : Rounded :=
  let v := (xScale a (127 - (x : Int))).val
  match ef with
  | 0 => FFmt.e4m3.encode .rne true 0 v
  | 1 => FFmt.e5m2.encode .rne true 0 v
  | 2 => FFmt.e2m1.encode .rne true 0 v
  | _ =>
    match v with
    | .fin n m e =>
      let (k, exact) := roundInt .rne 0 n m (e + 6)
      let (y, c) := satI 8 false k
      ⟨truncN 8 y, (if exact then 0 else fIX) ||| (if c then fSA else 0)⟩
    | w => xToInt 8 false .rne true 0 w

/-- The scale code of a block (R220). -/
def mxScale (ef : Nat) (l : List XVal) : Nat :=
  if l.any XVal.isNan then 255
  else match blockMax l with
    | .inf _ => 254
    | .nan _ => 255
    | .fin _ m e =>
      if m = 0 then 127
      else (clampI 0 254 ((bitLen m : Int) - 1 + e - mxEmax ef + 127)).toNat

/-- `VMXQ`'s results (R220). -/
def mxqOut (ef h : Nat) (i : BIn) : BOut :=
  let xs := (List.range 64).map (fun j => f32 (lane i.va.v j).toNat)
  let blk (b : Nat) : List XVal := (xs.drop (32 * b)).take 32
  let sc (b : Nat) : Nat := mxScale ef (blk b)
  let tg (b : Nat) : Bool := (List.range 32).any (fun j => i.va.tag (32 * b + j))
  let x0 := sc 0
  let x1 := sc 1
  let o := replaceCodes i (mxWidth ef) h (fun e =>
    let x := if e < 32 then x0 else x1
    let a := (xs.drop e).headD (.fin false 0 0)
    if x = 255 then
      (let r := mxElem ef 127 (.nan false)
       ⟨r.pat, tg (e / 32), fIV⟩)
    else
      let r := mxElem ef x a
      ⟨r.pat, tg (e / 32), r.flags⟩)
  { o with vals := o.vals ++ [.s ⟨BitVec.ofNat 64 (x0 + 256 * x1), tg 0 || tg 1⟩] }

/-- `FCVT` (R213). -/
def execFcvt (d a : BitVec 6) (p : Bool) (sv t : BitVec 4) (r : BitVec 3) (u : Bool) (s : State) : Result :=
  s.runB 3 (.fcvt d a p sv t r u) (fun i => 
    let sf := EFmt.ofCode sv.toNat
    let df := EFmt.ofCode t.toNat
    let sr := r.toNat == 4 && convertDraws sf df
    let g := if sr then srngNext i.st.ctl.srng else i.st.ctl.srng
    let y := convertElem sf df (.ofField r.toNat) u (srngDraw g) (i.sa.v.toNat % 2 ^ sf.bits)
    let v : W64 := match df.int? with
      | some w => BitVec.ofInt 64 (sIntN w y.pat)
      | none => BitVec.ofNat 64 y.pat
    { sOut v i.sa.t y.flags with rng := if sr then some g else none })

/-- `VCVT` (R214). -/
def execVcvt (d a : BitVec 6) (p : Bool) (sv t : BitVec 4) (r : BitVec 3) (u : Bool) (s : State) : Result :=
  s.runB 3 (.vcvt d a p sv t r u) (fun i => cvtOut sv.toNat t.toNat r.toNat u i)

/-- `VCVTI` (R215). -/
def execVcvti (d a : BitVec 6) (r : BitVec 3) (t u p n : Bool) (k : BitVec 3) (x : Bool) (s : State) : Result :=
  s.runB 3 (.vcvti d a r t u p n k x) (fun i => cvtLanes i (r.toNat == 4) (fun w a =>
    xToInt 32 u (.ofField r.toNat) t w (fl a)))

/-- `VCVTF` (R215). -/
def execVcvtf (d a : BitVec 6) (r : BitVec 3) (u p n : Bool) (k : BitVec 3) (x : Bool) (s : State) : Result :=
  s.runB 3 (.vcvtf d a r u p n k x) (fun i => cvtLanes i (r.toNat == 4) (fun w a =>
    FFmt.fp32.encode (.ofField r.toNat) false w (.ofInt (reading u a))))

/-- `VCBX` (R217). -/
def execVcbx (d a : BitVec 6) (b t : BitVec 3) (p n : Bool) (k : BitVec 3) (x : Bool) (s : State) : Result :=
  s.runReader 3 (.vcbx d a b t p n k x) b.toNat (cbxOut t.toNat)

/-- `VQNT` (R218). -/
def execVqnt (d a : BitVec 6) (b : BitVec 3) (w p n : Bool) (h : BitVec 3) (s : State) : Result :=
  s.runReader 6 (.vqnt d a b w p n h) b.toNat (qntOut w h.toNat)

/-- `VQ4N.S` (R219, MODE 1). -/
def execVq4nS (d a b : BitVec 6) (p q n : Bool) (s : State) : Result :=
  s.runB 6 (.vq4nS d a b p q n) (fun i =>
    let r := q4nScaleOf ((List.range 64).map (fun j => f32 (lane i.va.v j).toNat)) i.sb.f.toNat
    sOut (BitVec.ofNat 64 r.1) (i.va.t != 0 || i.sb.t) r.2)

/-- `VQ4N` (R219, MODE 0). The scale of the block stands in B; every code carries the tag of any element of the block (R202). -/
def execVq4n (d a b : BitVec 6) (p q n : Bool) (h : BitVec 3) (s : State) : Result :=
  s.runB 6 (.vq4n d a b p q n h) (fun i =>
    let c := u8Scale (bitsN i.sb.v.toNat 39 32) i.sb.f.toNat
    replaceCodes i 4 h.toNat (fun e =>
      let r := q4nQuant (lane i.va.v e).toNat c
      ⟨r.pat, i.va.t != 0 || i.sb.t, r.flags⟩))

/-- `VMXQ` (R220, R221): codes to D, scales to E. -/
def execVmxq (d a e : BitVec 6) (p n : Bool) (f : BitVec 2) (h : BitVec 3) (s : State) : Result :=
  s.runB 6 (.vmxq d a e p n f h) (mxqOut f.toNat h.toNat)

/-- `VFLGR` (R222): after every earlier flag update of the strand (R54). -/
def execVflgr (d : BitVec 6) (s : State) : Result :=
  s.runBWhen (s.me.flagsSettled s.me.front.ctx.seq 1) 1 (.vflgr d) (fun i =>
    { vals := [.v ⟨vecOf (fun j => (laneFlags i.st.ctl.flags j).setWidth 32), 0⟩] })

/-- `VFLGC` (R223): after every earlier flag update of the strand and before every later one (R54). -/
def execVflgc (m : BitVec 7) (k : BitVec 3) (x : Bool) (s : State) : Result :=
  match checkInstr s s.cur 1 (.vflgc m k x) with
  | .skip => .next s
  | .stall => .next (s.stall s.cur)
  | .trap t => .next (s.raise s.cur t)
  | .go _ _ _ _ _ act _ _ =>
    if s.me.flagsSettled s.me.front.ctx.seq 1 then
      .next (s.modStrand s.cur (fun st => { st with ctl := { st.ctl with flags := clearFlags st.ctl.flags m.toNat act } }))
    else .next (s.stall s.cur)

end Sys2Proof.Machine
end

