-- ==== Sys2Proof/Machine/Issue.lean ====
section
/-! DEFINITION. How a strand issues: code lines and the fetch checks (R104 to R109), slip and the waits of slot A (R110 to
R113, R426), the direction of `LOOP` (R153), gang mode (R114 to R120), single-step (R119). The meaning of a slot is the
argument `ex`. -/

namespace Sys2Proof.Machine

/-! ### Code lines (Table 5-1, R106, R107, R145) -/

def linkOwn (w : W32) : Nat := bitsN w.toNat 31 28
def linkNxt (w : W32) : Int := sIntN 24 (bitsN w.toNat 27 4)
def linkCnt (w : W32) : Nat := bitsN w.toNat 3 1
def linkLast (w : W32) : Bool := w.getLsbD 0

/-- The address of a PC value's line. -/
def lineOf (pc : W64) : W64 := pc &&& ~~~63#64
/-- The bundle index of a PC value. -/
def bundleOf (pc : W64) : Nat := pc.toNat % 8

/-- The line at a signed offset in lines. -/
def lineAt (pc : W64) (off : Int) : W64 := lineOf pc + BitVec.ofInt 64 (64 * off)

/-- NextPC of a bundle, and whether it falls off a line with L = 1 (R107, R145). -/
def nextPc (pc : W64) (link : W32) : W64 × Bool :=
  let i := bundleOf pc
  if i + 1 < linkCnt link then (lineOf pc + BitVec.ofNat 64 (i + 1), false)
  else if linkLast link then (lineOf pc + BitVec.ofNat 64 (linkCnt link), true)
  else (lineAt pc (linkNxt link), false)

/-- The target of a branch by line offset and bundle index (R106). -/
def branchTo (pc : W64) (off : Int) (bidx : BitVec 3) : W64 := lineAt pc off + bidx.setWidth 64

/-! ### Fetch (Table 5-2) -/

/-- Subcauses of FETCH. -/
def fEnd : Nat := 0
def fBundle : Nat := 1
def fOwn : Nat := 2
def fLink : Nat := 3

inductive Fetched where
  | wait
  | fault (t : Trap)
  | ok (link wa wb wc : W32)

/-- A 32-bit word of bytes. -/
def word32 (l : List Byte) (o : Nat) : W32 := BitVec.ofNat 32 (leNat ((l.drop o).take 4))

/-- The checks of Table 5-2 at a PC of strand `n`, in order; the line is read as it stands, and read
and checked again for every bundle of it (R109; DESIGN CHOICE, log entry 16). -/
def State.fetch (s : State) (n : Nat) (pc : W64) (fellOff : Bool) : State × Fetched :=
  let a := lineOf pc
  let (s1, r) := s.xlate n a .fetch
  let bad (sub : Nat) : State × Fetched := (s1, .fault { cause := .fetch, sub := sub, fx := true })
  match r with
  | .miss => (s1, .wait)
  | .fault c x => (s1, .fault { cause := c, sub := x, fx := true, eaddr := a })
  | .ok pa _ =>
    if !paHome pa then (s1, .fault { cause := .xlate, sub := xBadpa, fx := true, eaddr := a })
    else if s1.marked (pa / 256) then (s1, .fault { cause := .memue, fx := true, eaddr := a })
    else
      let l := s1.readBytes pa 64
      let link := word32 l 0
      if linkCnt link = 0 ∨ 5 < linkCnt link ∨ (linkLast link ∧ linkNxt link ≠ 0) then bad fLink
      else if !((linkOwn link).testBit (posInCore n)) then bad fOwn
      else if fellOff then bad fEnd
      else if bitsN pc.toNat 5 3 ≠ 0 ∨ linkCnt link ≤ bundleOf pc then bad fBundle
      else
        let o := 4 + 12 * bundleOf pc
        (s1, .ok link (word32 l o) (word32 l (o + 4)) (word32 l (o + 8)))

/-! ### Names (R112) -/

/-- Registers, predicates and streams that a slot names: a list of (file, number), file 0 scalar, 1 vector, 2 predicate,
3 stream. Codes 48 to 50 name none; k0 is no register that a wait could concern. -/
def slotNames (i : Instr) : List (Nat × Nat) :=
  let f := opForm i
  let reg (x : RFile × BitVec 6) : List (Nat × Nat) :=
    let c := x.2.toNat
    if c < 32 then [(if x.1 = .s then 0 else 1, c)] else if c < 48 ∧ x.1 = .v then [(3, c - 32)] else []
  let kp (k : BitVec 3) : List (Nat × Nat) := if k = 0 then [] else [(2, k.toNat)]
  f.srcs.flatMap (fun x => reg (x.file, x.code)) ++ f.dests.flatMap reg ++
    (match f.pred with
     | some (k, _) => kp k
     | none => []) ++
    (match f.kd with
     | some k => kp k
     | none => []) ++
    (match streamNamed i with
     | some q => [(3, q)]
     | none => []) ++
    (match i with
     | .qdepth _ r => [(1, r.toNat)]
     | _ => [])

/-- Banks that a chain word expands through. -/
def chainBanks (w : W64) : List Nat :=
  match stagesOf w with
  | .ok l => l.filterMap (fun x => match x with
      | .expand _ b => some b
      | _ => none)
  | .error _ => []

/-- Banks that the chains of `SCHAIN` operations still open on stream `q` will expand through. -/
def Strand.chainsOpen (st : Strand) (q : Nat) : List Nat :=
  st.open_.flatMap (fun e => match e.instr with
    | .schain _ _ _ _ _ r => if r.toNat = q then chainBanks e.x.toSV.v else []
    | _ => [])

/-- Codebook banks that a slot B reads: its own field, and those of a stream it reads, as bound and as an open `SCHAIN` will
leave it. -/
def banksRead (st : Strand) (i : Instr) : List Nat :=
  (match i with
   | .vcbx _ _ b .. => [b.toNat]
   | .vqnt _ _ b .. => [b.toNat]
   | _ => []) ++
  (opForm i).srcs.flatMap (fun x =>
    let c := x.code.toNat
    if x.file = .v ∧ 32 ≤ c ∧ c < 48 then
      (match mget? st.streams (c - 32) with
       | some q => q.banks
       | none => []) ++ st.chainsOpen (c - 32)
    else [])

def decodedNames (d : Decoded) : List (Nat × Nat) :=
  match d with
  | .ok i => slotNames i
  | .bad _ => []

/-- Slot C of a bundle is resynchronising: every operation but NOP, EXT, QDEPTH and LOOP (R111). -/
def isResync (d : Decoded) : Bool :=
  match d with
  | .ok .nop => false
  | .ok (.ext ..) => false
  | .ok (.qdepth ..) => false
  | .ok (.loop ..) => false
  | _ => true

def Pair.decoded (p : Pair) : DecodedBundle := decodeBundle p.wa p.wb p.wc

/-- Slot A instruction `i` waits for slots B and C of an earlier bundle (R112). -/
def Strand.nameHazard (st : Strand) (i : Instr) : Bool :=
  let mine := slotNames i
  st.front.pairs.any (fun p =>
    let d := p.decoded
    (decodedNames d.b ++ decodedNames d.c).any (fun x => mine.contains x) ||
      (match bankWritten i, d.b with
       | some b, .ok j => (banksRead st j).contains b
       | _, _ => false))

/-! ### The direction of `LOOP` (R153) -/

/-- The value that a scalar write-back of register `r` carries. -/
def wbScalar (r : Nat) (l : List WB) : Option SV :=
  l.foldl (fun a w => match w with
    | .s q x => if q = r then some x else a
    | _ => a) none

/-- The count of register `r` after the writes in flight, none while some other operation's write is in flight. -/
def Strand.loopCount (st : Strand) (r : Nat) : Option W64 :=
  if st.open_.any (fun e => e.dests.contains (.s r)) then none
  else if st.flights.any (fun f => decide (f.slot ≠ 2) && f.wbs.any (fun w => w.isDest (.s r))) then none
  else some ((st.flights.foldl (fun (a : SV) f => (wbScalar r f.wbs).getD a) (st.regs.sP r)).v)

/-- The decision for slot C of a bundle whose slot A is about to issue: none while it waits; else whether it holds a
`LOOP`, and the direction. -/
def Strand.loopDecision (st : Strand) (d : DecodedBundle) : Option (Option Bool) :=
  match d.c with
  | .ok (.loop r _ _) =>
    let q := r.toNat
    if st.front.pairs.any (fun p =>
        let e := p.decoded
        (match e.b with
          | .ok j => (opForm j).dests.contains (.s, r)
          | .bad _ => false) ||
        (match e.c with
          | .ok (.loop _ _ _) => false
          | .ok j => (opForm j).dests.contains (.s, r)
          | .bad _ => false)) then none
    else
      match st.loopCount q with
      | none => none
      | some v =>
        let before := (st.front.pairs.filter (fun p => match p.decoded.c with
          | .ok (.loop r' _ _) => r' == r
          | _ => false)).length
        some (some (v - BitVec.ofNat 64 (before + 1) != 0))
  | _ => some none

/-! ### Running one slot -/

/-- The meaning of instructions, as `exec` gives it. -/
abbrev Exec := Instr → State → Result

/-- Prepare the strand for its slot: it becomes the one whose slot executes. -/
def State.enterSlot (s : State) (n : Nat) (c : Ctx) : State :=
  { s.modStrand n (fun st => { st with front := { st.front with ctx := c, stalled := false, trapped := false } }) with cur := n }

/-- Keep what a stalled slot did outside its strand: the misses it opened, its place among a window's waiters. -/
def State.keepMisses (s t : State) : State :=
  { s with wings := t.wings, fabric := { s.fabric with allowQ := t.fabric.allowQ } }

/-- Keep the misses that a long word opened in the wing of core `c`, the fills that it asked for, and its places among a window's
waiters: nothing else of a long word that does not issue stands (R115). -/
def State.keepWaits (s t : State) (c : Nat) : State :=
  { s.modWing (c / 8) (fun g => { g with misses := (t.wing (c / 8)).misses, fills := (t.wing (c / 8)).fills }) with
    fabric := { s.fabric with allowQ := t.fabric.allowQ } }

/-- The trap of a decode fault (R134). -/
def DecFault.trap (f : DecFault) (slot : Nat) : Trap :=
  match f with
  | .illins x => { cause := .illins, sub := x, slot := slot }
  | .illopnd x => { cause := .illopnd, sub := x, slot := slot }

/-- Execute one decoded slot: a decode fault raises its trap. -/
def runSlot (ex : Exec) (s : State) (n slot : Nat) (c : Ctx) (d : Decoded) : Result :=
  let s0 := s.enterSlot n c
  match d with
  | .bad f => .next (s0.raise n (f.trap slot))
  | .ok i => ex i s0

def State.slotStalled (s : State) (n : Nat) : Bool := (s.strand n).front.stalled
def State.slotTrapped (s : State) (n : Nat) : Bool := (s.strand n).front.trapped

/-- Continue with the state of a result. -/
def Result.bind (r : Result) (f : State → Result) : Result :=
  match r with
  | .next s => f s
  | .fault x => .fault x
  | .refused x => .refused x

/-! ### The oldest pair of slots B and C (R110) -/

/-- An earlier slot A, of this bundle or before, has not resolved (R252). -/
def Strand.unresolvedUpTo (st : Strand) (seq : Nat) : Bool :=
  st.open_.any (fun e => decide (e.seq ≤ seq) && e.slot == 0 && !e.resolved)

def Front.dropPair (f : Front) (seq : Nat) : Front :=
  { f with pairs := f.pairs.filter (fun p => p.seq != seq), stepped := true }

/-- The edges of link entries popped before a resynchronising bundle reach what follows it (R334). -/
def Strand.settleEdges (st : Strand) (seq : Nat) : Strand :=
  { st with
    ctl := { st.ctl with pts := (st.front.edges.filter (fun e => decide (e.1 < seq))).foldl (fun p e => wmax p e.2) st.ctl.pts }
    front := { st.front with edges := st.front.edges.filter (fun e => !decide (e.1 < seq)) } }

/-- A pair of slots B and C has issued. -/
def Strand.pairIssued (st : Strand) (p : Pair) : Strand :=
  let st1 := Strand.settle { st with front := st.front.dropPair p.seq }
  if isResync p.decoded.c then st1.settleEdges p.seq else st1

def Pair.ctx (p : Pair) (ext : Option (BitVec 20)) (gang : Bool) : Ctx := ⟨p.seq, p.pc, p.link, ext, gang⟩

/-- Run slots B and C of a pair: both issue, or B traps, or C traps after B issued, or both wait. -/
def runPair (ex : Exec) (s : State) (n : Nat) (p : Pair) (gang : Bool) : Result :=
  let d := p.decoded
  let rb : Result := if p.from_ = 2 then .next (s.enterSlot n (p.ctx none gang)) else runSlot ex s n 1 (p.ctx d.extB gang) d.b
  rb.bind (fun sb =>
    if sb.slotStalled n ∨ sb.slotTrapped n then .next sb
    else runSlot ex sb n 2 (p.ctx none gang) d.c)

/-- Issue the oldest pair of a strand in split mode, if it can. -/
def pairTurn (ex : Exec) (s : State) (n : Nat) : Result :=
  let st := s.strand n
  match st.front.pairs with
  | [] => .next s
  | p :: _ =>
    if st.front.waitC.isSome || st.unresolvedUpTo p.seq || st.front.trapping.isSome then .next s
    else
      (runPair ex s n p false).bind (fun t =>
        if t.slotStalled n then .next (s.keepMisses t)
        else if t.slotTrapped n then .next t
        -- the `ERET` by which a strand returns to its gang is no stepped bundle (R120)
        else if st.ctl.leftGang && !(t.strand n).ctl.leftGang then
          .next (t.modStrand n (fun x => { x.pairIssued p with front := { (x.pairIssued p).front with stepped := false } }))
        else .next (t.modStrand n (fun x => x.pairIssued p)))

/-! ### Slot A (R110 to R113) -/

def Ctl.ss (c : Ctl) : Bool := c.dbgctl.getLsbD 0

/-- A load or atomic through a window has not returned: its slot stalls (R244). -/
def Strand.windowWait (st : Strand) : Bool :=
  st.open_.any (fun e => e.slot == 0 && !e.resolved && !memOnly e.rds && !(match e.instr with
    | .sta .. => true
    | _ => false))

/-- The step of a writer of a codebook bank that passed its checks and stalls its slot (R282, R369). -/
def writerStalled : Nat := 8

/-- A writer of a codebook bank stalls its slot (R282). -/
def Strand.writerWait (st : Strand) : Bool :=
  st.open_.any (fun e => (bankWritten e.instr).isSome && e.step == writerStalled)

/-- Slot A of the next bundle waits: the slip is 8, an earlier bundle holds a resynchronising operation, slot C is open
(R111, R426), a window read is out (R244), a writer of a bank stalls (R282), or single-step holds the slip at zero and stops
after a bundle (R119). -/
def Strand.aHeld (st : Strand) : Bool :=
  let f := st.front
  f.waitC.isSome || f.held.isSome || f.trapping.isSome || decide (8 ≤ f.pairs.length) || st.windowWait || st.writerWait ||
    f.pairs.any (fun p => isResync p.decoded.c) || (st.ctl.ss && (f.stepped || !f.pairs.isEmpty))

/-- The bundle fetched at a strand's PC. -/
def Front.fetched (f : Front) (link wa wb wc : W32) : Bundle :=
  { seq := f.seq, pc := f.pc, link := link, wa := wa, wb := wb, wc := wc
    aDone := decide (1 ≤ f.firstSlot) || f.marks.contains (f.seq, f.pc)
    from_ := f.firstSlot }

/-- Put a fetched bundle into the latch. -/
def Front.latched (f : Front) (b : Bundle) : Front :=
  { f with latch := some b, seq := f.seq + 1, firstSlot := 0, marks := f.marks.filter (fun m => decide (f.seq < m.1)) }

/-- The bundle after its slot A has issued: it becomes a pair, and the PC goes on, by the direction of a `LOOP`. -/
def Strand.aIssued (st : Strand) (b : Bundle) (dir : Option Bool) : Strand :=
  let p : Pair := ⟨b.seq, b.pc, b.link, b.wa, b.wb, b.wc, b.aDone && b.from_ == 0, b.from_⟩
  let nx := nextPc b.pc b.link
  let (pc, off) := match dir, (decodeBundle b.wa b.wb b.wc).c with
    | some true, .ok (.loop _ o x) => (branchTo b.pc o.toInt x, false)
    | _, _ => nx
  { st with front := { st.front with latch := none, pairs := st.front.pairs ++ [p], pc := pc, fellOff := off } }

/-- Issue slot A of the latched bundle, if it can. -/
def issueA (ex : Exec) (s : State) (n : Nat) (b : Bundle) : Result :=
  let st := s.strand n
  let d := decodeBundle b.wa b.wb b.wc
  match st.loopDecision d with
  | none => .next s
  | some dir =>
    if b.aDone then .next (s.modStrand n (fun x => x.aIssued b dir))
    else
      let haz := match d.a with
        | .ok i => st.nameHazard i
        | .bad _ => false
      if haz then .next s
      else
        (runSlot ex s n 0 ⟨b.seq, b.pc, b.link, d.extA, false⟩ d.a).bind (fun t =>
          if t.slotStalled n then .next (s.keepMisses t)
          else if t.slotTrapped n then .next t
          else .next (t.modStrand n (fun x => x.aIssued b dir)))

/-- Fetch the bundle at a strand's PC into its latch; a fault waits until every earlier bundle has issued in full
(R108). This is also what `CODE_FETCH` does. -/
def State.fetchTurn (s : State) (n : Nat) : State :=
  let f := (s.strand n).front
  if f.latch.isSome then s
  else
    match s.fetch n f.pc f.fellOff with
    | (s1, .wait) => s1
    | (s1, .fault t) =>
      if f.pairs.isEmpty then (s1.enterSlot n ⟨f.seq, f.pc, 0, none, false⟩).raise n t else s1
    | (s1, .ok link wa wb wc) =>
      s1.modStrand n (fun x => { x with front := x.front.latched (x.front.fetched link wa wb wc) })

/-- The slot-A half of a strand's clock in split mode. -/
def slotATurn (ex : Exec) (s : State) (n : Nat) : Result :=
  if (s.strand n).aHeld then .next s
  else
    let s1 := s.fetchTurn n
    match (s1.strand n).front.latch with
    | none => .next s1
    | some b => if (s1.strand n).aHeld then .next s1 else issueA ex s1 n b

/-! ### A strand's clock in split mode -/

/-- Everything of the strand has written back and performed. -/
def Strand.quiet (st : Strand) : Bool := st.flights.isEmpty && st.open_.isEmpty && st.wq.isEmpty

/-- A held slot-A trap is taken once every earlier pair has issued without trapping (R132). -/
def State.releaseHeld (s : State) (n : Nat) : State :=
  let f := (s.strand n).front
  match f.held with
  | none => s
  | some (seq, pc, t) =>
    if f.trapping.isSome || (s.strand n).slipped seq || f.waitC.isSome then s
    else (s.modStrand n (fun st => { st with front := { st.front with held := none, trapping := some (seq, pc, t) } })).tryTrap n

/-- The PC at which the strand stands. -/
def Front.nextPcv (f : Front) : W64 :=
  match f.latch with
  | some b => b.pc
  | none => f.pc

/-- DEBUG after a stepped bundle (R119). -/
def State.debugStep (s : State) (n : Nat) : State :=
  let st := s.strand n
  if st.quiet && st.front.pairs.isEmpty && st.front.waitC.isNone then
    (s.modStrand n (fun x => { x with front := { x.front with stepped := false } })).enterTrap n st.front.seq
      st.front.nextPcv { cause := .debug }
  else s

/-- A live entry of a resume can still trap: nothing issues, so that EPC would be the resume PC (R381). -/
def Strand.reinjecting (st : Strand) : Bool := st.open_.any (fun e => e.live && !e.frame && !e.resolved && e.slot != 2)

/-- The strand can issue in this clock. -/
def Strand.canIssue (st : Strand) (clk : Nat) : Bool :=
  st.running && !st.halted && !st.front.stopped && decide (st.front.wake ≤ clk) && !st.reinjecting

/-- The open slot-C operation that goes on: the one that waits, or a `RPLY` or `ERET` whose slot-C entry has completed (R368, R426). -/
def Strand.waitingC (st : Strand) : Option Nat :=
  st.front.waitC <|> ((st.open_.find? (fun x => decide (x.instr = .rply) || decide (x.instr = .eret))).map Entry.id)

/-- A `PGPASS` that has closed its page goes on while a save waits for it (R340). -/
def Strand.passing (st : Strand) : Bool :=
  st.running && st.front.stopped && st.front.trapping.isNone && st.front.waitC.any (fun id =>
    st.open_.any (fun e => e.id == id && e.step == 1 && (match e.instr with
      | .pgpass .. => true
      | _ => false)))

/-- One clock of a strand in split mode: a slot C that is open goes on; a trap that waits is tried; else the oldest pair
issues, then slot A, then the pair of the same bundle when nothing was outstanding (R110, R131). A slot A of a later bundle still
issues in the clock in which the oldest pair traps: issue stops from the next clock (R364). -/
def strandTurn (ex : Exec) (s : State) (n : Nat) : Result :=
  let st := s.strand n
  if !st.canIssue s.clk && !st.passing then .next s
  else if st.front.trapping.isSome then .next (s.tryTrap n)
  else
    match st.waitingC with
    | some id =>
      (match st.open_.find? (fun e => e.id == id) with
       | none => .next (s.modStrand n (fun x => { x with front := { x.front with waitC := none } }))
       | some e =>
         ex e.instr ((s.modStrand n (fun x => { x with front := { x.front with waitC := some id } })).enterSlot n
           ⟨e.seq, e.pc, st.front.ctx.link, e.ext, e.gang⟩))
    | none =>
      if st.ctl.ss && st.front.stepped && st.front.pairs.isEmpty && st.front.held.isNone then .next (s.debugStep n)
      else
        let s0 := s.modStrand n (fun x => { x with front := { x.front with stepped := x.ctl.ss && x.front.stepped, trapped := false } })
        let fresh := st.front.pairs.isEmpty
        let resync := match st.front.pairs with
          | p :: _ => isResync p.decoded.c
          | [] => false
        (pairTurn ex s0 n).bind (fun s1 =>
          let st1 := s1.strand n
          if s1.slotTrapped n && !fresh && !resync then (slotATurn ex s0 n).bind (fun s2 => pairTurn ex s2 n)
          else if !st1.canIssue s1.clk || s1.slotTrapped n && !fresh then .next s1
          else if resync then .next (s1.releaseHeld n)
          else
            (slotATurn ex (s1.releaseHeld n) n).bind (fun s2 =>
              if fresh && (s2.strand n).canIssue s2.clk && !(s2.strand n).front.trapping.isSome then pairTurn ex s2 n
              else .next s2))

/-! ### Gang mode (R114 to R120) -/

/-- The strands of a core. -/
def coreStrands (c : Nat) : List Nat := [4 * c, 4 * c + 1, 4 * c + 2, 4 * c + 3]

/-- Slot-C operations that a long word may hold (R147). `GANG` is not among them: R114's "no effect in gang mode" is that
of a strand in its handler (log entry 66). -/
def gangAllows (i : Instr) : Bool :=
  match i with
  | .nop => true | .ext .. => true | .gbr .. => true | .split => true | .halt => true | .jset .. => true
  | .jclr .. => true | .jwait .. => true | .qdepth .. => true | .mfs .. => true | .mts .. => true | .mtsFlg .. => true
  | .mtsSrng .. => true | .mtsStatus .. => true | .mtsEpc .. => true | .mtsEcause .. => true | .pchk .. => true
  | .tlbinv .. => true | .sysc .. => true | .brk .. => true | .trap .. => true | .yield => true
  | _ => false

/-- Operations that must stand in all four bundles: `GBR` 1, `SPLIT` 2, `HALT` 3 (R116, R147). -/
def gangKind (i : Instr) : Nat :=
  match i with
  | .gbr .. => 1
  | .split => 2
  | .halt => 3
  | _ => 0

/-- A long word with these slots C raises GANGSYNC (R116, R147): one may never stand in a long word, or some but not all
bundles hold an operation that all must hold. Of a bundle that could not be fetched, or whose slot C does not decode, it is
not known which it holds. -/
def gangBad (l : List Decoded) : Bool :=
  let ks : List (Option Nat) := l.map (fun d => match d with
    | .ok i => if gangAllows i then some (gangKind i) else none
    | .bad _ => some 4)
  ks.contains none || [1, 2, 3].any (fun k => ks.contains (some k) && ks.any (fun x => x != some k && x != some 4))

/-- Strand `n` takes a trap of the long word, of which no slot issues; a slot A that had to issue before is not issued
again (R117, log entry 17). -/
def State.gangTrap (s : State) (n : Nat) (t : Trap) : State :=
  let f := (s.strand n).front
  let (seq, pc, slot) := match f.latch with
    | some b => (b.seq, b.pc, if b.aDone then Nat.max 1 b.from_ else 0)
    | none => (f.seq, f.pc, 0)
  let t' := { t with slot := slot }
  (s.modStrand n (fun st => { st with front := { st.front with held := none, trapping := some (seq, pc, t') } })).tryTrap n

/-- Slot A of the long word's bundle of strand `n`, which had to issue before the rest, has resolved with a trap: it counts as
not issued (R117, R252). -/
def State.gangHeld (s : State) (n : Nat) : State :=
  match (s.strand n).front.held with
  | none => s
  | some (_, _, t) =>
    (s.modStrand n (fun st => { st with front := { st.front with
      latch := st.front.latch.map (fun b => { b with aDone := false, from_ := 0 }) } })).gangTrap n t

/-- The course of a long word on a scratch state: what stalls, what traps, and the strands whose slot A resolves only
once it is open. -/
structure GangRun where
  st : State
  stall : Bool := false
  early : List Nat := []
  traps : List (Nat × Trap) := []
  stop : Option Result := none

/-- Take the result of a slot of strand `n`: a trap or a stall is recorded and leaves the scratch state. The Bool says that
it issued. -/
def GangRun.add (g : GangRun) (n : Nat) (r : Result) : GangRun × Bool :=
  match r with
  | .next t =>
    if t.slotTrapped n then
      ({ g with st := g.st.keepMisses t
                traps := g.traps ++ (match (t.strand n).front.held with
                  | some (_, _, x) => [(n, x)]
                  | none => []) }, false)
    else if t.slotStalled n then ({ g with st := g.st.keepMisses t, stall := true }, false)
    else ({ g with st := t }, true)
  | x => ({ g with stop := some x }, false)

/-- Slot A of a bundle in a long word. -/
def gangSlotA (ex : Exec) (s : State) (n : Nat) (b : Bundle) : Result :=
  let d := decodeBundle b.wa b.wb b.wc
  runSlot ex s n 0 ⟨b.seq, b.pc, b.link, d.extA, true⟩ d.a

/-- The event by which an open operation of slot A goes on. -/
def entryEvent (n : Nat) (e : Entry) : Option Instr :=
  if e.slot = 2 then none
  else match e.instr with
    | .spill .. => some (.writeBack n e.id)
    | .fill .. => some (.writeBack n e.id)
    | .park .. => some (.writeBack n e.id)
    | .unpark .. => some (.writeBack n e.id)
    | .sbind .. => some (.writeBack n e.id)
    | .schain .. => some (.writeBack n e.id)
    | .spos .. => some (.writeBack n e.id)
    | .sunbind .. => some (.writeBack n e.id)
    | .fenceO _ => if e.slip then some (.loadReturn n e.id [] false) else some (.fenceResolve n)
    | .fenceP => if e.slip then some (.loadReturn n e.id [] false) else some (.fenceResolve n)
    | .fenceH => if e.slip then some (.loadReturn n e.id [] false) else some (.fenceResolve n)
    | .fenceE => if e.slip then some (.loadReturn n e.id [] false) else some (.fenceResolve n)
    | .sta .. => if e.slip then some (.loadReturn n e.id [] false) else some (.fenceResolve n)
    | .waitv .. => if e.slip then some (.loadReturn n e.id [] false) else some (.waitvReread n e.id)
    | _ => some (.loadReturn n e.id [] false)

/-- Slot A of bundle `seq` that has issued and not resolved. -/
def Strand.unresolvedA (st : Strand) (seq : Nat) : Option Entry :=
  st.open_.find? (fun e => e.seq == seq && e.slot == 0 && !e.resolved)

/-- What an operation waits for comes only to an open operation: a value through a window, or a copy of a window tile, which
serves none but the requests joined to its fill (R244, R299). -/
def State.waitsOpen (s : State) (n : Nat) (e : Entry) : Bool :=
  let win (r : Rd) : Bool := match r.tgt with
    | .window _ _ _ => true
    | .mem _ => false
  e.rds.any win || (s.wing (wingOf n)).fills.any (fun f => f.rds.any win && f.waiters.any (fun w => match w with
    | .op m id => m == n && id == e.id
    | _ => false))

/-- Run a strand's part of the long word on the scratch state: slot A, which resolves in this clock if it can; then B and C. A
slot A that has still to wait stalls the long word, but for one that can wait only once it is open. -/
def gangPart (ex : Exec) (g : GangRun) (n : Nat) : GangRun :=
  match (g.st.strand n).front.latch with
  | none => g
  | some b =>
    let (g1, go) := if b.aDone then (g, true) else g.add n (gangSlotA ex g.st n b)
    if !go then g1
    else
      let (g2, go2) := match ((g1.st.strand n).unresolvedA b.seq).bind (entryEvent n) with
        | some i => g1.add n (ex i g1.st)
        | none => (g1, true)
      if !go2 then g2
      else
        let g3 := { g2 with st := g2.st.modStrand n (fun x => x.aIssued b none) }
        match (g3.st.strand n).front.pairs with
        | [] => g3
        | p :: _ =>
          match (g3.st.strand n).unresolvedA b.seq with
          | none => (g3.add n (runPair ex g3.st n p true)).1
          | some e =>
            if g3.st.waitsOpen n e then
              -- what its slots B and C would trap on is found now; they wait for slot A
              { (g3.add n (runPair ex g3.st n p true)).1 with st := g3.st, stall := g3.stall, early := g3.early ++ [n] }
            else { g3 with stall := true }

/-- A slot A of the long word that can wait only once it is open issues before the others: its slot stalls until the value
returns (R244, log entry 17). -/
def gangEarly (ex : Exec) (s : State) (n : Nat) : Result :=
  match (s.strand n).front.latch with
  | none => .next s
  | some b =>
    (gangSlotA ex s n b).bind (fun t =>
      if t.slotStalled n ∨ t.slotTrapped n then .next (s.keepMisses t)
      else .next (t.modStrand n (fun x => { x with front := { x.front with
        latch := some { b with aDone := true, from_ := Nat.max 1 b.from_ } } })))

/-- The pairs of the long word have issued in every strand. -/
def State.gangIssued (s : State) (c : Nat) : State :=
  (coreStrands c).foldl (fun s n => s.modStrand n (fun x =>
    match x.front.pairs with
    | [] => x
    | p :: _ => x.pairIssued p)) s

/-- The trap of a decode fault anywhere in a strand's part of the long word: its slots in order. -/
def bundleFault (b : Bundle) : Option Trap :=
  let d := decodeBundle b.wa b.wb b.wc
  match d.a, d.b, d.c with
  | .bad f, _, _ => some (f.trap 0)
  | _, .bad f, _ => some (f.trap 1)
  | _, _, .bad f => some (f.trap 2)
  | _, _, _ => none

/-- Fetch the four bundles of the long word; each strand's fetch or decode fault is recorded. -/
def gangFetch (s : State) (c : Nat) : GangRun :=
  (coreStrands c).foldl (fun (g : GangRun) n =>
    let f := (g.st.strand n).front
    match f.latch with
    | some b => { g with traps := g.traps ++ ((bundleFault b).map (fun t => (n, t))).toList }
    | none =>
      match g.st.fetch n f.pc f.fellOff with
      | (s1, .wait) => { g with st := s1, stall := true }
      | (s1, .fault t) => { g with st := s1, traps := g.traps ++ [(n, t)] }
      | (s1, .ok link wa wb wc) =>
        let b := f.fetched link wa wb wc
        { g with st := s1.modStrand n (fun x => { x with front := x.front.latched b })
                 traps := g.traps ++ ((bundleFault b).map (fun t => (n, t))).toList }) { st := s }

/-- Slot C of a strand's bundle of the long word. -/
def State.latchedC (s : State) (n : Nat) : Option Decoded :=
  (s.strand n).front.latch.map (fun b => (decodeBundle b.wa b.wb b.wc).c)

/-- The long word: fetch, the GANGSYNC checks, then all slots of the four bundles together or none (R115 to R117, R147):
every strand's trap is found first, then a stall of any slot, a slot A that has still to resolve among them (R252). One that
can wait only once it is open goes first, and the rest follows together when it has resolved (R244, log entry 17). -/
def gangWord (ex : Exec) (s : State) (c : Nat) : Result :=
  let g0 := gangFetch s c
  if g0.stall then .next g0.st
  else if gangBad ((coreStrands c).filterMap g0.st.latchedC) then
    .next ((coreStrands c).foldl (fun s n =>
      s.gangTrap n (((g0.traps.find? (fun x => x.1 == n)).map Prod.snd).getD { cause := .gangsync })) g0.st)
  else
    let g := (coreStrands c).foldl (fun (g : GangRun) n =>
      if g0.traps.any (fun x => x.1 == n) || g.stop.isSome then g else gangPart ex g n) { st := g0.st, traps := g0.traps }
    let base := g0.st.keepWaits g.st c
    match g.stop with
    | some r => r
    | none =>
      if !g.traps.isEmpty then .next (g.traps.foldl (fun s x => s.gangTrap x.1 x.2) base)
      else if g.stall then .next base
      else if !g.early.isEmpty then g.early.foldl (fun (r : Result) n => r.bind (fun t => gangEarly ex t n)) (.next base)
      else .next (g.st.gangIssued c)

/-- One clock of the strands of a gang whose slot C is open; one that stays open goes on although another of them has
completed (R426). -/
def gangWaits (ex : Exec) (s : State) (ns : List Nat) : Result :=
  ns.foldl (fun (r : Result) n => r.bind (fun t =>
    if (t.strand n).front.waitC.isSome then strandTurn ex t n else .next t)) (.next s)

/-- One clock of a core in gang mode. A strand out of the gang in its handler runs in split mode; the others hold
(R117, R120). -/
def gangTurn (ex : Exec) (s : State) (c : Nat) : Result :=
  let g := (s.core c).gang
  let ns := coreStrands c
  if !g.away.isEmpty then
    let gone := g.away.any (fun p => (s.strand (4 * c + p)).halted || (s.strand (4 * c + p)).bound.isNone)
    let s0 := if gone then
        ns.foldl (fun s n => if (s.core c).gang.away.contains (posInCore n) || !(s.strand n).running then s
          else s.gangTrap n { cause := .gangsync }) s
      else s
    ns.foldl (fun (r : Result) n => r.bind (fun t =>
      if (t.core c).gang.away.contains (posInCore n) then strandTurn ex t n else .next t)) (.next s0)
  else if s.clk < g.since then .next s
  else if ns.any (fun n => (s.strand n).front.held.isSome) then .next (ns.foldl (fun s n => s.gangHeld n) s)
  else if ns.any (fun n => (s.strand n).front.trapping.isSome) then .next (ns.foldl (fun s n => s.tryTrap n) s)
  else if ns.any (fun n => (s.strand n).front.waitC.isSome) then gangWaits ex s ns
  else if ns.any (fun n => !(s.strand n).canIssue s.clk) then .next s
  else if ns.any (fun n => (s.strand n).unresolvedUpTo ((s.strand n).front.seq)) then .next s
  else if ns.any (fun n => (s.strand n).ctl.ss && (s.strand n).front.stepped) then
    (if ns.all (fun n => (s.strand n).quiet) then
      .next (ns.foldl (fun s n => if (s.strand n).ctl.ss then s.debugStep n else s) s)
     else .next s)
  else
    gangWord ex (ns.foldl (fun s n => s.modStrand n (fun x => { x with front := { x.front with stepped := false } })) s) c

end Sys2Proof.Machine
end

