-- ==== Sys2Proof/Machine/Reads.lean ====
section
/-! DEFINITION. Carrying out the reads of an open operation: loads of memory in order (R226, R231), requests through
windows one at a time (R244), what returns (R350), and the shared course of slot C: issue, waiting, completion (R144,
R146, R426). -/

namespace Sys2Proof.Machine

/-! ### Reads -/

/-- PEER REFUSED (Table 15-2). -/
def peerRefused : Nat := 3

def State.partOf (s : State) (n : Nat) : Nat := ((s.strand n).bound.map Bound.part).getD 0

/-- Fill the first read that has nothing yet. Data returned through the fabric has one byte more than the read asked for
when the line read is marked (R371, log entry 14). -/
def fillRd (l : List Rd) (x : List Byte × Bool) : List Rd :=
  match l with
  | [] => []
  | r :: t =>
    if r.got.isNone then { r with got := some (x.1.take r.len, x.2 || decide (r.len < x.1.length)) } :: t
    else r :: fillRd t x

/-- Strand `n` has an outstanding window request of operation `id`. -/
def Strand.requested (st : Strand) (id : Nat) : Bool := st.winReqs.any (fun w => w.id == id)

/-- Send a window request for operation `id`, once there is room (R353, R355). An atomic reaches another module: the launch can no
longer be restarted (R99). -/
def State.sendReq (s : State) (n id dst : Nat) (kind : PktKind) (pa : Nat) (bytes : List (Nat × Byte)) : State :=
  if !s.fabric.roomFor dst then s
  else
    let s0 := match kind with
      | .atomic _ => s.loseRstOf n
      | _ => s
    let (s1, q) := s0.request dst (s.partOf n) kind pa bytes (.op n id) none
    s1.modStrand n (fun st => { st with winReqs := st.winReqs ++ [⟨id, dst, q⟩] })

/-- Two parts of one access, in two lines, read at one stamp (R226, R231): the lines are read until both leases cover it,
which three passes suffice for. -/
def State.loadBoth (s : State) (n pa len pa2 len2 : Nat) (acq : Bool) : State × (List Byte × Bool) × (List Byte × Bool) :=
  let pass (s : State) : State × (List Byte × Bool) × (List Byte × Bool) :=
    let (s1, a, m) := s.load n pa len acq
    let (s2, b, k) := s1.load n pa2 len2 acq
    (s2, (a, m), (b, k))
  pass (pass (pass s).1).1

/-- Place and length of the second part of an access, when the next read is one. -/
def joinedTo (l : List Rd) : Option (Nat × Nat) :=
  match l with
  | [] => none
  | q :: _ =>
    if q.join && q.got.isNone then
      (match q.tgt with
       | .mem pa => some (pa, q.len)
       | .window _ _ _ => none)
    else none

/-- Reads of an operation in order: memory at once, a window read as a request that holds the later ones. `pre` is what the
first read has got already, as the second part of an access. The Bool says that all have returned. -/
def State.readsGo (s : State) (n id : Nat) (acq : Bool) :
    List Rd → List Rd → Option (List Byte × Bool) → State × List Rd × Bool
  | [], done, _ => (s, done, true)
  | r :: t, done, pre =>
    match r.got <|> pre with
    | some x => s.readsGo n id acq t (done ++ [{ r with got := some x }]) none
    | none =>
      if r.len = 0 then s.readsGo n id acq t (done ++ [{ r with got := some ([], false) }]) none
      else
        match r.tgt with
        | .mem pa =>
          (match joinedTo t with
           | some q =>
             let (s1, x, y) := s.loadBoth n pa r.len q.1 q.2 acq
             s1.readsGo n id acq t (done ++ [{ r with got := some x }]) (some y)
           | none =>
             let (s1, bs, m) := s.load n pa r.len acq
             s1.readsGo n id acq t (done ++ [{ r with got := some (bs, m) }]) none)
        | .window _ dst pa =>
          let s1 := if (s.strand n).requested id then s else s.sendReq n id dst (.load r.len) pa []
          (s1, done ++ (r :: t), false)

/-- Go on with the reads of entry `e` of strand `n`; true when all have returned. -/
def State.readStep (s : State) (n : Nat) (e : Entry) (acq : Bool) : State × Entry × Bool :=
  let (s1, l, ok) := s.readsGo n e.id acq e.rds [] none
  let e' := { e with rds := l }
  (s1.modEntry n e.id (fun x => { x with rds := l }), e', ok)

/-- The data of a window request of operation `id` returns: it is no longer outstanding (R244). -/
def State.endReq (s : State) (n id : Nat) : State :=
  s.modStrand n (fun st => { st with winReqs := st.winReqs.filter (fun w => w.id != id) })

/-- Data for the first outstanding read of an entry. -/
def State.giveData (s : State) (n id : Nat) (bs : List Byte) : State :=
  (s.endReq n id).modEntry n id (fun e => { e with rds := fillRd e.rds (bs, false) })

/-- The address of the first read that has nothing yet, for EADDR of a refusal (R350). -/
def Entry.pendingVa (e : Entry) : W64 := ((e.rds.find? (fun r => r.got.isNone)).map Rd.va).getD 0

/-! ### Slot C (R144) -/

/-- POISON on the first tagged scalar operand, in the order A, B, third (R146, Table 16-4). -/
def poisonC (a b c : List VV) : Option Nat :=
  if a.any (fun x => x.t != 0) then some 0
  else if b.any (fun x => x.t != 0) then some 1
  else if c.any (fun x => x.t != 0) then some 2
  else none

/-- Put a result of slot C on its way: it writes back in this clock, and a consumer may issue in the next (R144);
behind an earlier write-back of the register that is due in this clock it lands in it too (DESIGN CHOICE, log entry 67). -/
def State.putC (s : State) (n : Nat) (i : Instr) (vals : List DVal) (fl : LaneFlags) : State :=
  let (id, s0) := s.newId
  let st := s0.strand n
  let ds := destsOf st i
  let wbs := (ds.zip vals).filterMap (fun p => wbOf (some p.1) p.2 (~~~0#64))
  if wbs.isEmpty && fl == 0 then s0
  else
    let f : Flight :=
      { id := id, seq := st.front.ctx.seq, slot := 2, due := s0.clk, wbs := wbs, flags := fl, caps := [] }
    let s1 := s0.modStrand n (fun x => { x with flights := x.flights ++ [f] })
    let s2 := ds.foldl (fun s d => s.reserve n id d) s1
    { s2 with agenda := s2.agenda ++ [.ev (.writeBack n id)] }

/-- The operands of a slot-C instruction whose check passed. -/
structure CIn where
  a : VV
  b : VV
  c : VV
  act : W64

def CIn.av (x : CIn) : W64 := x.a.toSV.v
def CIn.bv (x : CIn) : W64 := x.b.toSV.v
def CIn.cv (x : CIn) : W64 := x.c.toSV.v

/-- A slot-C instruction that does not wait: the check of R131, POISON (R146), then its effect on the state with the pops
made. -/
def State.runC (s : State) (i : Instr) (f : CIn → State → State) : Result :=
  let n := s.cur
  match checkInstr s n 2 i with
  | .skip => .next s
  | .stall => .next (s.stall n)
  | .trap t => .next (s.raise n t)
  | .go st a b c _ act _ _ =>
    match poisonC a b c with
    | some k => .next (s.raise n { cause := .poison, slot := 2, einfo := BitVec.ofNat 64 k })
    | none => .next (f ⟨a.headD VV.zero, b.headD VV.zero, c.headD VV.zero, act⟩ (s.setStrand n st))

/-- The open entry that this execution of a slot-C instruction continues (R426). -/
def State.resuming (s : State) (i : Instr) : Option Entry :=
  match s.me.front.waitC with
  | none => none
  | some id => (s.entry? s.cur id).filter (fun e => decide (e.instr = i))

/-- A slot-C instruction that waits as part of its effect (R426): issue opens it, with `pre` deciding on traps first and
`eaddr` giving the address that a tagged operand stands for, by operand, 0 where it is none (Table 16-4, log entry 71); then, in
this clock and each later one, `go` decides whether it completes. -/
def State.runWaitC (s : State) (i : Instr) (eaddr : CIn → Nat → W64) (pre : CIn → State → Option Trap)
    (go : Entry → State → State) : Result :=
  let n := s.cur
  match s.resuming i with
  | some e => .next (go e s)
  | none =>
    match checkInstr s n 2 i with
    | .skip => .next s
    | .stall => .next (s.stall n)
    | .trap t => .next (s.raise n t)
    | .go st a b c pred act _ _ =>
      let x : CIn := ⟨a.headD VV.zero, b.headD VV.zero, c.headD VV.zero, act⟩
      match poisonC a b c with
      | some k => .next (s.raise n { cause := .poison, slot := 2, einfo := BitVec.ofNat 64 k, eaddr := eaddr x k })
      | none =>
        if st.openFull i then .next (s.stall n)
        else
          match pre x s with
          | some t => .next (s.raise n { t with slot := 2 })
          | none =>
            let s1 := s.openOp n 2 i st ⟨x.a, x.b, [x.c], pred⟩ true []
            match s1.resuming i with
            | some e => .next (go e s1)
            | none => .next s1

/-- An open slot-C operation completes: its result writes back in this clock (R144, R426). -/
def State.finishC (s : State) (n : Nat) (e : Entry) (vals : List DVal) : State :=
  let wbs := (e.dests.zip vals).filterMap (fun p => wbOf (some p.1) p.2 (~~~0#64))
  let s1 := s.dropEntry n e.id
  if wbs.isEmpty then s1
  else
    let f : Flight := { id := e.id, seq := e.seq, slot := 2, due := s.clk, wbs := wbs, flags := 0, caps := [] }
    let s2 := s1.modStrand n (fun x => { x with flights := x.flights ++ [f] })
    { s2 with agenda := s2.agenda ++ [.ev (.writeBack n e.id)] }

def Entry.xv (e : Entry) : W64 := e.x.toSV.v
def Entry.yv (e : Entry) : W64 := e.y.toSV.v
def Entry.zv (e : Entry) : W64 := (e.z.headD VV.zero).toSV.v

def noTrap (_ : CIn) (_ : State) : Option Trap := none
def noAddr (_ : CIn) (_ : Nat) : W64 := 0

end Sys2Proof.Machine
end

