-- ==== Sys2Proof/Machine/Control.lean ====
section
/-! DEFINITION. Control flow and system access: branches, calls, `JT`, `LOOP` (R148 to R153), gang mode (R114, R116,
R118), `YIELD`, `PRCHK` (R158, R159), traps on purpose (R160), `ERET`, `RPLY` (R161, R368), `MFS`, `MTS` (R162),
`TLBINV` (R163), `HALT` (R165), `PCHK` (R166). -/

namespace Sys2Proof.Machine

/-! ### Branches and calls -/

/-- The next PC of strand `n`. -/
def State.jump (s : State) (n : Nat) (pc : W64) : State :=
  s.modStrand n (fun st => { st with front := { st.front with pc := pc, fellOff := false, latch := none } })

def State.ctxOf (s : State) : Ctx := s.me.front.ctx

/-- NextPC of the bundle that executes (R145). -/
def State.retPc (s : State) : W64 := (nextPc s.ctxOf.pc s.ctxOf.link).1

/-- `NOP`: nothing (R134). -/
def execNop (s : State) : Result := .next s

/-- `EXT`: no effect of its own (R123, R164). -/
def execExt (_t : BitVec 2) (_im : BitVec 20) (s : State) : Result := .next s

/-- `BR` (R148). -/
def execBr (k : BitVec 3) (x : Bool) (sv : BitVec 18) (b : BitVec 3) (s : State) : Result :=
  s.runC (.br k x sv b) (fun _ t => t.jump t.cur (branchTo t.ctxOf.pc sv.toInt b))

/-- The test of `BRC` (Table 7-1). -/
def brcHolds (c : BitVec 3) (v : W64) : Bool :=
  let i := v.toInt
  match c.toNat with
  | 0 => decide (i = 0) | 1 => decide (i ≠ 0) | 2 => decide (i < 0) | 3 => decide (0 ≤ i) | 4 => decide (0 < i)
  | _ => decide (i ≤ 0)

/-- `BRC` (R149). -/
def execBrc (a : BitVec 6) (p : Bool) (c : BitVec 3) (sv : BitVec 12) (b : BitVec 3) (s : State) : Result :=
  s.runC (.brc a p c sv b) (fun x t => if brcHolds c x.av then t.jump t.cur (branchTo t.ctxOf.pc sv.toInt b) else t)

/-- `CALL` (R148): s30 := NextPC. -/
def execCall (k : BitVec 3) (x : Bool) (sv : BitVec 18) (b : BitVec 3) (s : State) : Result :=
  s.runC (.call k x sv b) (fun _ t =>
    (t.putC t.cur (.call k x sv b) [.s ⟨t.retPc, false⟩] 0).jump t.cur (branchTo t.ctxOf.pc sv.toInt b))

/-- `CALLI` (R150). -/
def execCalli (a : BitVec 6) (p : Bool) (k : BitVec 3) (x : Bool) (s : State) : Result :=
  s.runC (.calli a p k x) (fun y t =>
    (t.putC t.cur (.calli a p k x) [.s ⟨t.retPc, false⟩] 0).jump t.cur y.av)

/-- `RET` (R150). -/
def execRet (a : BitVec 6) (p : Bool) (k : BitVec 3) (x : Bool) (s : State) : Result :=
  s.runC (.ret a p k x) (fun y t => t.jump t.cur y.av)

/-- The table entry of `JT`. -/
def jtAddr (base idx : W64) : W64 := (base &&& ~~~7#64) + 8 * idx

/-- `JT` after issue: it falls through, or reads its table entry at its place in program order (R113, R151). A marked
line gives MEMUE (R382). -/
def jtGo (e : Entry) (s : State) : State :=
  let n := s.cur
  if e.zv.toNat ≤ e.yv.toNat then s.finishC n e []
  else if !(s.strand n).performedBefore e.seq e.slot then s
  else if e.rds.isEmpty then
    let ea := jtAddr e.xv e.yv
    let p := (({ st := s } : Plan)).access n 2 .load ea 8
    match p.trap with
    | some t => p.st.trapEntry n e t
    | none =>
      if p.miss then p.st
      else
        let (s1, e1, ok) := (p.st.modEntry n e.id (fun x => { x with rds := p.rds })).readStep n { e with rds := p.rds } false
        if ok then
          let (bs, m) := bytesAt e1.rds ea 8
          if m then s1.trapEntry n e1 { cause := .memue, eaddr := ea }
          else (s1.finishC n e1 []).jump n (word64 bs 0)
        else s1
  else
    let (s1, e1, ok) := s.readStep n e false
    if ok then
      let ea := jtAddr e.xv e.yv
      let (bs, m) := bytesAt e1.rds ea 8
      if m then s1.trapEntry n e1 { cause := .memue, eaddr := ea }
      else (s1.finishC n e1 []).jump n (word64 bs 0)
    else s1

/-- `JT` (R151). -/
def execJt (d a b : BitVec 6) (p q : Bool) (k : BitVec 3) (x : Bool) (s : State) : Result :=
  s.runWaitC (.jt d a b p q k x) (fun y _ => jtAddr y.av y.bv) noTrap jtGo

/-- `LOOP` (R152, R153): D := D - 1; the direction was decided when slot A of its bundle issued, unless nothing has been
fetched since. -/
def execLoop (d : BitVec 6) (sv : BitVec 16) (b : BitVec 3) (s : State) : Result :=
  s.runC (.loop d sv b) (fun x t =>
    let c := x.av - 1
    let t1 := t.putC t.cur (.loop d sv b) [.s ⟨c, false⟩] 0
    let f := t.me.front
    if f.seq = f.ctx.seq + 1 ∧ f.latch = none ∧ c ≠ 0 then t1.jump t.cur (branchTo t.ctxOf.pc sv.toInt b) else t1)

/-! ### Gang mode -/

/-- Why a waiting `GANG` cannot complete: another strand of the core is unbound, of another group, or halts (R114). -/
def State.gangBroken (s : State) (n : Nat) : Bool :=
  let grp (m : Nat) : Option (Nat × Nat) := (s.strand m).bound.map (fun b => (b.lid, b.grp))
  (coreStrands (coreOf n)).any (fun m => m != n &&
    ((grp m).isNone || grp m != grp n || (s.strand m).halted))

def Core.arrive (c : Core) (p id : Nat) : Core := { c with gang := { c.gang with arrived := mset c.gang.arrived p id } }
def Core.depart (c : Core) (p : Nat) : Core := { c with gang := { c.gang with arrived := mdel c.gang.arrived p } }

/-- Nothing issues before the clock given: a strand of a core that enters gang mode in this clock (R114). -/
def Strand.holdUntil (clk : Nat) (st : Strand) : Strand := { st with front := { st.front with wake := clk } }

/-- A waiting `GANG`: GANGSYNC, or with the fourth the core is in gang mode from the next clock (R114). -/
def gangGo (e : Entry) (s : State) : State :=
  let n := s.cur
  let c := coreOf n
  if s.gangBroken n then
    (s.modCore c (fun k => k.depart (posInCore n))).trapEntry n e { cause := .gangsync }
  else
    let s1 := s.modCore c (fun k => k.arrive (posInCore n) e.id)
    let a := (s1.core c).gang.arrived
    if a.length = 4 then
      a.foldl (fun s p => (s.dropEntry (4 * c + p.1) p.2).modStrand (4 * c + p.1) (Strand.holdUntil (s.clk + 1)))
        (s1.modCore c (fun k => { k with gang := ⟨true, [], [], s.clk + 1⟩ }))
    else s1

/-- `GANG` (R114, R154): no effect in gang mode, which a strand in its handler meets (log entry 66). -/
def execGang (s : State) : Result :=
  if (s.core (coreOf s.cur)).gang.on then .next s
  else s.runWaitC .gang noAddr (fun _ t => if t.gangBroken t.cur then some { cause := .gangsync } else none) gangGo

/-- `SPLIT` (R116, R118). -/
def execSplit (s : State) : Result :=
  if s.ctxOf.gang then .next (s.modCore (coreOf s.cur) (fun k => { k with gang := Gang.reset }))
  else .next (s.raise s.cur { cause := .gangsync, slot := 2 })

/-- What strand 0's `GBR` of the long word decides: none while its predicate is being written (R116, R372). -/
def State.gbrDecision (s : State) (n : Nat) : Option Bool :=
  let st := s.strand (4 * coreOf n)
  match st.front.pairs with
  | [] => some false
  | p :: _ =>
    match p.decoded.c with
    | .ok (.gbr k x _ _) =>
      if k ≠ 0 ∧ st.inFlight (.k k.toNat) then none else some ((st.regs.kP k.toNat).v.getLsbD 0 != x)
    | _ => some false

/-- `GBR` (R116, R154): the predicate of strand 0 decides; its tag raises POISON in strand 0. -/
def execGbr (k : BitVec 3) (_x : Bool) (sv : BitVec 18) (b : BitVec 3) (s : State) : Result :=
  let n := s.cur
  if !s.ctxOf.gang then .next (s.raise n { cause := .gangsync, slot := 2 })
  else
    match s.gbrDecision n with
    | none => .next (s.stall n)
    | some taken =>
      if posInCore n = 0 ∧ ((s.strand n).regs.kP k.toNat).t.getLsbD 0 then
        .next (s.raise n { cause := .poison, slot := 2, einfo := 3 })
      else if taken then .next (s.jump n (branchTo s.ctxOf.pc sv.toInt b))
      else .next s

/-! ### `YIELD`, `PRCHK` -/

/-- The strand is saved cooperatively: it issues nothing until its group resumes; its PC stands at NextPC (R158). -/
def Strand.yieldNow (st : Strand) : Strand :=
  { st with front := { st.front with yielded := true, stopped := true, waitC := none } }

/-- Everything but slot-C waits has drained. -/
def Strand.settledBut (st : Strand) (ids : List Nat) : Bool :=
  st.flights.isEmpty && st.wq.isEmpty && st.open_.all (fun e => ids.contains e.id)

/-- `YIELD` under PREQ: when the strand has drained it is saved; in gang mode all four strands are (R158, R377). -/
def yieldGo (e : Entry) (s : State) : State :=
  let n := s.cur
  let c := coreOf n
  if (s.core c).gang.on then
    let ns := coreStrands c
    let isY (x : Entry) : Bool := decide (x.instr = .yield)
    if ns.all (fun m => (s.strand m).settledBut (((s.strand m).open_.filter isY).map Entry.id)) then
      ns.foldl (fun s m => s.modStrand m (fun st =>
        { st with open_ := st.open_.filter (fun x => !isY x) }.yieldNow)) s
    else s
  else if (s.strand n).settledBut [e.id] then (s.dropEntry n e.id).modStrand n Strand.yieldNow
  else s

/-- `YIELD` (R158): no effect while PREQ is 0. -/
def execYield (s : State) : Result :=
  if (s.resuming .yield).isNone && !s.me.ctl.preq then .next s
  else s.runWaitC .yield noAddr noTrap yieldGo

/-- Clocks that remain before the forced save (R159, R375). -/
def prchkValue (c : Ctl) (clk : Nat) : W64 :=
  if !c.preq then ~~~0#64 else BitVec.ofNat 64 (c.t0 + c.dline.toNat - clk)

/-- `PRCHK` (R159). -/
def execPrchk (d : BitVec 6) (s : State) : Result :=
  s.runC (.prchk d) (fun _ t => t.putC t.cur (.prchk d) [.s ⟨prchkValue t.me.ctl t.clk, false⟩] 0)

/-! ### Traps on purpose (R160) -/

/-- `TRAP`. -/
def execTrap (a : BitVec 6) (p : Bool) (c : BitVec 12) (s : State) : Result :=
  match checkInstr s s.cur 2 (.trap a p c) with
  | .skip => .next s
  | .stall => .next (s.stall s.cur)
  | .trap t => .next (s.raise s.cur t)
  | .go st x _ _ _ _ _ _ =>
    let v := (x.headD VV.zero).toSV
    if v.t then .next (s.raise s.cur { cause := .poison, slot := 2 })
    else if v.v ≠ 0 then
      .next ((s.setStrand s.cur st).raise s.cur { cause := .sysc, slot := 2, einfo := (1#1 ++ c).setWidth 64 })
    else .next (s.setStrand s.cur st)

/-- `SYSC`. -/
def execSysc (c : BitVec 12) (s : State) : Result :=
  .next (s.raise s.cur { cause := .sysc, slot := 2, einfo := c.setWidth 64 })

/-- `BRK`. -/
def execBrk (c : BitVec 12) (s : State) : Result :=
  .next (s.raise s.cur { cause := .brk, slot := 2, einfo := c.setWidth 64 })

/-! ### Re-injection (R161, R368) -/

/-- Place the reservations of the FRAME entries, in entry order; an entry whose reservation stands keeps it. -/
def State.placeFrame (s : State) (n : Nat) : State :=
  let es := (s.strand n).frame
  let s1 := (es.filter (fun e => !e.placed)).foldl (fun s e => e.dests.foldl (fun s d => s.reserve n e.id d) s) s
  s1.modStrand n (fun st => { st with frame := st.frame.map (fun e => { e with placed := true }) })

/-- Begin the completion of the first FRAME entry: it becomes an open operation before the strand's later work; one of slot C, which a
resume has made (R381), is the one that waits until it completes. -/
def Strand.injectNext (st : Strand) (seq clk : Nat) : Strand :=
  match st.frame with
  | [] => st
  | e :: r =>
    { st with
      frame := r
      open_ := st.open_ ++ [{ e with seq := seq, slip := true, resolved := false, rds := [], clk := clk }]
      front := { st.front with waitC := if e.slot = 2 then some e.id else st.front.waitC } }

/-- One clock of `RPLY` or `ERET`: entries complete one at a time; `fin` acts after the last. -/
def reinject (fin : State → State) (e : Entry) (s : State) : State :=
  let n := s.cur
  let s1 := if e.step = 0 then
      (s.placeFrame n).modEntry n e.id (fun x => { x with step := 1 })
    else s
  let st := s1.strand n
  if st.open_.any (fun x => x.frame) then s1
  else if st.frame.isEmpty then fin (s1.finishC n e [])
  else if st.drainedBefore e.seq 1 && st.performedBefore e.seq 1 then
    s1.modStrand n (fun x => x.injectNext e.seq s1.clk)
  else s1

/-- `RPLY` (R161). -/
def execRply (s : State) : Result := s.runWaitC .rply noAddr noTrap (reinject (fun t => t))

/-- `ERET` (R161, R368). -/
def execEret (s : State) : Result := s.runWaitC .eret noAddr noTrap (reinject (fun t => t.returnTrap t.cur))

/-! ### System registers (Table 6-12, R162) -/

def bit64 (b : Bool) (i : Nat) : W64 := (BitVec.ofBool b).setWidth 64 <<< i

/-- STATUS (Table 16-2). -/
def State.statusOf (s : State) (n : Nat) : W64 :=
  let c := (s.strand n).ctl
  let g := (s.core (coreOf n)).gang
  bit64 c.pinLost 7 ||| bit64 c.preq 6 ||| bit64 ((g.on && !g.away.contains (posInCore n)) || c.leftGang) 5 ||| bit64 c.exl 3

/-- ECAUSE (Table 16-3). -/
def Ctl.ecause (c : Ctl) : W64 :=
  bit64 c.fx 23 ||| bit64 c.rq 22 ||| (c.eslot.setWidth 64 <<< 20) ||| (c.sub.setWidth 64 <<< 8) ||| c.cause.setWidth 64

/-- LOCID (Table 1-6, R27). -/
def State.locid (s : State) (n : Nat) : W64 :=
  let own := s.fabric.own
  let l := own.getD 0
  let d := dieOf n
  bit64 own.isSome 31 ||| BitVec.ofNat 64 (l / 32 % 1024 * 2 ^ 21 + l % 32 * 2 ^ 16 + d / 4 * 2 ^ 15 + d % 8 * 2 ^ 12 +
    n / 32 % 8 * 2 ^ 9 + n / 4 % 8 * 2 ^ 6 + n % 4 * 2 ^ 4)

/-- The value that `MFS` reads (Table 6-12). -/
def State.sysreg (s : State) (n num : Nat) : W64 :=
  let st := s.strand n
  let c := st.ctl
  let k := s.core (coreOf n)
  if num = 0x00 then s.statusOf n
  else if num = 0x01 then BitVec.ofNat 64 (flagSummary c.flags)
  else if num = 0x02 then c.srng
  else if num = 0x03 then c.splim.setWidth 64
  else if num = 0x04 then BitVec.ofNat 64 (512 - k.park.length)
  else if num = 0x05 then bit64 c.preq 0
  else if num = 0x06 then c.dline.setWidth 64
  else if num = 0x07 then c.quant.setWidth 64
  else if num = 0x08 then
    (List.range 8).foldl (fun a b => a ||| (((k.bank b).gen.setWidth 8).setWidth 64 <<< (8 * b))) 0
  else if num = 0x09 then
    BitVec.ofNat 64 (((st.bound.bind (fun b => mget? s.lqueues b.qnum)).map LaunchQueue.tickets).getD 0 % 2048)
  else if num = 0x0A then s.locid n
  else if num = 0x0B then BitVec.ofNat 64 s.clk
  else if num = 0x0C then c.trapBase
  else if num = 0x0D then c.dbgctl.setWidth 64
  else if num = 0x20 then c.epc
  else if num = 0x21 then c.ecause
  else if num = 0x22 then c.einfo
  else if num = 0x23 then c.eaddr
  else if num = 0x24 then BitVec.ofNat 64 st.frame.length
  else if 0x40 ≤ num ∧ num < 0x80 then
    BitVec.ofNat 64 (winLimit (s.fabric.window (num - 0x40)) * 2 ^ 32 + s.winOut (num - 0x40) % 65536)
  else 0

/-- `MFS` or `MTS` may take effect: every earlier instruction has written back, and for FLG every earlier access has
performed too (R54, R162). -/
def Strand.sysReady (st : Strand) (e : Entry) (num : Nat) : Bool :=
  st.drainedBefore e.seq e.slot && (num != 1 || st.performedBefore e.seq e.slot)

/-- `MFS` (R162). -/
def execMfs (d : BitVec 6) (m : BitVec 8) (s : State) : Result :=
  s.runWaitC (.mfs d m) noAddr noTrap (fun e t =>
    if t.me.sysReady e m.toNat then t.finishC t.cur e [.s ⟨t.sysreg t.cur m.toNat, false⟩] else t)

/-- The course of every `MTS`: when it takes effect, `f` writes the value (R162). -/
def State.runMts (s : State) (i : Instr) (num : Nat) (f : W64 → Strand → Strand) : Result :=
  s.runWaitC i noAddr noTrap (fun e t =>
    if t.me.sysReady e num then (t.modStrand t.cur (f e.xv)).finishC t.cur e [] else t)

/-- What `MTS` writes to a register without a row of its own; a read-only register ignores it (R139). -/
def Strand.mtsPlain (st : Strand) (num : Nat) (v : W64) : Strand :=
  let c := st.ctl
  if num = 0x07 then { st with ctl := { c with quant := v.setWidth 16 } }
  else if num = 0x0C then { st with ctl := { c with trapBase := v } }
  else if num = 0x0D then { st with ctl := { c with dbgctl := v.setWidth 2 } }
  else if num = 0x22 then { st with ctl := { c with einfo := v } }
  else if num = 0x23 then { st with ctl := { c with eaddr := v } }
  else st

/-- `MTS` (R162, R366). -/
def execMts (a : BitVec 6) (p : Bool) (m : BitVec 8) (s : State) : Result :=
  s.runMts (.mts a p m) m.toNat (fun v st => st.mtsPlain m.toNat v)

/-- `MTS` to FLG: the flags written as 1 are cleared in every lane (R52, R54). -/
def execMtsFlg (a : BitVec 6) (p : Bool) (s : State) : Result :=
  s.runMts (.mtsFlg a p) 1 (fun v st => { st with ctl := { st.ctl with
    flags := clearFlags st.ctl.flags (v.toNat % 128) (~~~0#64) } })

/-- `MTS` to SRNG: zero gives the fixed seed (R46). -/
def execMtsSrng (a : BitVec 6) (p : Bool) (s : State) : Result :=
  s.runMts (.mtsSrng a p) 2 (fun v st => { st with ctl := { st.ctl with
    srng := if v = 0 then 0x9E3779B97F4A7C15#64 else v } })

/-- `MTS` to STATUS: EXL, but not to 0 while FRAME entries stand; PINLOST is cleared by 1 (R365, Table 16-2). -/
def execMtsStatus (a : BitVec 6) (p : Bool) (s : State) : Result :=
  s.runMts (.mtsStatus a p) 0 (fun v st => { st with ctl := { st.ctl with
    exl := if v.getLsbD 3 then true else (st.ctl.exl && !st.frame.isEmpty)
    pinLost := st.ctl.pinLost && !v.getLsbD 7 } })

/-- `MTS` to EPC: ESLOT := 0 and every SLIP mark is cleared (R366). -/
def execMtsEpc (a : BitVec 6) (p : Bool) (s : State) : Result :=
  s.runMts (.mtsEpc a p) 0x20 (fun v st => { st with
    ctl := { st.ctl with epc := v, eslot := 0 }
    front := { st.front with frameMarks := [] } })

/-- `MTS` to ECAUSE; 3 into ESLOT writes 0 (R366). -/
def execMtsEcause (a : BitVec 6) (p : Bool) (s : State) : Result :=
  s.runMts (.mtsEcause a p) 0x21 (fun v st => { st with ctl := { st.ctl with
    fx := v.getLsbD 23, rq := v.getLsbD 22
    eslot := (let x := v.extractLsb' 20 2; if x = 3 then 0 else x)
    sub := v.extractLsb' 8 8, cause := v.extractLsb' 0 8 } })

/-! ### `TLBINV` (R163) -/

/-- `TLBINV` after issue: the request goes to the Curator once; the shootdown completes the operation (R78). -/
def tlbinvGo (all : Bool) (e : Entry) (s : State) : State :=
  let n := s.cur
  if e.step ≠ 0 then s
  else if !all ∧ e.yv = 0 then s.finishC n e []
  else
    let q : Shoot :=
      { n := n, id := e.id, asid := s.asidOf n, base := if all then 0 else va57 e.xv
        len := if all then 2 ^ 57 else e.yv.toNat, dropped := none }
    ({ s with cur8 := { s.cur8 with shootdowns := s.cur8.shootdowns ++ [q] } }).modEntry n e.id (fun x => { x with step := 1 })

/-- `TLBINV` (R163). -/
def execTlbinv (a b : BitVec 6) (p q l : Bool) (s : State) : Result :=
  s.runWaitC (.tlbinv a b p q l) (fun x k => if k = 0 then x.av else 0) noTrap (tlbinvGo l)

/-! ### `HALT` (R165) -/

/-- Mutexes that a strand position holds, ascending (R332). -/
def Core.held (c : Core) (p : Nat) : List Nat := (c.muts.filter (fun m => m.2.holder == some p)).map Prod.fst

/-- `HALT` takes effect: nothing more issues; mutexes are released at the end of the clock (R165, R332). -/
def State.haltNow (s : State) (n : Nat) (e : Entry) : State :=
  let s1 := (s.dropEntry n e.id).modStrand n (fun st => { st with
    halted := true, front := { st.front with haltedPc := some e.pc, waitC := none } })
  s1.modCore (coreOf n) (fun c => { c with
    upds := c.upds ++ (c.held (posInCore n)).map (fun m => (posInCore n, Upd.unlock m (posInCore n) (s.pts n))) })

/-- A waiting `HALT`: every earlier operation has written back and every earlier access has performed (R165). -/
def haltGo (e : Entry) (s : State) : State :=
  if s.me.drainedBefore e.seq e.slot && s.me.performedBefore e.seq e.slot then s.haltNow s.cur e else s

/-- `HALT` (R165). -/
def execHalt (s : State) : Result := s.runWaitC .halt noAddr noTrap haltGo

/-- The open slot-C operation of strand `n`, when its instruction passes a test. -/
def State.openC (s : State) (n : Nat) (f : Instr → Bool) : Option Entry :=
  match (s.strand n).front.waitC with
  | none => none
  | some id => (s.entry? n id).filter (fun e => f e.instr)

/-- `STRAND_HALTED`: the `HALT` of strand `n` takes effect once the strand has drained (R165). -/
def execStrandHalted (n : Nat) (s : State) : Result :=
  match s.openC n (fun i => decide (i = .halt)) with
  | none => .next s
  | some e => .next (haltGo e { s with cur := n })

/-! ### `PCHK` (R166) -/

/-- `PCHK`: POISON when the operand carries a tag. -/
def execPchk (a : BitVec 6) (p v : Bool) (s : State) : Result :=
  match checkInstr s s.cur 2 (.pchk a p v) with
  | .skip => .next s
  | .stall => .next (s.stall s.cur)
  | .trap t => .next (s.raise s.cur t)
  | .go st x _ _ _ _ fl _ =>
    if (x.headD VV.zero).t ≠ 0 then .next (s.raise s.cur { cause := .poison, slot := 2 })
    else .next ((s.setStrand s.cur st).putC s.cur (.pchk a p v) [] fl)

end Sys2Proof.Machine
end

