-- ==== Sys2Proof/Machine/LoadStore.lean ====
section
/-! DEFINITION. Slot-A loads and stores: scalar (R257, R258, R273), vector, group, strided and indexed (R259, R260): what
each reads or writes, its checks, and its course from issue (R251, R252). -/

namespace Sys2Proof.Machine

/-! ### The course of slot A -/

/-- Operands of a slot-A instruction, its active lanes and its `EXT` immediate. -/
structure AIn where
  cap : Cap
  act : W64
  ext : Option (BitVec 20)

def AIn.av (x : AIn) : W64 := x.cap.x.toSV.v
def AIn.bv (x : AIn) : W64 := x.cap.y.toSV.v
def AIn.zv (x : AIn) : SV := (x.cap.z.headD VV.zero).toSV

/-- The operands that an entry captured. -/
def Entry.ain (e : Entry) : AIn := ⟨⟨e.x, e.y, e.z, e.pred⟩, actOf e.instr e.pred, e.ext⟩

/-- POISON with its operand and the address refused (Table 16-4). -/
def poisonAt (k : Nat) (va : W64) : Trap := { cause := .poison, einfo := BitVec.ofNat 64 k, eaddr := va }

/-- Fail with POISON when an operand is tagged. -/
def Plan.poison (p : Plan) (tagged : Bool) (k : Nat) (va : W64) : Plan := if tagged then p.fail (poisonAt k va) else p

/-- Issue of a slot-A instruction: the check of R131, its own checks, then `go` on the state with the pops to be made; a
translation that is awaited stalls it. -/
def State.runA (s : State) (i : Instr) (plan : AIn → State → Plan) (go : AIn → Strand → Plan → LaneFlags → State → State) :
    Result :=
  let n := s.cur
  match checkInstr s n 0 i with
  | .skip => .next s
  | .stall => .next (s.stall n)
  | .trap t => .next (s.raise n t)
  | .go st a b c pred act fl _ =>
    let x : AIn := ⟨⟨a.headD VV.zero, b.headD VV.zero, c, pred⟩, act, st.front.ctx.ext⟩
    let p := plan x s
    match p.verdict with
    | some t => .next (p.st.raise n { t with slot := 0 })
    | none =>
      if p.miss || st.openFull i then .next (p.st.stall n)
      else .next (go x st p (if (opForm i).nf then 0 else if (opForm i).vpred then maskFlags fl act else fl) p.st)

/-! ### Banks that decoding reads capture (R255) -/

/-- Codebook banks of the pages that reads decode through. -/
def rdBanks (raw : Bool) (rds : List Rd) : List Nat :=
  if raw then [] else ((rds.filter (fun r => fmtCb (leafFmt r.w1))).map (fun r => leafCbk r.w1)).eraseDups

/-- The capture of a core's current copies, (bank, copy) by bank. -/
def State.capsNow (s : State) (n : Nat) (bs : List Nat) : List (Nat × Nat) :=
  bs.map (fun b => (b, ((s.core (coreOf n)).bank b).curIdx))

/-- The captured copy of a bank. -/
def State.copyOf (s : State) (n : Nat) (caps : List (Nat × Nat)) (b : Nat) : BankCopy :=
  let k := (s.core (coreOf n)).bank b
  match caps.find? (fun c => c.1 == b) with
  | some c => k.copy c.2
  | none => k.current

/-- Mode of a bank's current copy in the core of strand `n`. -/
def State.modeOf (s : State) (n b : Nat) : Nat := ((s.core (coreOf n)).bank b).current.mode

/-- A decoding read waits for an unretired writer of a bank it reads (R282). -/
def Plan.banksReady (p : Plan) (n : Nat) (raw : Bool) : Plan :=
  if (rdBanks raw p.rds).any (fun b => (p.st.strand n).bankPending b) then { p with miss := true } else p

/-! ### Scalar forms -/

/-- Bytes and signedness of a scalar load. -/
def ldShape (i : Instr) : Nat × Bool :=
  match i with
  | .ldB .. => (1, true) | .ldBu .. => (1, false) | .ldH .. => (2, true) | .ldHu .. => (2, false)
  | .ldW .. => (4, true) | .ldWu .. => (4, false) | _ => (8, false)

/-- Bytes of a scalar store. -/
def stSize (i : Instr) : Nat :=
  match i with
  | .stB .. => 1 | .stH .. => 2 | .stW .. => 4 | _ => 8

/-- ea := A + IMM12 (R251); `LDA` reads at that address with its low three bits clear (R273). -/
def immEa (i : Instr) (x : AIn) : W64 :=
  let ea := x.av + immOf x.ext ((imm12 i).getD 0)
  match i with
  | .lda .. => ea &&& ~~~7#64
  | _ => ea

/-- The checks of a scalar load. -/
def planLd (i : Instr) (n slot : Nat) (x : AIn) (s : State) : Plan :=
  let ea := immEa i x
  ((({ st := s } : Plan)).poison (x.cap.x.tag 0) 0 ea).accesses n slot .load (scalarPieces ea (ldShape i).1)

/-- The value of a scalar load. -/
def ldValue (i : Instr) (e : Entry) : SV :=
  let (w, sg) := ldShape i
  let (v, m) := natAt e.rds (immEa i e.ain) w
  ⟨if sg then BitVec.ofInt 64 (sIntN (8 * w) v) else BitVec.ofNat 64 v, m⟩

/-- The checks of a scalar store. -/
def planSt (i : Instr) (n slot : Nat) (x : AIn) (s : State) : Plan :=
  let ea := immEa i x
  (((({ st := s } : Plan)).poison (x.cap.x.tag 0) 0 ea).poison x.zv.t 2 ea).accesses n slot .store (scalarPieces ea (stSize i))

/-- The bytes of a scalar store. -/
def stBytes (i : Instr) (x : AIn) : List (W64 × Byte) :=
  (leBytes (stSize i) x.zv.v.toNat).zipIdx.map (fun b => (immEa i x + BitVec.ofNat 64 b.2, b.1))

/-! ### Vector forms -/

/-- Register type, RAW, and the number of registers of `VLD`, `VST`, `VLDN`, `VSTN`. -/
def vecShape (i : Instr) : Nat × Bool × Nat :=
  match i with
  | .vld _ _ _ r t .. => (t.toNat, r, 1)
  | .vst _ _ _ r t .. => (t.toNat, r, 1)
  | .vldn _ _ _ c r t .. => (t.toNat, r, c.toNat + 1)
  | .vstn _ _ _ c r t .. => (t.toNat, r, c.toNat + 1)
  | _ => (0, true, 0)

/-- The checks of a vector load: register j at A + j F, F from the page of A (R259). -/
def planVld (i : Instr) (n slot : Nat) (x : AIn) (s : State) : Plan :=
  let (ty, raw, k) := vecShape i
  let p0 := (({ st := s } : Plan)).poison (x.cap.x.tag 0) 0 x.av
  let p1 := if x.act = 0 ∨ raw then p0 else p0.lookup n slot x.av
  -- without the attributes of A's page, and the mode that an unretired writer of its bank leaves, no other address is known
  if (p1.banksReady n raw).miss then p1.banksReady n raw
  else
    let f := readFootprint ty raw (s.modeOf n) ((p1.rds.head?).map (fun r => (r.w0, r.w1)))
    ((List.range k).foldl (fun p j =>
      p.readReg n slot ty raw x.act (s.modeOf n) (x.av + BitVec.ofNat 64 (j * f))) p1).banksReady n raw

/-- The registers of a vector load, with flags. -/
def vldValue (i : Instr) (e : Entry) (copy : Nat → BankCopy) : List DVal × LaneFlags :=
  let (ty, raw, k) := vecShape i
  let x := e.ain
  let f := readFootprint ty raw (fun b => (copy b).mode) (pageAt e.rds x.av)
  let l := (List.range k).map (fun j =>
    let (v, g) := decodeReg e.rds ty raw x.act copy (x.av + BitVec.ofNat 64 (j * f))
    finishVec v g e.pred x.act none)
  (l.map (fun r => DVal.v r.1), if (opForm i).nf then 0 else l.foldl (fun a r => a ||| r.2) 0)

/-- The checks of a vector store. -/
def planVst (i : Instr) (n slot : Nat) (x : AIn) (s : State) : Plan :=
  let (ty, raw, k) := vecShape i
  let p0 := (({ st := s } : Plan)).poison (x.cap.x.tag 0) 0 x.av
  let p1 := if x.act = 0 ∨ raw then p0 else p0.lookup n slot x.av
  let f := writeFootprint ty raw ((p1.rds.head?).map (fun r => (r.w0, r.w1)))
  -- without the attributes of A's page no other address is known, that of a tagged later register included
  let known := if p1.miss then x.cap.z.take 1 else x.cap.z
  let p2 := (known.zipIdx).foldl (fun (p : Plan) v =>
    p.poison (v.1.t &&& x.act != 0) 2 (x.av + BitVec.ofNat 64 (v.2 * f))) p1
  let p3 := if (x.cap.z.drop known.length).any (fun v => v.t &&& x.act != 0) then p2
    else p2.poison (x.cap.pred.t &&& x.act != 0) 3 x.av
  if p3.miss then p3
  else (List.range k).foldl (fun p j => p.writeReg n slot ty raw x.act (x.av + BitVec.ofNat 64 (j * f))) p3

/-- The bytes of a vector store, with flags. -/
def vstBytes (i : Instr) (x : AIn) (rds : List Rd) : List (W64 × Byte) × LaneFlags :=
  let (ty, raw, _) := vecShape i
  let l0 := (pageAt rds x.av).getD (0, 0)
  let f := writeFootprint ty raw (some l0)
  let rs := (x.cap.z.zipIdx).map (fun v =>
    let ea := x.av + BitVec.ofNat 64 (v.2 * f)
    encodeReg ((pageAt rds ea).getD l0) ty raw x.act ea v.1)
  (rs.flatMap Prod.fst, if (opForm i).nf then 0 else maskFlags (rs.foldl (fun a r => a ||| r.2) 0) x.act)

/-! ### One element a lane (R260) -/

/-- Type field of a strided or indexed form. -/
def laneTy (i : Instr) : Nat :=
  match i with
  | .vlds _ _ _ _ t .. => t.toNat | .vsts _ _ _ _ t .. => t.toNat
  | .vldg _ _ _ _ t .. => t.toNat | .vstg _ _ _ _ t .. => t.toNat
  | _ => 2

/-- Whether the form takes its offsets from a vector. -/
def laneIndexed (i : Instr) : Bool :=
  match i with
  | .vldg .. => true | .vstg .. => true | _ => false

/-- The address of lane `l`. -/
def laneEa (i : Instr) (x : AIn) (l : Nat) : W64 :=
  if laneIndexed i then x.av + (lane x.cap.y.v l).signExtend 64 else x.av + BitVec.ofNat 64 l * x.bv

/-- Active lanes, ascending. -/
def activeLanes (act : W64) : List Nat := (List.range 64).filter (fun l => act.getLsbD l)

/-- Poison of the address operands of a strided or indexed form. -/
def Plan.laneAddrPoison (p : Plan) (i : Instr) (x : AIn) : Plan :=
  let p1 := p.poison (x.cap.x.tag 0) 0 x.av
  if laneIndexed i then
    (activeLanes x.act).foldl (fun p l => p.poison (x.cap.y.tag l) 1 (laneEa i x l)) p1
  else p1.poison (x.cap.y.tag 0) 1 x.av

/-- The checks of one element at `ea`: its page's format and placement, its bytes, its scales (R255 with N = 1). -/
def Plan.readOne (p : Plan) (n slot : Nat) (raw : Bool) (mode : Nat → Nat) (ea : W64) : Plan :=
  if raw then p.element n slot .load ea 4
  else
  let p1 := p.lookup n slot ea
  match (p1.rds.drop p.rds.length).head? with
  | none => p1
  | some a =>
    let fmt := leafFmt a.w1
    let sck := leafSck a.w1
    let w := fmtBits fmt
    let mis : Trap := { cause := .fmtmis, slot := slot, eaddr := ea }
    if pairForbidden fmt sck || (sck == 2 && ptePs a.w0 == 0) then p1.fail mis
    else if fmt = 0 then (p1.element n slot .load ea 4).samePages p1.rds.length slot a.w1
    else if w == 4 || w == 6 ||
        va57 ea % pageSize (ptePs a.w0) % (w / 8) != 0 || (fmtCb fmt && sck == 1 && modeInt (mode (leafCbk a.w1))) then
      p1.fail mis
    else
      let p2 := p1.access n slot .load ea (w / 8)
      if sck = 0 then p2
      else
        let (sv, pv) := scaleVa a.w0 a.w1 w ea 0
        let p3 := p2.access n slot .load sv 1
        if sck = 2 then p3.access n slot .load pv 4 else p3

/-- The element read at `ea` for a lane. -/
def oneValue (rds : List Rd) (ty : Nat) (raw : Bool) (copy : Nat → BankCopy) (ea : W64) : El :=
  let (w0, w1) := (pageAt rds ea).getD (0, 0)
  let fmt := leafFmt w1
  let sck := leafSck w1
  if raw ∨ fmt = 0 then
    let (x, t) := natAt rds ea 4
    ⟨x, t, 0⟩
  else
      let w := fmtBits fmt
      let (x, t) := natAt rds ea (w / 8)
      let (sv, pv) := scaleVa w0 w1 w ea 0
      let (sc, t1) := if sck = 0 then (0, false) else natAt rds sv 1
      let (su, t2) := if sck = 2 then natAt rds pv 4 else (0, false)
      (decodeElem ty fmt sck (copy (leafCbk w1)) x sc su (t || t1 || t2)).headD ⟨0, false, 0⟩

/-- The checks of a strided or indexed load. -/
def planVldl (i : Instr) (n slot : Nat) (x : AIn) (s : State) : Plan :=
  let raw := laneTy i == 2
  ((activeLanes x.act).foldl (fun p l => p.readOne n slot raw (s.modeOf n) (laneEa i x l))
    ((({ st := s } : Plan)).laneAddrPoison i x)).banksReady n raw

/-- The register of a strided or indexed load, with flags. -/
def vldlValue (i : Instr) (e : Entry) (copy : Nat → BankCopy) : List DVal × LaneFlags :=
  let x := e.ain
  let ls := (List.range 64).map (fun l =>
    if x.act.getLsbD l then oneValue e.rds (laneTy i) (laneTy i == 2) copy (laneEa i x l) else ⟨0, false, 0⟩)
  let (v, f) := finishVec (vvOfEls 32 ls) (flagsOfEls 32 ls) e.pred x.act none
  ([.v v], f)

/-- The checks of one element written at `ea` (R256 with N = 1). -/
def Plan.writeOne (p : Plan) (n slot : Nat) (raw : Bool) (ea : W64) : Plan :=
  if raw then p.element n slot .store ea 4
  else
  let p1 := p.lookup n slot ea
  match (p1.rds.drop p.rds.length).head? with
  | none => p1
  | some a =>
    let fmt := leafFmt a.w1
    let w := fmtBits fmt
    if !writeFmtOk fmt (leafSck a.w1) then p1.fail { cause := .fmtmis, slot := slot, eaddr := ea }
    else if fmt = 0 then
      let p2 := p1.element n slot .store ea 4
      (p2.rds.drop p1.rds.length).foldl (fun (p : Plan) r =>
        if leafFmt r.w1 ≠ 0 ∨ leafSck r.w1 ≠ leafSck a.w1 then
          p.fail { cause := .fmtmis, slot := slot, eaddr := r.va } else p) p2
    else if va57 ea % pageSize (ptePs a.w0) % (w / 8) ≠ 0 then p1.fail { cause := .fmtmis, slot := slot, eaddr := ea }
    else p1.access n slot .store ea (w / 8)

/-- The checks of a strided or indexed store. -/
def planVstl (i : Instr) (n slot : Nat) (x : AIn) (s : State) : Plan :=
  let v := x.cap.z.headD VV.zero
  let p0 := (({ st := s } : Plan)).laneAddrPoison i x
  let p1 := (activeLanes x.act).foldl (fun (p : Plan) l => p.poison (v.tag l) 2 (laneEa i x l)) p0
  let p2 := p1.poison (x.cap.pred.t &&& x.act != 0) 3 x.av
  (activeLanes x.act).foldl (fun p l => p.writeOne n slot (laneTy i == 2) (laneEa i x l)) p2

/-- The bytes of a strided or indexed store, lane by lane in ascending order, with flags. -/
def vstlBytes (i : Instr) (x : AIn) (rds : List Rd) : List (W64 × Byte) × LaneFlags :=
  let v := (x.cap.z.headD VV.zero).v
  let raw := laneTy i == 2
  let rs := (activeLanes x.act).map (fun l =>
    let ea := laneEa i x l
    let fmt := ((pageAt rds ea).map (fun w => leafFmt w.2)).getD 0
    let (n, y) : Nat × Rounded := if raw ∨ fmt = 0 then (4, ⟨(lane v l).toNat, 0⟩)
      else (fmtBits fmt / 8, encodeElem (laneTy i) fmt (lane v l).toNat)
    ((leBytes n y.pat).zipIdx.map (fun b => (ea + BitVec.ofNat 64 b.2, b.1)), (l, y.flags)))
  (rs.flatMap Prod.fst, flagsOfList ((List.range 64).map (fun l =>
    ((rs.map Prod.snd).find? (fun f => f.1 == l)).map Prod.snd |>.getD 0)))

/-! ### All loads and all stores -/

/-- The checks of a load instruction. -/
def planRead (i : Instr) (n slot : Nat) (x : AIn) (s : State) : Plan :=
  match i with
  | .vld .. => planVld i n slot x s
  | .vldn .. => planVld i n slot x s
  | .vlds .. => planVldl i n slot x s
  | .vldg .. => planVldl i n slot x s
  | _ => planLd i n slot x s

/-- What a load instruction delivers once its reads have returned. -/
def readValue (i : Instr) (e : Entry) (copy : Nat → BankCopy) : List DVal × LaneFlags :=
  match i with
  | .vld .. => vldValue i e copy
  | .vldn .. => vldValue i e copy
  | .vlds .. => vldlValue i e copy
  | .vldg .. => vldlValue i e copy
  | _ =>
    let v := DVal.s (ldValue i e)
    ([v], v.ps)

/-- Whether a vector load reads bytes as stored. -/
def readRaw (i : Instr) : Bool :=
  match i with
  | .vld .. => (vecShape i).2.1
  | .vldn .. => (vecShape i).2.1
  | .vlds .. => laneTy i == 2
  | .vldg .. => laneTy i == 2
  | _ => true

/-- The checks of a store instruction. -/
def planWrite (i : Instr) (n slot : Nat) (x : AIn) (s : State) : Plan :=
  match i with
  | .vst .. => planVst i n slot x s
  | .vstn .. => planVst i n slot x s
  | .vsts .. => planVstl i n slot x s
  | .vstg .. => planVstl i n slot x s
  | _ => planSt i n slot x s

/-- The bytes a store instruction writes, with its flags. -/
def writeBytes (i : Instr) (x : AIn) (rds : List Rd) : List (W64 × Byte) × LaneFlags :=
  match i with
  | .vst .. => vstBytes i x rds
  | .vstn .. => vstBytes i x rds
  | .vsts .. => vstlBytes i x rds
  | .vstg .. => vstlBytes i x rds
  | _ => (stBytes i x, 0)

/-- A load issues: it stays open until its data returns; its banks are captured (R253, R255). -/
def State.issueLoad (s : State) (i : Instr) : Result :=
  s.runA i (fun x t => planRead i t.cur 0 x t) (fun x st p fl t =>
    let n := t.cur
    let caps := t.capsNow n (rdBanks (readRaw i) p.rds)
    let s1 := t.openOp n 0 i st x.cap (memOnly p.rds) p.rds
    let s2 := s1.modEntry n t.opId (fun e => { e with caps := caps, fl := fl })
    caps.foldl (fun s c => s.captureBank (coreOf n) c.1) s2)

/-- Windows that a list of pieces touches, each with the number of posted writes into it. -/
def windowsOf (l : List Target) : List (Nat × Nat) :=
  let ws := l.filterMap (fun t => match t with
    | .window w _ _ => some w
    | .mem _ => none)
  ws.eraseDups.map (fun w => (w, (ws.filter (fun v => v == w)).length))

/-- Ask every window touched for its allowance (R352). -/
def State.askAll (s : State) (who : Waiter) (ws : List (Nat × Nat)) : State × Bool :=
  ws.foldl (fun (a : State × Bool) w => let (t, ok) := a.1.askAllow w.1 who w.2
                                        (t, a.2 && ok)) (s, true)

/-- A write of strand `n` enters its write queue (R113, R234). -/
def State.queueWrite (s : State) (n id seq slot : Nat) (pc : W64) (i : Instr) (x : AIn) (va : W64) (pieces : List Piece)
    (fl : LaneFlags) (sfl : LaneFlags := 0) : State :=
  s.modStrand n (fun st => { st with wq := st.wq ++
    [{ id := id, seq := seq, slot := slot, pc := pc, instr := i, ext := x.ext, x := x.cap.x, y := x.cap.y, z := x.cap.z
       pred := x.cap.pred, va := va, pieces := pieces, fl := fl, sfl := sfl, peers := [] }] })

/-- A store issues: its bytes wait in the write queue; a window's exhausted allowance stalls it (R258). -/
def State.issueStore (s : State) (i : Instr) : Result :=
  s.runA i (fun x t => planWrite i t.cur 0 x t) (fun x st p fl t =>
    let n := t.cur
    let (bs, f) := writeBytes i x p.rds
    let pieces := piecesOf p.rds bs
    let c := st.front.ctx
    let (s0, ok) := t.askAll (.op n c.seq) (windowsOf (pieces.map Piece.tgt))
    if !ok then s0.stall n
    else
      let (id, s1) := s0.newId
      (s1.setStrand n st).queueWrite n id c.seq 0 c.pc i x x.av pieces f fl)

/-! ### The instructions -/

def execLdB (d a : BitVec 6) (p : Bool) (im : BitVec 12) (s : State) : Result := s.issueLoad (.ldB d a p im)
def execLdBu (d a : BitVec 6) (p : Bool) (im : BitVec 12) (s : State) : Result := s.issueLoad (.ldBu d a p im)
def execLdH (d a : BitVec 6) (p : Bool) (im : BitVec 12) (s : State) : Result := s.issueLoad (.ldH d a p im)
def execLdHu (d a : BitVec 6) (p : Bool) (im : BitVec 12) (s : State) : Result := s.issueLoad (.ldHu d a p im)
def execLdW (d a : BitVec 6) (p : Bool) (im : BitVec 12) (s : State) : Result := s.issueLoad (.ldW d a p im)
def execLdWu (d a : BitVec 6) (p : Bool) (im : BitVec 12) (s : State) : Result := s.issueLoad (.ldWu d a p im)
def execLdD (d a : BitVec 6) (p : Bool) (im : BitVec 12) (s : State) : Result := s.issueLoad (.ldD d a p im)

/-- `LDA`: an acquiring load of 8 bytes (R273). -/
def execLda (d a : BitVec 6) (p : Bool) (im : BitVec 12) (s : State) : Result := s.issueLoad (.lda d a p im)

def execStB (d a : BitVec 6) (p : Bool) (im : BitVec 12) (s : State) : Result := s.issueStore (.stB d a p im)
def execStH (d a : BitVec 6) (p : Bool) (im : BitVec 12) (s : State) : Result := s.issueStore (.stH d a p im)
def execStW (d a : BitVec 6) (p : Bool) (im : BitVec 12) (s : State) : Result := s.issueStore (.stW d a p im)
def execStD (d a : BitVec 6) (p : Bool) (im : BitVec 12) (s : State) : Result := s.issueStore (.stD d a p im)

def execVld (d a : BitVec 6) (p r : Bool) (t : BitVec 3) (n : Bool) (k : BitVec 3) (x : Bool) (s : State) : Result :=
  s.issueLoad (.vld d a p r t n k x)
def execVldn (d a : BitVec 6) (p : Bool) (c : BitVec 3) (r : Bool) (t : BitVec 3) (n : Bool) (k : BitVec 3) (x : Bool)
    (s : State) : Result := s.issueLoad (.vldn d a p c r t n k x)
def execVlds (d a b : BitVec 6) (p : Bool) (t : BitVec 2) (k : BitVec 3) (x : Bool) (s : State) : Result :=
  s.issueLoad (.vlds d a b p t k x)
def execVldg (d a b : BitVec 6) (p : Bool) (t : BitVec 2) (k : BitVec 3) (x : Bool) (s : State) : Result :=
  s.issueLoad (.vldg d a b p t k x)

def execVst (d a : BitVec 6) (p r : Bool) (t : BitVec 3) (n : Bool) (k : BitVec 3) (x : Bool) (s : State) : Result :=
  s.issueStore (.vst d a p r t n k x)
def execVstn (d a : BitVec 6) (p : Bool) (c : BitVec 3) (r : Bool) (t : BitVec 3) (n : Bool) (k : BitVec 3) (x : Bool)
    (s : State) : Result := s.issueStore (.vstn d a p c r t n k x)
def execVsts (d a b : BitVec 6) (p : Bool) (t : BitVec 2) (k : BitVec 3) (x : Bool) (s : State) : Result :=
  s.issueStore (.vsts d a b p t k x)
def execVstg (d a b : BitVec 6) (p : Bool) (t : BitVec 2) (k : BitVec 3) (x : Bool) (s : State) : Result :=
  s.issueStore (.vstg d a b p t k x)

end Sys2Proof.Machine
end

