-- ==== Sys2Proof/Machine/Atomics.lean ====
section
/-! DEFINITION. Atomics (R236 to R240, R272), `STA` (R273), fences (R249, R274), `WAITV` (R275, R337), the spill bank
(R276), multicast (R278), prefetch (R279). -/

namespace Sys2Proof.Machine

/-! ### `AMO`, `CAS` -/

/-- Bytes and address of an atomic: `FADD` takes a 4-byte word (R272). -/
def amoPlace (i : Instr) (x : AIn) : Nat × W64 :=
  match i with
  | .amo _ _ _ o _ => if o = 9 then (4, x.av &&& ~~~3#64) else (8, x.av &&& ~~~7#64)
  | _ => (8, x.av &&& ~~~7#64)

/-- Use code of an atomic. -/
def amoUse (i : Instr) : Nat :=
  match i with
  | .amo _ _ _ _ u => u.toNat
  | .cas _ _ _ u => u.toNat
  | _ => 0

/-- The operation of an atomic as packets name it: 10 is `CAS`. -/
def amoOp (i : Instr) : Nat :=
  match i with
  | .amo _ _ _ o _ => o.toNat
  | _ => 10

/-- The new value of an atomic of operation `op`, none when nothing is written, and flags of lane 0 (R272). -/
def amoNew (op : Nat) (old b expected : W64) : Option W64 × Nat :=
  match op with
  | 0 => (some (old + b), 0)
  | 1 => (some (old &&& b), 0)
  | 2 => (some (old ||| b), 0)
  | 3 => (some (old ^^^ b), 0)
  | 4 => (some (if b.toInt < old.toInt then b else old), 0)
  | 5 => (some (if old.toInt < b.toInt then b else old), 0)
  | 6 => (some (if b.toNat < old.toNat then b else old), 0)
  | 7 => (some (if old.toNat < b.toNat then b else old), 0)
  | 8 => (some b, 0)
  | 9 =>
    let r := fAdd (old.setWidth 32) (b.setWidth 32)
    (some (r.1.setWidth 64), r.2)
  | _ => (if old = expected then some b else none, 0)

/-- The checks of an atomic: its address, its operand, then the access as a write (R64, R251). -/
def planAmo (i : Instr) (n slot : Nat) (x : AIn) (s : State) : Plan :=
  let (w, ea) := amoPlace i x
  (((({ st := s } : Plan)).poison (x.cap.x.tag 0) 0 ea).poison (x.cap.y.tag 0) 1 ea).access n slot .store ea w

/-- An atomic at its home, as one access (R236): the state, the agent's new pts, the old value and the mark. -/
def State.atomicAt (s : State) (pts : W64) (op pa w : Nat) (b expected : W64) : State × W64 × W64 × Bool × Nat :=
  let line := pa / 256
  let old := BitVec.ofNat 64 (leNat (s.readBytes pa w))
  let mk := s.marked line
  let (new, fl) := amoNew op old b expected
  match new with
  | some v =>
    let (s1, ts) := s.store pts (atOffsets pa (leBytes w v.toNat))
    (s1, ts, old, mk, fl)
  | none =>
    -- a failed compare reads at the home, as an acquiring read does
    let (s1, p) := s.readHome pts line
    (s1, p, old, mk, fl)

/-- The value a NOR atomic returns: that of a valid lease copy of its caches, if there is one (Table 10-4, R239). -/
def State.norCopy (s : State) (n pa w : Nat) : Option (W64 × Bool) :=
  let asid := s.asidOf n
  let p := s.pts n
  let take (c : Copy) : W64 × Bool := (BitVec.ofNat 64 (leNat ((c.data.drop (pa % 256)).take w)), c.mark)
  match (mget? (s.core (coreOf n)).l1 (pa / 256)).filter (fun c => c.hits asid p) with
  | some c => some (take c)
  | none => ((mget? (s.die (dieOf n)).l2 (pa / 256)).filter (fun c => c.hits asid p)).map take

/-- An atomic performs at its place in program order, which every use code allows (Table 10-4, log entry 18). -/
def State.amoPerform (s : State) (n : Nat) (e : Entry) : State :=
  let x := e.ain
  let (w, _) := amoPlace e.instr x
  match e.rds with
  | [] => s
  | r :: _ =>
    match r.tgt with
    | .mem pa =>
      let s0 := match (s.strand n).bound with
        | none => s
        | some b => s.logLine b.lid (dieOf n) (pa / 256)
      let nor := if amoUse e.instr = 3 then s0.norCopy n pa w else none
      let (s1, ts, old, dmg, fl) := s0.atomicAt (s0.pts n) (amoOp e.instr) pa w x.bv x.zv.v
      let (v, t) := nor.getD (old, dmg)
      (s1.setPts n ts).completeEntry n e [.s ⟨v, t⟩] (lane0Flags (withPs t fl))
    | .window _ dst pa =>
      match r.got with
      | some (bs, m) =>
        let old := BitVec.ofNat 64 (leNat bs)
        let fl := (amoNew (amoOp e.instr) old x.bv x.zv.v).2
        s.completeEntry n e [.s ⟨old, m⟩] (lane0Flags (withPs m fl))
      | none =>
        if (s.strand n).requested e.id then s
        else
          let bytes := atOffsets 0 (leBytes w x.bv.toNat) ++
            (if amoOp e.instr = 10 then atOffsets 8 (leBytes 8 x.zv.v.toNat) else [])
          s.sendReq n e.id dst (.atomic (amoOp e.instr)) pa bytes

/-- An atomic issues and stays open until it has performed. -/
def State.issueAmo (s : State) (i : Instr) : Result :=
  s.runA i (fun x t => planAmo i t.cur 0 x t) (fun x st p fl t =>
    (t.openOp t.cur 0 i st x.cap (memOnly p.rds) p.rds).modEntry t.cur t.opId (fun e => { e with fl := fl }))

def execAmo (d a b : BitVec 6) (o : BitVec 4) (u : BitVec 3) (s : State) : Result := s.issueAmo (.amo d a b o u)
def execCas (d a b : BitVec 6) (u : BitVec 3) (s : State) : Result := s.issueAmo (.cas d a b u)

/-! ### Posted writes of a strand (R243, R350) -/

/-- Posted writes before operation `id` that are not acknowledged. -/
def Strand.postedBefore (st : Strand) (id : Nat) : List Posted := st.posted.filter (fun p => decide (p.id < id))

/-- Every earlier posted write is answered, and none waits in the write queue: they are visible where they go (R248, R249). -/
def Strand.postedSeen (st : Strand) (e : Entry) : Bool :=
  (st.postedBefore e.id).all (fun p => p.acked || p.refused) && st.wq.all (fun w => !ordLt w.seq w.slot e.seq e.slot)

/-- `FENCE.P`: every earlier posted write is answered and every earlier window load and atomic has returned (R249). -/
def Strand.fencePReady (st : Strand) (e : Entry) : Bool :=
  st.postedSeen e && st.winReqs.all (fun w => !decide (w.id < e.id))

/-- The earliest earlier posted write that was refused (R350). -/
def Strand.refusedBefore (st : Strand) (e : Entry) : Option Posted := (st.postedBefore e.id).find? (fun p => p.refused)

/-- Forget the earlier posted writes once they have been waited for. -/
def State.clearPosted (s : State) (n id : Nat) : State :=
  s.modStrand n (fun st => { st with posted := st.posted.filter (fun p => !decide (p.id < id)) })

/-! ### Fences (Table 10-7) -/

/-- Issue of a fence: at slip zero, open and not resolved (R274). -/
def State.issueFence (s : State) (i : Instr) : Result :=
  if s.me.slipped s.ctxOf.seq || s.me.openFull i then .next (s.stall s.cur)
  else .next (s.openOp s.cur 0 i s.me {} false [])

def execFenceO (sv : BitVec 3) (s : State) : Result := s.issueFence (.fenceO sv)
def execFenceP (s : State) : Result := s.issueFence .fenceP
def execFenceH (s : State) : Result := s.issueFence .fenceH
def execFenceE (s : State) : Result := s.issueFence .fenceE

/-- A task was enqueued by strand `n` of the group that runs there (R249). -/
def State.enqueuedBy (s : State) (n : Nat) (t : Task) : Bool :=
  t.strand == n && (s.strand n).bound.any (fun b => b.lid == t.bound.lid && b.grp == t.bound.grp)

/-- Every tile task of the strand has completed (R249). -/
def State.tasksDone (s : State) (n : Nat) : Bool := s.tasks.all (fun t => !s.enqueuedBy n t || decide (t.phase = .done))

/-- The checks of `STA`. -/
def staEa (i : Instr) (x : AIn) : W64 := immEa i x &&& ~~~7#64

def planSta (i : Instr) (n slot : Nat) (x : AIn) (s : State) : Plan :=
  let ea := staEa i x
  (((({ st := s } : Plan)).poison (x.cap.x.tag 0) 0 ea).poison x.zv.t 2 ea).access n slot .store ea 8

/-- `STA` issues and waits as `FENCE.H` and `FENCE.P` do before its write (R273). -/
def execSta (d a : BitVec 6) (p : Bool) (im : BitVec 12) (s : State) : Result :=
  s.runA (.sta d a p im) (fun x t => planSta (.sta d a p im) t.cur 0 x t) (fun x st q _ t =>
    t.openOp t.cur 0 (.sta d a p im) st x.cap false q.rds)

/-- The oldest fence or `STA` of a strand that has not resolved. -/
def Strand.oldestFence (st : Strand) : Option Entry :=
  st.open_.find? (fun e => match e.instr with
    | .fenceO _ => true
    | .fenceP => true
    | .fenceH => true
    | .fenceE => true
    | .sta .. => true
    | _ => false)

/-- `FENCE_RESOLVE`: the wait of the oldest fence of strand `n` ends, if it can; a refused posted write is reported by
`FENCE.P` and `STA` (R249, R273, R350). -/
def execFenceResolve (n : Nat) (s : State) : Result :=
  let st := s.strand n
  match st.oldestFence with
  | none => .next s
  | some e =>
    if !st.mayPerform e then .next s
    else
      match e.instr with
      | .fenceO _ => .next (s.completeEntry n e [] 0)
      | .fenceH => if st.postedSeen e then .next (s.completeEntry n e [] 0) else .next s
      | .fenceE =>
        -- the join edge of every task waited for (R241, R249)
        let p := st.tcs.foldl (fun p c => wmax p c.2.pts) (s.pts n)
        if s.tasksDone n then .next ((s.setPts n p).completeEntry n e [] 0) else .next s
      | .fenceP =>
        if !st.fencePReady e then .next s
        else
          let s1 := s.clearPosted n e.id
          (match st.refusedBefore e with
           | some p => .next (s1.trapEntry n e { cause := .peer, sub := peerRefused, eaddr := p.va })
           | none => .next (s1.completeEntry n e [] 0))
      | _ =>
        -- STA
        let x := e.ain
        if e.rds.isEmpty ∨ !st.fencePReady e then .next s
        else
          let s1 := s.clearPosted n e.id
          (match st.refusedBefore e with
           | some p => .next (s1.trapEntry n e { cause := .peer, sub := peerRefused, eaddr := p.va })
           | none =>
             -- its page may have been closed or passed since it issued (R339)
             let p := planSta e.instr n 0 x s1
             match p.verdict with
             | some t => .next (p.st.trapEntry n e t)
             | none =>
             if p.miss then .next p.st
             else
             let bs := (leBytes 8 x.zv.v.toNat).zipIdx.map (fun b => (staEa e.instr x + BitVec.ofNat 64 b.2, b.1))
             let pieces := piecesOf p.rds bs
             let (s2, ok) := p.st.askAll (.op n e.id) (windowsOf (pieces.map Piece.tgt))
             if ok then .next ((s2.completeEntry n e [] 0).queueWrite n e.id e.seq e.slot e.pc e.instr x (staEa e.instr x) pieces 0)
             else .next s2)

/-! ### `WAITV` -/

/-- Bytes and address of the word waited for (Table 11-13). -/
def waitvPlace (i : Instr) (x : AIn) : Nat × W64 :=
  match i with
  | .waitv _ _ _ _ _ _ w => if w then (4, x.av &&& ~~~3#64) else (8, x.av &&& ~~~7#64)
  | _ => (8, x.av)

/-- COND of `WAITV` at a width. -/
def waitvHolds (c w v b : Nat) : Bool :=
  let v := v % 2 ^ (8 * w)
  let b := b % 2 ^ (8 * w)
  match c with
  | 0 => v == b
  | 1 => v != b
  | 2 => decide (b ≤ v)
  | 3 => decide (b < v)
  | 4 => decide (sIntN (8 * w) b ≤ sIntN (8 * w) v)
  | _ => decide (sIntN (8 * w) b < sIntN (8 * w) v)

def planWaitv (i : Instr) (n slot : Nat) (x : AIn) (s : State) : Plan :=
  let (w, ea) := waitvPlace i x
  ((({ st := s } : Plan)).poison (x.cap.x.tag 0) 0 ea).access n slot .load ea w

/-- `WAITV` issues and waits, unresolved, for a satisfying value (R275). -/
def execWaitv (d a b : BitVec 6) (p q : Bool) (c : BitVec 3) (w : Bool) (s : State) : Result :=
  s.runA (.waitv d a b p q c w) (fun x t => planWaitv (.waitv d a b p q c w) t.cur 0 x t) (fun x st pl _ t =>
    t.openOp t.cur 0 (.waitv d a b p q c w) st x.cap false pl.rds)

/-- What a `WAITV` is doing, as its step says: a read is under way; it watches its word; its value has come; it watches, and
the word's line has been written at its home. -/
def waitvReading : Nat := 0
def waitvWatching : Nat := 1
def waitvMet : Nat := 2
def waitvSeen : Nat := 3

/-- A write has been made at the home of the line that a `WAITV` watches since its last read of it (R337). -/
def State.writeSeen (s : State) (e : Entry) : Bool :=
  (match e.instr with
   | .waitv .. => e.step == waitvWatching
   | _ => false) &&
    e.rds.any (fun r => match r.tgt with
      | .mem pa => decide ((s.home (pa / 256)).wts ≠ e.aux)
      | .window _ _ _ => false)

/-- At the start of a clock every `WAITV` learns of the writes made in earlier clocks (R337). -/
def State.noteWrites (s : State) : State :=
  { s with strands := s.strands.map (fun (p : Nat × Strand) =>
      if p.2.open_.any s.writeSeen then
        (p.1, { p.2 with open_ := p.2.open_.map (fun e => if s.writeSeen e then { e with step := waitvSeen } else e) })
      else p) }

/-- A read is due: one is under way, or a write was seen, or 4,096 clocks have passed since the last (R337). -/
def State.waitvDue (s : State) (e : Entry) : Bool :=
  e.step == waitvReading || e.step == waitvSeen || decide (e.clk + 4096 ≤ s.clk)

/-- The condition of a `WAITV` holds of a value that it has read (R275). -/
def Entry.waitvMeets (e : Entry) (v : Nat) : Bool :=
  match e.instr with
  | .waitv _ _ _ _ _ c _ => waitvHolds c.toNat (waitvPlace e.instr e.ain).1 v e.ain.bv.toNat
  | _ => false

/-- Judge a value that `WAITV` read: POISON, completion in the clock after, or the next read later (R253, R337). -/
def State.waitvJudge (s : State) (n : Nat) (e : Entry) (v : Nat) (tagged : Bool) (wts : W64) : State :=
  if tagged then s.trapEntry n e { cause := .poison, eaddr := (waitvPlace e.instr e.ain).2 }
  else if e.waitvMeets v then
    -- resolved now; the value writes back in the next clock
    s.modEntry n e.id (fun y => { y with resolved := true, step := waitvMet, aux := BitVec.ofNat 64 v, clk := s.clk + 1 })
  else s.modEntry n e.id (fun y => { y with
    step := waitvWatching, aux := wts, clk := s.clk, rds := y.rds.map (fun r => { r with got := some ([], false) }) })

/-- The read under way of a `WAITV` goes on: memory at once, a window when its value has returned (R244, R275). -/
def State.waitvRead (s : State) (n : Nat) (e : Entry) : State :=
  match e.rds with
  | [] => s
  | r :: _ =>
    match r.tgt with
    | .mem pa =>
      let (s1, bs, m) := s.load n pa r.len true
      s1.waitvJudge n e (leNat bs) m (s1.home (pa / 256)).wts
    | .window _ dst pa =>
      match r.got with
      | some (bs, m) => s.waitvJudge n e (leNat bs) m 0
      | none => if (s.strand n).requested e.id then s else s.sendReq n e.id dst (.load r.len) pa []

/-- `WAITV_REREAD`: an acquiring read of the word, when it is due. Each read after the first translates its address again, so
that no translation is kept between reads (R78, R337). -/
def execWaitvReread (n id : Nat) (s : State) : Result :=
  match s.entry? n id with
  | none => .next s
  | some e =>
    if e.step = waitvMet then
      (if e.clk ≤ s.clk ∧ !(s.strand n).blockedEntry e then .next (s.completeEntry n e [.s ⟨e.aux, false⟩] 0) else .next s)
    else if !(s.strand n).mayPerform e || !s.waitvDue e then .next s
    else if e.step = waitvReading then .next (s.waitvRead n e)
    else
      let p := planWaitv e.instr n 0 e.ain s
      match p.verdict with
      | some t => .next (p.st.trapEntry n e t)
      | none =>
        if p.miss then .next p.st
        else
          let e1 := { e with rds := p.rds, step := waitvReading }
          .next ((p.st.modEntry n id (fun _ => e1)).waitvRead n e1)

/-! ### Spill bank (R276) -/

/-- Offset and bytes of a spill-bank access. -/
def spillPlace (i : Instr) : Nat × Nat :=
  match i with
  | .spill _ v o => (o.toNat, if v then 256 else 8)
  | .fill _ v o => (o.toNat, if v then 256 else 8)
  | _ => (0, 0)

/-- An access beyond SPLIM.LIMIT. -/
def Ctl.spillOver (c : Ctl) (i : Instr) : Bool := decide (c.splim.toNat < (spillPlace i).1 + (spillPlace i).2)

/-- Write a vector, or its first `k` lanes, into the spill bank from word `w` on, with tags. -/
def spillPut (m : AMap (W32 × Bool)) (w k : Nat) (x : VV) : AMap (W32 × Bool) :=
  (List.range k).foldl (fun m i =>
    if lane x.v i = 0 ∧ !x.tag i then mdel m (w + i) else mset m (w + i) (lane x.v i, x.tag i)) m

/-- Read `k` lanes of the spill bank. -/
def spillGet (m : AMap (W32 × Bool)) (w k : Nat) : VV :=
  let l := (List.range k).map (fun i => mget m (w + i) ((0 : W32), false))
  ⟨vecOfList (l.map Prod.fst), maskOfList (l.map Prod.snd)⟩

/-- The bank after a `SPILL` of value `x`; a scalar's one tag covers both of its words. -/
def spillStore (m : AMap (W32 × Bool)) (i : Instr) (x : VV) : AMap (W32 × Bool) :=
  match i with
  | .spill _ v o => spillPut m (o.toNat / 4) (if v then 64 else 2) (if v then x else ⟨x.v, if x.t.getLsbD 0 then 3 else 0⟩)
  | _ => m

/-- The bank as every issued `SPILL` leaves it, those included whose slot an earlier slot could still undo (R276). -/
def Strand.spillView (st : Strand) : AMap (W32 × Bool) :=
  st.open_.foldl (fun m e => spillStore m e.instr (e.z.headD VV.zero)) st.spill

/-- The value that a `FILL` delivers. -/
def fillValue (m : AMap (W32 × Bool)) (v : Bool) (o : Nat) : DVal :=
  if v then .v (spillGet m (o / 4) 64)
  else
    let x := spillGet m (o / 4) 2
    .s ⟨x.v.setWidth 64, x.t != 0⟩

/-- Issue of an operation with a fixed clock whose result is known: it stands in Z until the write-back (R253). -/
def State.openKnown (s : State) (n : Nat) (i : Instr) (st : Strand) (v : DVal) : State :=
  (s.openOp n 0 i st {} true []).modEntry n s.opId (fun e => { e with done := true, z := [v.toVV], fl := v.ps })

/-- SPOVF comes before every other check of a spill-bank access (R276, R362). -/
def State.spillChecked (s : State) (i : Instr) (r : Result) : Result :=
  if s.me.ctl.spillOver i then .next (s.raise s.cur { cause := .spovf, slot := 0 }) else r

/-- `SPILL` (R276): open while an earlier slot can still trap, for its write is then undone (R113, R364). -/
def execSpill (d : BitVec 6) (v : Bool) (o : BitVec 16) (s : State) : Result :=
  s.spillChecked (.spill d v o) (s.runA (.spill d v o) (fun _ t => { st := t }) (fun x st _ _ t =>
    t.openOp t.cur 0 (.spill d v o) st x.cap true []))

/-- `FILL` (R276): it reads at issue, after every earlier `SPILL`, and writes back 4 clocks later. -/
def execFill (d : BitVec 6) (v : Bool) (o : BitVec 16) (s : State) : Result :=
  s.spillChecked (.fill d v o) (s.runA (.fill d v o) (fun _ t => { st := t }) (fun _ st _ _ t =>
    t.openKnown t.cur (.fill d v o) st (fillValue t.me.spillView v o.toNat)))

/-- An earlier `SPILL` of the strand has not taken effect. -/
def Strand.spillBefore (st : Strand) (e : Entry) : Bool :=
  st.open_.any (fun x => ordLt x.seq x.slot e.seq e.slot && (match x.instr with
    | .spill .. => true
    | _ => false))

/-- A `SPILL` writes the bank, in issue order, once nothing before it can trap; a `FILL` delivers what it read (R276, log
entry 19). -/
def State.spillPerform (s : State) (n : Nat) (e : Entry) : State :=
  let st := s.strand n
  match e.instr with
  | .spill .. =>
    if st.slipped e.seq || st.spillBefore e then s
    else (s.modStrand n (fun y => { y with spill := spillStore y.spill e.instr (e.z.headD VV.zero) })).completeEntry n e [] 0
  | .fill .. => if s.clk < e.clk + 4 then s else s.completeEntry n e e.recorded 0
  | _ => s

/-! ### Multicast (R278) -/

/-- The list address and the target address of `MCST`. -/
def mcstList (x : AIn) : W64 := x.bv &&& ~~~15#64
def mcstVa (x : AIn) : W64 := x.av &&& ~~~255#64

/-- The valid slots of a peer list, in order. -/
def mcstPeers (l : List Byte) : List Nat :=
  (List.range 8).filterMap (fun i =>
    let w := leNat ((l.drop (2 * i)).take 2)
    if w.testBit 15 then some (w % 2 ^ 15) else none)

def planMcst (n slot : Nat) (x : AIn) (s : State) : Plan :=
  let p0 := ((({ st := s } : Plan)).poison (x.cap.x.tag 0) 0 (mcstVa x)).poison (x.cap.y.tag 0) 1 (mcstList x)
  (p0.poison ((x.cap.z.headD VV.zero).t != 0) 2 (mcstVa x)).access n slot .load (mcstList x) 16

/-- Multicasts of a strand that are not acknowledged, those that have still to read their list included. -/
def Strand.mcstOut (st : Strand) : Nat :=
  (st.open_.filter (fun e => match e.instr with
    | .mcst .. => true
    | _ => false)).length +
  (((st.posted.filter (fun p => p.mcst && !p.acked && !p.refused)).map Posted.id).eraseDups).length +
    (st.wq.filter (fun w => !w.peers.isEmpty)).length

/-- `MCST` issues and reads its peer list at its place (R278); a seventeenth unacknowledged one stalls. -/
def execMcst (d a b : BitVec 6) (p q : Bool) (s : State) : Result :=
  s.runA (.mcst d a b p q) (fun x t => planMcst t.cur 0 x t) (fun x st pl fl t =>
    if 16 ≤ t.me.mcstOut then t.stall t.cur
    else (t.openOp t.cur 0 (.mcst d a b p q) st x.cap false pl.rds).modEntry t.cur t.opId (fun e => { e with fl := fl }))

/-- The rest of `MCST`, once its list has been read: translation, peer checks, then the writes are queued. -/
def State.mcstGo (s : State) (n : Nat) (e : Entry) : State :=
  let x := e.ain
  let (s1, e1, ok) := if e.rds.any (fun r => r.got.isNone) then s.readStep n e false else (s, e, true)
  if !ok then s1
  else
    let (bs, m) := bytesAt e1.rds (mcstList x) 16
    let peers := mcstPeers bs
    if m then s1.trapEntry n e1 { cause := .memue, eaddr := mcstList x }
    else
      match s1.xlate n (mcstVa x) .store with
      | (s2, .miss) => s2
      | (s2, .fault c k) => s2.trapEntry n e1 { cause := c, sub := k, eaddr := mcstVa x }
      | (s2, .ok pa _) =>
        if paKind pa ≠ .mod then s2.trapEntry n e1 { cause := .xlate, sub := xPerm, eaddr := mcstVa x }
        else
          match peers.findSome? (fun l => s2.fabric.sourceCheck l (s2.partOf n)) with
          | some k => s2.trapEntry n e1 { cause := .peer, sub := k, eaddr := mcstVa x }
          | none =>
            let self := peers.filter (fun l => some l == s2.fabric.own)
            let others := peers.filter (fun l => some l != s2.fabric.own)
            let data := atOffsets 0 (leBytes 256 (x.cap.z.headD VV.zero).v.toNat)
            let pieces := self.map (fun _ => (⟨mcstVa x, .mem pa, data, false⟩ : Piece))
            let q : QWrite :=
              { id := e.id, seq := e.seq, slot := e.slot, pc := e.pc, instr := e.instr, ext := e.ext, x := e.x, y := e.y
                z := e.z, pred := e.pred, va := mcstVa x, pieces := pieces ++ (if others.isEmpty then [] else [⟨mcstVa x, .mem pa, [], false⟩])
                fl := 0, sfl := if peers.isEmpty then 0 else e.fl, peers := others }
            let s3 := s2.completeEntry n { e1 with fl := if peers.isEmpty then e.fl else 0 } [] 0
            if peers.isEmpty then s3 else s3.modStrand n (fun st => { st with wq := st.wq ++ [q] })

/-! ### Prefetch (R279) -/

/-- `PREFL`: the line is filled into L1 and L2, or L2; a poisoned address, a failed translation and window memory do
nothing. -/
def execPrefl (l : BitVec 2) (a : BitVec 6) (p : Bool) (im : BitVec 12) (s : State) : Result :=
  s.runA (.prefl l a p im) (fun _ t => { st := t }) (fun x st _ _ t =>
    let n := t.cur
    let ea := immEa (.prefl l a p im) x
    if x.cap.x.tag 0 then t.setStrand n st
    else
      match t.xlate n ea .load with
      | (t1, .miss) => t1.stall n
      | (t1, .fault _ _) => t1.setStrand n st
      | (t1, .ok pa _) =>
        if !paHome pa then t1.setStrand n st
        else ((t1.loadLine (if l = 0 then some (coreOf n) else none) (dieOf n) (t1.asidOf n) (t1.pts n) (pa / 256) false).st).setStrand n st)

end Sys2Proof.Machine
end

