-- ==== Sys2Proof/Machine/BankOps.lean ====
section
/-! DEFINITION. Writing codebook banks: `CBLD`, `CBST` (R74, R280), `CBWR`, `CBINV` (R281), their order (R75, R282), and
their retirement. -/

namespace Sys2Proof.Machine

/-- The image address of `CBLD` and `CBST`. -/
def cbEa (i : Instr) (x : AIn) : W64 := immEa i x &&& ~~~63#64

/-- The 33 accesses of an image. -/
def cbPieces (ea : W64) : List (W64 × Nat) := (List.range 33).map (fun j => (ea + BitVec.ofNat 64 (64 * j), 64))

/-- A copy from an image; none where R74 refuses it: a reserved mode or a nonzero reserved field. -/
def copyOfImage (l : List Byte) : Option BankCopy :=
  let w0 := leNat (l.take 8)
  if w0 % 16 > 11 ∨ w0 / 16 ≠ 0 ∨ ((l.drop 8).take 24).any (fun b => b != 0) then none
  else
    some { mode := w0 % 16
           entries := (List.range 256).foldl (fun m i =>
             let v := word64 (l.drop 64) i
             if v = 0 then m else mset m i v) []
           valid := BitVec.ofNat 256 (leNat ((l.drop 32).take 32))
           readers := 0 }

/-- The image of a copy (R74). -/
def imageOfCopy (c : BankCopy) : List Byte :=
  leBytes 8 c.mode ++ List.replicate 24 0 ++ leBytes 32 c.valid.toNat ++
    (List.range 256).flatMap (fun i => leBytes 8 (mget c.entries i 0).toNat)

/-- An earlier `LDT` of the strand has not resolved (R282). -/
def Strand.ldtBefore (st : Strand) (seq slot : Nat) : Bool :=
  st.open_.any (fun e => !e.resolved && ordLt e.seq e.slot seq slot && (match e.instr with
    | .ldt .. => true
    | _ => false))

/-- A writer of bundle `seq` stalls while the bank is HELD, and behind an unresolved `LDT` (R75, R282). -/
def State.writerStalls (s : State) (n seq b : Nat) : Bool :=
  ((s.core (coreOf n)).bank b).heldB || (s.strand n).ldtBefore seq 0

/-- The checks of `CBWR` and `CBINV`: poison of the value written (R251). -/
def planCbw (i : Instr) (x : AIn) (s : State) : Plan :=
  let p : Plan := { st := s }
  match i with
  | .cbwr .. => p.poison (x.cap.x.tag 0) 0 0
  | _ => p

/-- A writer whose checks passed opens: unresolved at step `writerStalled` while it stalls (R282, R369). -/
def State.openWriter (s : State) (i : Instr) (b : Nat) (st : Strand) (c : Cap) (resolved : Bool) (rds : List Rd) : State :=
  let n := s.cur
  let t := s.openOp n 0 i st c resolved rds
  if s.writerStalls n st.front.ctx.seq b then
    t.modEntry n s.opId (fun e => { e with resolved := false, step := writerStalled })
  else t

/-- An open writer issues once nothing stalls it; its two clocks begin (R281). -/
def State.writerGo (s : State) (n : Nat) (e : Entry) (b : Nat) : State :=
  if s.writerStalls n e.seq b then s
  else s.modEntry n e.id (fun x => { x with
    step := 0, clk := s.clk
    resolved := match e.instr with
      | .cbld .. => false
      | _ => true })

/-- Issue of `CBWR` and `CBINV`: open until retirement. -/
def State.issueCbw (s : State) (i : Instr) (b : Nat) : Result :=
  s.runA i (fun x t => planCbw i x t) (fun x st p _ t => t.openWriter i b st x.cap true p.rds)

def execCbwr (k : BitVec 3) (a b : BitVec 6) (p q : Bool) (s : State) : Result := s.issueCbw (.cbwr k a b p q) k.toNat
def execCbinv (k : BitVec 3) (b : BitVec 6) (q l : Bool) (s : State) : Result := s.issueCbw (.cbinv k b q l) k.toNat

/-- The checks of `CBLD` and `CBST`. -/
def planCb (i : Instr) (acc : Acc) (n slot : Nat) (x : AIn) (s : State) : Plan :=
  ((({ st := s } : Plan)).poison (x.cap.x.tag 0) 0 (cbEa i x)).accesses n slot acc (cbPieces (cbEa i x))

/-- `CBLD` issues, and stays unresolved until its image has been read and checked (R280). -/
def execCbld (b : BitVec 3) (a : BitVec 6) (p : Bool) (im : BitVec 12) (s : State) : Result :=
  s.runA (.cbld b a p im) (fun x t => planCb (.cbld b a p im) .load t.cur 0 x t) (fun x st pl _ t =>
    t.openWriter (.cbld b a p im) b.toNat st x.cap false pl.rds)

/-- The pieces of `CBST`: the image of the copy current at issue. -/
def cbstPieces (i : Instr) (x : AIn) (c : BankCopy) (rds : List Rd) : List Piece :=
  piecesOf rds ((imageOfCopy c).zipIdx.map (fun b => (cbEa i x + BitVec.ofNat 64 b.2, b.1)))

/-- `CBST` (R280): the copy current at its issue goes to the write queue. -/
def execCbst (b : BitVec 3) (a : BitVec 6) (p : Bool) (im : BitVec 12) (s : State) : Result :=
  s.runA (.cbst b a p im) (fun x t => planCb (.cbst b a p im) .store t.cur 0 x t) (fun x st pl _ t =>
    let i : Instr := .cbst b a p im
    let n := t.cur
    let pieces := cbstPieces i x ((t.core (coreOf n)).bank b.toNat).current pl.rds
    let (s0, ok) := t.askAll (.op n st.front.ctx.seq) (windowsOf (pieces.map Piece.tgt))
    if !ok then s0.stall n
    else
      let (id, s1) := s0.newId
      (s1.setStrand n st).queueWrite n id st.front.ctx.seq 0 st.front.ctx.pc i x (cbEa i x) pieces 0)

/-- Go on with `CBLD`: its reads, then the poison and form checks; resolved with the image held in the reads. -/
def State.cbldStep (s : State) (n : Nat) (e : Entry) : State :=
  let (s1, e1, ok) := s.readStep n e false
  if !ok then s1
  else
    let ea := cbEa e.instr e.ain
    let (l, _) := bytesAt e1.rds ea 2112
    match (cbPieces ea).find? (fun p => (bytesAt e1.rds p.1 p.2).2) with
    | some p => s1.trapEntry n e1 (poisonAt 0 p.1)
    | none =>
      match copyOfImage l with
      | none => s1.trapEntry n e1 { cause := .fmtmis, eaddr := ea }
      | some _ => s1.modEntry n e.id (fun x => { x with resolved := true, step := 1 })

/-- The copy that a writer leaves: the current copy with the write applied (Table 3-9). -/
def writerCopy (e : Entry) (c : BankCopy) : BankCopy :=
  let x := e.ain
  let k := x.bv.toNat % 256
  match e.instr with
  | .cbwr .. => { c with entries := mset c.entries k x.av, valid := c.valid ||| (1#256 <<< k) }
  | .cbinv _ _ _ l => { c with valid := if l then 0 else c.valid &&& ~~~(1#256 <<< k) }
  | _ => (copyOfImage (bytesAt e.rds (cbEa e.instr x) 2112).1).getD c

/-- A writer may retire: `CBWR` and `CBINV` 2 clocks after issue, `CBLD` once its last read has returned (R281); no earlier
writer of the strand is open, and the bank is not HELD. -/
def State.writerReady (s : State) (n : Nat) (e : Entry) (b : Nat) : Bool :=
  let st := s.strand n
  !e.slip && !e.done && !((s.core (coreOf n)).bank b).heldB && !st.ldtBefore e.seq e.slot &&
    st.open_.all (fun x => !(bankWritten x.instr == some b && ordLt x.seq x.slot e.seq e.slot)) &&
    (match e.instr with
     | .cbld .. => e.step == 1
     | _ => e.step == 0 && decide (e.clk + 2 ≤ s.clk))

/-- `CODEBOOK_WRITER_RETIRE`: the first writer of bank `b` of core `c` that may retire, in ascending strand position,
swaps the copies and advances the generation (R75, R282). -/
def execCodebookWriterRetire (core bank : Nat) (s : State) : Result :=
  let cand := (coreStrands core).flatMap (fun n => ((s.strand n).open_.filter (fun e =>
    bankWritten e.instr == some bank && s.writerReady n e bank)).map (fun e => (n, e)))
  match cand with
  | [] => .next s
  | (n, e) :: _ =>
    let s1 := s.modCore core (fun k => k.setBank bank ((k.bank bank).retire (writerCopy e (k.bank bank).current)))
    .next (s1.completeEntry n e [] 0)

end Sys2Proof.Machine
end

