-- ==== Sys2Proof/Machine/Tiles.lean ====
section
/-! DEFINITION. The tile cache: descriptors and geometry (R69 to R72), slots, sets and replacement (R284, R291, R292),
requests, fills and their faults (R288 to R290), versions and the catalogue (R296, R297), hints and pins (R293), row
reads and writes (R233, R262, R263), write-back (R294). -/

namespace Sys2Proof.Machine

/-! ### Descriptors and geometry -/

/-- The descriptor in 64 bytes; none where R69 gives NOTENSOR. -/
def tensorOf (l : List Byte) : Option Tensor :=
  let w (i : Nat) : Nat := (word64 l i).toNat
  let w6 := w 6
  let rank := bitsN w6 10 9 + 1
  let fmt := bitsN w6 3 0
  let cbk := bitsN w6 8 6
  let ext := [w 1 % 2 ^ 32, w 1 / 2 ^ 32, w 2 % 2 ^ 32, w 2 / 2 ^ 32]
  if !bitN w6 63 || bitsN w6 62 11 != 0 || bitsN (w 7) 63 16 != 0 || (cbk != 0 && !fmtCb fmt) ||
      (ext.take rank).any (fun e => e == 0) then none
  else
    some { base := word64 l 0, ext := ext.zipIdx.map (fun e => if e.2 < rank then e.1 else 1)
           str := [word64 l 3, word64 l 4, word64 l 5], rank := rank, cbk := cbk, sck := bitsN w6 5 4, fmt := fmt
           padc := w 7 % 65536 }

/-- A coordinate out of range: nonzero at or above the rank, or a tile of pad elements only (R70). -/
def Tensor.outOfRange (t : Tensor) (g : Tag) : Bool :=
  (decide (t.rank < 2) && g.c1 != 0) || (decide (t.rank < 3) && g.c2 != 0) || (decide (t.rank < 4) && g.c3 != 0) ||
    t.rowCount g 0 == 0

/-- The alignment and format rules of R71 on the descriptor alone. -/
def Tensor.misformed (t : Tensor) : Bool :=
  let strides := (List.range 3).filterMap (fun i => if i + 1 < t.rank then some ((t.str.drop i).headD 0).toInt else none)
  let off (m : Nat) : Bool := t.base.toNat % m != 0 || strides.any (fun x => x % (m : Int) != 0)
  pairForbidden t.fmt t.sck || (t.sck == 1 && off (32 * t.w / 8)) || (t.sck == 2 && off 256)

/-- Coordinates of operand A of `LDT`. -/
def tagOf (asid tid : Nat) (c : W64) : Tag :=
  ⟨asid, tid, bitsN c.toNat 63 48, bitsN c.toNat 47 32, bitsN c.toNat 31 16, bitsN c.toNat 15 0⟩

/-- The tensor id of a tile reference word (Table 11-7). -/
def refTid (b : W64) : Nat := bitsN b.toNat 11 0

/-- The tag that an open `LDT` or `STT` of strand `n` names. -/
def State.tagNamed (s : State) (n : Nat) (e : Entry) : Tag := tagOf (s.asidOf n) (refTid e.ain.bv) e.ain.av

def xor6 (l : List Nat) : Nat := l.foldl (fun a b => a ^^^ b) 0

/-- TileSet (R284). -/
def tileSet (g : Tag) : Nat :=
  xor6 [g.c0, g.c0 >>> 7, (g.c1 <<< 2) % 65536, g.c1 >>> 5, (g.c2 <<< 4) % 65536, (g.c3 <<< 5) % 65536, g.tid, g.tid >>> 7,
    g.asid, g.asid >>> 7] % 128

/-! ### Slots -/

def Slot.empty : Slot :=
  { tag := ⟨0, 0, 0, 0, 0, 0⟩, tens := ⟨0, [1, 1, 1, 1], [0, 0, 0], 1, 0, 0, 0, 0⟩, v := false, dirty := false, fill := false
    wbf := false, parks := false, cat := 0, once := false, pins := 0, ver := 0, wts := 0, rts := 0, prow := 0, zbm := 0
    scl := [], sup := [], rows := [], pages := [], own := [] }

/-- Slot of key set × 16 + way. -/
def Wing.slot (g : Wing) (k : Nat) : Slot := mget g.slots k Slot.empty
def Wing.setSlot (g : Wing) (k : Nat) (x : Slot) : Wing := { g with slots := mset g.slots k x }

/-- The valid copy of a tag (R284). -/
def Wing.find (g : Wing) (t : Tag) : Option (Nat × Slot) :=
  ((List.range 16).map (fun w => 16 * tileSet t + w)).findSome? (fun k =>
    let x := g.slot k
    if x.v ∧ x.tag = t then some (k, x) else none)

def State.slotOf (s : State) (w k : Nat) : Slot := (s.wing w).slot k
def State.setSlot (s : State) (w k : Nat) (x : Slot) : State := s.modWing w (fun g => g.setSlot k x)

/-- Make every node on a way's path point away from it (R292). -/
def touchTree (b : BitVec 16) (way : Nat) : BitVec 16 :=
  (List.range 4).foldl (fun (b : BitVec 16) l =>
    let node := (16 + way) >>> (4 - l)
    let bit := ((16 + way) >>> (3 - l)) % 2
    if bit = 0 then b ||| (1#16 <<< node) else b &&& ~~~(1#16 <<< node)) b

/-- The way found from node `n` at depth `d` left, going to the other half where the pointed one has none (R292). -/
def treeWay (b : BitVec 16) (ok : Nat → Bool) : Nat → Nat → Option Nat
  | 0, n => if ok (n - 16) then some (n - 16) else none
  | d + 1, n =>
    let p := if b.getLsbD n then 1 else 0
    match treeWay b ok d (2 * n + p) with
    | some w => some w
    | none => treeWay b ok d (2 * n + (1 - p))

/-- A parked or in-flight request of wing `w` reads or writes a tile of this tag (R291): a parked one, a task that has been
taken, parked or dispatched, an open `LDT` or `STT` that has not resolved. -/
def State.inUse (s : State) (w : Nat) (t : Tag) : Bool :=
  (s.wing w).replay.any (fun p => p.tags.any (fun x => x.1 == t)) ||
  s.tasks.any (fun k => k.wing == w && k.tiles.contains t && (match k.phase with
    | .dispatched _ => true
    | .parked => true
    | _ => false)) ||
  s.strands.any (fun p => wingOf p.1 == w && p.2.open_.any (fun e => !e.resolved && (match e.instr with
    | .ldt .. => s.tagNamed p.1 e == t
    | .stt .. => s.tagNamed p.1 e == t
    | _ => false)))

/-- The victim way of a set, if some way is eligible (R291). -/
def State.victim (s : State) (w set : Nat) : Option Nat :=
  let g := s.wing w
  let x (i : Nat) : Slot := g.slot (16 * set + i)
  let ok (i : Nat) : Bool := !(x i).fill && !(x i).parks && !(x i).wbf && (x i).pins == 0 && !((x i).v && s.inUse w (x i).tag)
  match (List.range 16).find? (fun i => ok i && !(x i).v) with
  | some i => some i
  | none =>
    match (List.range 16).find? (fun i => ok i && (x i).cat == 3) with
    | some i => some i
    | none => treeWay (mget g.tree set 0) ok 4 1

def State.touch (s : State) (w k : Nat) : State :=
  s.modWing w (fun g => { g with tree := mset g.tree (k / 16) (touchTree (mget g.tree (k / 16) 0) (k % 16)) })

/-! ### The catalogue (R296, R297) -/

def State.catOf (s : State) (g : Tag) : Option CatEntry := s.catalogue.find? (fun e => e.tag == g)
def State.verOf (s : State) (g : Tag) : BitVec 16 := ((s.catOf g).map CatEntry.ver).getD 0

/-- Change a tile's entry; it exists while a wing holds a copy or the version is nonzero. -/
def State.modCat (s : State) (g : Tag) (slice : Nat) (f : CatEntry → CatEntry) : State :=
  let e := f ((s.catOf g).getD ⟨g, 0, 0, none, slice⟩)
  let r := s.catalogue.filter (fun x => x.tag != g)
  { s with catalogue := if e.holders = 0 ∧ e.ver = 0 then r else e :: r }

/-- A version satisfies MINV (R296). -/
def satisfies (v : BitVec 16) (minv : Nat) : Bool := minv == 0 || decide ((v - BitVec.ofNat 16 minv).toNat < 2 ^ 15)

/-- The catalogue slice of a physical address: its stack and the pseudo-channel group of its 256-byte granule, twelve
groups a stack (R59). A tile's home slice is that of its first element (R297), which is no pad element. -/
def sliceOf (pa : Nat) : Nat := pa / 2 ^ 37 * 12 + pa % 2 ^ 37 / 256 % 384 / 32

/-- Entries of a slice. -/
def State.sliceFull (s : State) (g : Tag) (slice : Nat) : Bool :=
  (s.catOf g).isNone && decide (65536 ≤ (s.catalogue.filter (fun e => e.slice == slice)).length)

/-- The wing no longer holds a copy. -/
def State.dropHolder (s : State) (w : Nat) (g : Tag) : State :=
  s.modCat g 0 (fun e => { e with
    holders := e.holders &&& ~~~(1#64 <<< w), excl := if e.excl = some w then none else e.excl })

/-- The permission checks of a write to rows and to the scales of rows of a copy: W and WS of each page touched; of the failures
the one of lowest rank, the first among equals, with its address (R64, R263, R294, R362). The tenant was checked when the page
was translated (R63). -/
def Slot.permFault (x : Slot) (die : Nat) (rows scls : List Nat) : Option (Cause × Nat × W64) :=
  let t := x.tens
  let vas := rows.flatMap (fun r => (linePieces (t.rowVa x.tag r) (t.rowBytes x.tag r)).map Prod.fst) ++
    scls.flatMap (fun r => (rowScaleVas t x.tag x.pages r).flatMap (fun v => v.2.1 :: (if t.sck = 2 then [v.2.2] else [])))
  let bad (a : W64) : Option (Cause × Nat × W64) :=
    match pageOf x.pages x.tag.asid a with
    | none => some (.xlate, xNomap, a)
    | some p => (leafCheck p a die .store).map (fun c => (c.1, c.2, a))
  vas.foldl (fun b a => match b, bad a with
    | none, f => f
    | some c, none => some c
    | some c, some f => if f.1.rank < c.1.rank then some f else some c) none

/-! ### The zero-block bitmap -/

/-- A zero code (R286). -/
def zeroCode (fmt code : Nat) : Bool :=
  match fmt with
  | 12 => code == 7
  | 6 => code % 2 ^ 31 == 0 | 7 => code % 2 ^ 15 == 0 | 8 => code % 2 ^ 15 == 0
  | 9 => code % 128 == 0 | 10 => code % 128 == 0 | 11 => code % 8 == 0
  | _ => code == 0

/-- Bit `b` of the zero-block bitmap (R286). -/
def Slot.zeroBlock (x : Slot) (b : Nat) : Bool :=
  let t := x.tens
  !fmtCb t.fmt && (List.range 8).all (fun i => (List.range 8).all (fun j =>
    let r := 8 * (b / (t.e / 8)) + i
    let e := 8 * (b % (t.e / 8)) + j
    let z := zeroCode t.fmt (rowCode t (mget x.rows r 0) e)
    let zs := t.sck == 2 && (x.scaleOf r e == 0 || x.superOf r % 2 ^ 31 == 0)
    (z || zs) && !(t.sck == 1 && x.scaleOf r e == 255)))

/-- The whole bitmap; a function of the copy's codes and scales, so a recomputation at each write leaves the bits of
untouched blocks as they were (R287). -/
def Slot.withZbm (x : Slot) : Slot :=
  { x with zbm := (List.range x.tens.e).foldl (fun (b : BitVec 512) i =>
      if x.zeroBlock i then b ||| (1#512 <<< i) else b) 0 }

/-! ### Write-back (R294) -/

/-- The homes recall every line that a copy holds exclusively. -/
def State.releaseOwn (s : State) (w k : Nat) : State := (((s.slotOf w k).own.map Prod.fst).eraseDups).foldl State.recall s

/-- Write back the copy in slot `k` of wing `w`: checks, then what it holds exclusively goes to the lines' homes, the copy
is clean (R294). No value changes and no stamp is taken (R225). A fault leaves the copy dirty. -/
def State.writeBack (s : State) (w k : Nat) : State × Option (Cause × Nat × W64) :=
  let x := s.slotOf w k
  if !x.v ∨ !x.dirty then (s, none)
  else
    match x.permFault (w / 8) (List.range 64) (x.own.filterMap (fun (o : Nat × Nat) => if 64 ≤ o.2 then some (o.2 - 64) else none)) with
    | some f => (s, some f)
    | none =>
      let s1 := s.releaseOwn w k
      (s1.setSlot w k { s1.slotOf w k with dirty := false, wbf := false }, none)

/-- A lazy write-back: a fault sets WBF and leaves the copy valid and dirty (R294). -/
def State.writeBackLazy (s : State) (w k : Nat) : State :=
  match s.writeBack w k with
  | (s1, none) => s1
  | (s1, some _) => s1.setSlot w k { s1.slotOf w k with wbf := true }

/-- Empty a slot: what the copy still holds exclusively is lost (R294). -/
def State.freeSlot (s : State) (w k : Nat) : State :=
  let x := s.slotOf w k
  let s1 := { s with homes := x.own.foldl (fun h (o : Nat × Nat) => mset h o.1 { mget h o.1 (⟨0, 0, none⟩ : Home) with excl := none }) s.homes }
  (s1.modWing w (fun g => { g with slots := mdel g.slots k })).dropHolder w x.tag

/-! ### Faults of tiles -/

/-- NOTENSOR and TILERANGE: no address fails, so EADDR is 0, as the fault address of R312 is (DEDUCED, log entry 8). -/
def tileTrap (sub : Nat) : Trap := { cause := .xlate, sub := sub }

/-! ### Reading descriptors (R69) -/

/-- What a unit that translates through the miss table finds: a value, a wait for a walk, or a trap (R77). -/
inductive Got (α : Type) where
  | ok (x : α)
  | wait
  | bad (t : Trap)

/-- Read `n` bytes inside one line at a virtual address, as a SEQ load of an agent of wing `w`: the bytes, the line's mark and
the agent's pts. -/
def State.readUnit (s : State) (b : Bound) (w : Nat) (pts : W64) (va : W64) (n : Nat) : State × Got (List Byte × Bool × W64) :=
  match s.xlateWing (b.space (w / 8)) w va .load with
  | (s1, .miss) => (s1, .wait)
  | (s1, .fault c x) => (s1, .bad { cause := c, sub := x, eaddr := va })
  | (s1, .ok pa _) =>
    if !paHome pa then (s1, .bad { cause := .xlate, sub := xBadpa, eaddr := va })
    else
      let r := s1.loadLine none (w / 8) b.asid pts (pa / 256) true
      (r.st, .ok ((r.data.drop (pa % 256)).take n, r.mark, r.pts))

/-- Read 64 bytes at a virtual address, in one line or two; a marked line gives the cause `dmg`. -/
def State.read64 (s : State) (b : Bound) (w : Nat) (pts : W64) (va : W64) (dmg : Cause) : State × Got (List Byte × W64) :=
  (splitRange 256 2 va 64).foldl (fun (a : State × Got (List Byte × W64)) p =>
    match a.2 with
    | .wait => a
    | .bad t => (a.1, .bad t)
    | .ok (l, q) =>
      match a.1.readUnit b w q p.1 p.2 with
      | (s1, .wait) => (s1, .wait)
      | (s1, .bad t) => (s1, .bad t)
      | (s1, .ok (bs, m, q1)) => if m then (s1, .bad { cause := dmg, eaddr := va }) else (s1, .ok (l ++ bs, q1))) (s, .ok ([], pts))

/-- The descriptor of a tensor, or the trap. A damaged descriptor read by a fill is POISON (R289), else MEMUE. -/
def State.readTensor (s : State) (b : Bound) (w tid : Nat) (pts : W64) (dmg : Cause) : State × Got Tensor :=
  if b.ttcount ≤ tid then (s, .bad (tileTrap xNotensor))
  else
    match s.read64 b w pts (b.ttbase + BitVec.ofNat 64 (64 * tid)) dmg with
    | (s1, .wait) => (s1, .wait)
    | (s1, .bad t) => (s1, .bad t)
    | (s1, .ok (l, _)) =>
      match tensorOf l with
      | some t => (s1, .ok t)
      | none => (s1, .bad (tileTrap xNotensor))

/-- Descriptor and range of a tile. -/
def State.tileDesc (s : State) (b : Bound) (w : Nat) (g : Tag) (pts : W64) (dmg : Cause) : State × Got Tensor :=
  match s.readTensor b w g.tid pts dmg with
  | (s1, .ok t) => if t.outOfRange g then (s1, .bad (tileTrap xTilerange)) else (s1, .ok t)
  | r => r

/-! ### Leases -/

/-- Leases on several lines, for a copy that holds `own` exclusively: the greatest wts and the least lease. Every lease covers
the greatest wts; the homes recall what another copy holds (R231, R233). -/
def State.leaseLines (s : State) (own : List (Nat × Nat)) (pts : W64) (lines : List Nat) : State × W64 × W64 :=
  let w := lines.foldl (fun m l => wmax m (s.home l).wts) 0
  lines.foldl (fun (a : State × W64 × W64) l =>
    let s1 := if own.any (fun o => o.1 == l) then a.1 else a.1.recall l
    let h := s1.home l
    let g := wmax (wmax pts w) h.wts + lease
    ({ s1 with homes := mset s1.homes l { h with mrts := wmax h.mrts g } }, w, if g.toNat < a.2.2.toNat then g else a.2.2))
    (s, w, ~~~0#64)

/-! ### Requests (R288, R290) -/

inductive TileAns where
  | hit (k : Nat)
  | wait
  | full

/-- Leave the replay queue of a wing. -/
def State.unpark (s : State) (w : Nat) (who : Waiter) : State :=
  s.modWing w (fun g => { g with replay := g.replay.filter (fun p => p.who != who) })

/-- Take an entry of the replay queue for a request, or add a tile to the one it has; false when all 64 are in use. -/
def State.park (s : State) (w : Nat) (who : Waiter) (g : Tag) (minv : Nat) : State × Bool :=
  let q := (s.wing w).replay
  match who with
  | .itin _ => (s, true)
  | _ =>
    if q.any (fun p => p.who == who) then
      (s.modWing w (fun x => { x with replay := x.replay.map (fun p => if p.who = who then
        { p with tags := if p.tags.contains (g, minv) then p.tags else p.tags ++ [(g, minv)] } else p) }), true)
    else if 64 ≤ q.length then (s, false)
    else (s.modWing w (fun x => { x with replay := x.replay ++ [⟨who, [(g, minv)]⟩] }), true)

/-- A fill of a tile that has done nothing yet. -/
def newFill (id clk : Nat) (b : Bound) (g : Tag) (minv hint : Nat) (who : Waiter) : Fill :=
  { id := id, tag := g, set := tileSet g, way := 0, placed := false, minv := minv, hint := hint, bound := b, waiters := [who]
    started := clk, planned := false, rds := [], pages := [], tens := Slot.empty.tens, pins := 0, desc := false, zero := false
    hints := [], done := false }

/-- The pin or unpin hint that an itinerary's request leaves with the fill of its tile, for the core of the strand that enqueued
it (R293, R295). -/
def State.pinsAsked (s : State) (who : Waiter) (hint : Nat) : List (Nat × Nat) :=
  match who with
  | .itin u => if hint = 3 ∨ hint = 4 then ((s.tasks.find? (fun t => t.uid == u)).map (fun t => (coreOf t.strand, hint))).toList else []
  | _ => []

/-- Start a fill of a tile: a valid copy is refilled in its own slot and keeps its pins, what it holds exclusively having gone
to memory; else a victim will be chosen at the end of the clock (R288, R292, R293). -/
def State.startFill (s : State) (w : Nat) (b : Bound) (g : Tag) (minv hint : Nat) (who : Waiter) : State :=
  let (id, s0) := s.newId
  let f := { newFill id s.clk b g minv hint who with hints := s.pinsAsked who hint }
  let add (s : State) (f : Fill) : State := s.modWing w (fun x => { x with fills := x.fills ++ [f] })
  match (s0.wing w).find g with
  | none => add s0 f
  | some (k, x) =>
    if x.once then add s0 f
    else
      add (((((s0.writeBackLazy w k).releaseOwn w k).freeSlot w k)).setSlot w k { Slot.empty with tag := g, fill := true })
        { f with way := k % 16, placed := true, pins := x.pins }

/-- Choose the victim of a fill that has none: it is written back and leaves; one whose write-back faults stays, and the next
is tried (R288, R291, R294). -/
def State.placeFill (s : State) (w : Nat) (f : Fill) : Nat → State
  | 0 => s
  | fuel + 1 =>
    match s.victim w f.set with
    | none => s
    | some way =>
      let k := 16 * f.set + way
      let s1 := s.writeBackLazy w k
      if (s1.slotOf w k).wbf then s1.placeFill w f fuel
      else
        let s2 := if (s1.slotOf w k).v then s1.freeSlot w k else s1
        (s2.setSlot w k { Slot.empty with tag := f.tag, fill := true }).modWing w (fun g => { g with
          fills := g.fills.map (fun h => if h.id = f.id then { h with way := way, placed := true } else h) })

/-- The victims of the clock are chosen after its installs and lookups (R292). -/
def State.placeFills (s : State) : State :=
  s.wings.foldl (fun s w => (w.2.fills.filter (fun f => !f.placed && !f.done)).foldl (fun s f => s.placeFill w.1 f 16) s) s

/-- What a copy holds of a part, row p or the scales of row p − 64, is as the lines now stand. -/
def State.partCurrent (s : State) (x : Slot) (p : Nat) : Bool :=
  let bs := (x.part p).filter (fun b => !x.own.any (fun o => o.1 == b.1 / 256 && o.2 == p))
  let mem := s.memNow ((bs.map (fun b => b.1 / 256)).eraseDups)
  bs.all (fun b => memGet mem b.1 &&& b.2.2 == b.2.1 &&& b.2.2)

/-- A copy whose lease has expired stays: no line's home wts exceeds its WTS (R288). A row write raises WTS above stores that other
lines of the copy have had since, so that the bytes are compared too (R228; DEDUCED, log entry 81). -/
def State.copyCurrent (s : State) (x : Slot) (lines : List Nat) : Bool :=
  lines.all (fun l => decide ((s.home l).wts.toNat ≤ x.wts.toNat)) && (List.range 128).all (fun p => s.partCurrent x p)

/-- A request for a tile by an agent of wing `w` with program timestamp `pts`. -/
def State.tileReq (s : State) (w : Nat) (b : Bound) (g : Tag) (minv hint : Nat) (who : Waiter) (pts : W64) :
    State × TileAns :=
  let parkWait (s : State) : State × TileAns :=
    let (s1, ok) := s.park w who g minv
    (s1, if ok then .wait else .full)
  let miss (s : State) : State × TileAns :=
    match (s.wing w).fills.find? (fun f => f.tag == g && !f.done) with
    | some f =>
      let (s1, ok) := s.park w who g minv
      if !ok then (s1, .full)
      else (s1.modWing w (fun x => { x with fills := x.fills.map (fun h =>
        if h.id = f.id ∧ !h.waiters.contains who then
          { h with waiters := h.waiters ++ [who], hints := h.hints ++ s.pinsAsked who hint } else h) }), .wait)
    | none =>
      if minv ≠ 0 ∧ !satisfies (s.verOf g) minv then parkWait s
      else
        let (s1, ok) := s.park w who g minv
        if !ok then (s1, .full) else (s1.startFill w b g minv hint who, .wait)
  let hit (s : State) (k : Nat) : State × TileAns := ((s.unpark w who).touch w k, .hit k)
  match (s.wing w).find g with
  | none => miss s
  | some (k, x) =>
    if x.once then
      (if (s.wing w).fills.any (fun f => f.tag == g && f.done && f.waiters.contains who) then hit s k else miss s)
    else if !satisfies x.ver minv then
      (if satisfies (s.verOf g) minv then miss s else parkWait s)
    else if (wmax pts x.wts).toNat ≤ x.rts.toNat then hit s k
    else
      -- the lease has expired: renew it, or refill
      let ls := x.lines (List.range 64)
      if s.copyCurrent x ls then
        let (s1, _, g1) := s.leaseLines x.own pts ls
        hit (s1.setSlot w k { s1.slotOf w k with rts := g1 }) k
      else miss s

/-- A request has read a window copy: the copy is freed after the last joined request (R299). -/
def State.onceRead (s : State) (w k : Nat) (who : Waiter) : State :=
  let x := s.slotOf w k
  if !x.once then s
  else
    let s1 := s.modWing w (fun g => { g with fills := g.fills.map (fun f =>
      if f.tag = x.tag ∧ f.done then { f with waiters := f.waiters.filter (fun y => y != who) } else f) })
    if (s1.wing w).fills.any (fun f => f.tag == x.tag && f.done && f.waiters.isEmpty) then
      (s1.modWing w (fun g => { g with fills := g.fills.filter (fun f => !(f.tag == x.tag && f.done)) })).freeSlot w k
    else s1

/-! ### Fills (R288, R289) -/

/-- Reads of a fill as they are planned: the plan with its traps, and the pages. -/
structure FillPlan where
  plan : Plan
  pages : List Tlb := []

/-- Plan one read of a fill: translation through the miss table, window and peer (R77, R289). -/
def FillPlan.read (p : FillPlan) (b : Bound) (w : Nat) (va : W64) (len : Nat) : FillPlan :=
  let (s1, r) := p.plan.st.xlateWing (b.space (w / 8)) w va .load
  let q := { p.plan with st := s1 }
  match r with
  | .miss => { p with plan := { q with miss := true } }
  | .fault c x => { p with plan := q.fail { cause := c, sub := x, eaddr := va } }
  | .ok pa t =>
    { plan := match s1.target b.part pa with
        | .error (c, x) => q.fail { cause := c, sub := x, eaddr := va }
        | .ok tgt => { q with rds := q.rds ++ [⟨va, tgt, len, t.w0, t.w1, none, false⟩] }
      pages := if p.pages.contains t then p.pages else p.pages ++ [t] }

/-- The page rules of R71 for a page that non-pad elements touch. -/
def pageMismatch (t : Tensor) (w0 w1 : W64) : Bool :=
  leafFmt w1 != t.fmt || leafSck w1 != t.sck || (fmtCb t.fmt && leafCbk w1 != t.cbk) ||
    (t.sck == 2 && ptePs w0 == 0)

/-- Plan the reads of a tile's rows, with the page rules (R71, R288 step 2). -/
def State.planRows (s : State) (w : Nat) (b : Bound) (g : Tag) (t : Tensor) : FillPlan :=
  if t.misformed then { plan := ({ st := s } : Plan).fail { cause := .fmtmis, eaddr := t.base } }
  else
    let p1 := (List.range 64).foldl (fun (p : FillPlan) r =>
      (linePieces (t.rowVa g r) (t.rowBytes g r)).foldl (fun p x => p.read b w x.1 x.2) p) { plan := { st := s } }
    { p1 with plan := p1.plan.rds.foldl (fun (p : Plan) r =>
      if pageMismatch t r.w0 r.w1 then p.fail { cause := .fmtmis, eaddr := r.va } else p) p1.plan }

/-- Plan every read of a fill: rows, then scales (R288 steps 2 to 4). Every page that the rows name is judged before a peer is
(R349); a page of another format names no scales (R71). -/
def State.planFill (s : State) (w : Nat) (b : Bound) (g : Tag) (t : Tensor) : FillPlan :=
  let p := s.planRows w b g t
  if p.plan.miss ∨ p.pages.any (fun y => pageMismatch t y.w0 y.w1) then p
  else
    (List.range 64).foldl (fun (p : FillPlan) r =>
      (rowScaleVas t g p.pages r).foldl (fun p x =>
        let q := p.read b w x.2.1 1
        if t.sck = 2 then q.read b w x.2.2 4 else q) p) p

/-- The program timestamp of a requester. -/
def State.waiterPts (s : State) (who : Waiter) : W64 :=
  match who with
  | .op n _ => s.pts n
  | .stream n _ => s.pts n
  | .task u => ((s.tasks.find? (fun t => t.uid == u)).map Task.fork).getD 0
  | .itin u => ((s.tasks.find? (fun t => t.uid == u)).map Task.fork).getD 0
  | _ => 0

/-- The window reads of `who`, one at a time (R299); what lies in memory is read once they have all returned. -/
def State.windowReads (s : State) (who : Waiter) (part : Nat) : List Rd → List Rd → State × List Rd × Bool
  | [], done => (s, done, true)
  | r :: t, done =>
    match r.got, r.tgt with
    | some _, _ => s.windowReads who part t (done ++ [r])
    | none, .mem _ => s.windowReads who part t (done ++ [r])
    | none, .window _ dst pa =>
      if s.fabric.awaited who ∨ !s.fabric.roomFor dst then (s, done ++ (r :: t), false)
      else ((s.request dst part (.load r.len) pa [] who none).1, done ++ (r :: t), false)

/-- A fault reaches a requester of a fill: a strand request traps precisely, a stream's pattern vector is faulting, a
task or an itinerary records it (R270, R289, R313). -/
def State.fillFault (s : State) (who : Waiter) (t : Trap) : State :=
  match who with
  | .op n id =>
    (match s.entry? n id with
     | some e => s.trapEntry n e t
     | none => s)
  | .stream n q => s.modStrand n (fun st => match mget? st.streams q with
      | some x => { st with streams := mset st.streams q { x with fault := some (x.next, t) } }
      | none => st)
  | .task u => { s with tasks := s.tasks.map (fun k => if k.uid = u ∧ k.fault = none then { k with fault := some t } else k) }
  | .itin u => { s with tasks := s.tasks.map (fun k => if k.uid = u ∧ k.fault = none then { k with fault := some t } else k) }
  | _ => s

/-- End a fill with a fault: nothing is installed, every joined request receives it (R289). -/
def State.failFill (s : State) (w : Nat) (f : Fill) (t : Trap) : State :=
  let s1 := s.modWing w (fun g => { g with
    slots := if f.placed then mdel g.slots (16 * f.set + f.way) else g.slots, fills := g.fills.filter (fun x => x.id != f.id) })
  f.waiters.foldl (fun s who => (s.unpark w who).fillFault who t) s1

/-- The row data of a fill: codes as stored, PADC in pad elements, zero beyond the bytes used. PADC has 16 bits; in a wider
pad element its upper bits are 0, which R70 leaves open (DESIGN CHOICE, log entry 70). -/
def fillRow (t : Tensor) (g : Tag) (rds : List Rd) (r : Nat) : VReg × Bool :=
  let n := t.rowCount g r
  let (bs, m) := bytesAt rds (t.rowVa g r) (t.rowBytes g r)
  let raw : VReg := BitVec.ofNat 2048 (leNat bs % 2 ^ (n * t.w))
  let pad : VReg := BitVec.ofNat 2048 (packN t.w (List.replicate (t.e - n) t.padc)) <<< (n * t.w)
  (raw ||| pad, m)

/-- The pin that a hint sets or clears for a core of the wing (R293). -/
def Slot.pinned (x : Slot) (hint corePos : Nat) : Slot :=
  let bit : Byte := 1#8 <<< corePos
  { x with pins := if hint = 3 then x.pins ||| bit else if hint = 4 then x.pins &&& ~~~bit else x.pins }

/-- Hints when an access is made: class and pins (table in R293); 5 to 7 act as 0 (Table 11-7). `wr` says that it is a write. -/
def Slot.hinted (x : Slot) (hint corePos : Nat) (wr : Bool) : Slot :=
  if x.once then x
  else
    let cat := if wr then (if hint = 1 then 2 else if (hint = 0 ∨ 5 ≤ hint) ∧ x.cat = 3 then 0 else x.cat)
      else if hint = 1 ∨ x.cat = 1 ∨ x.cat = 2 then 3 else x.cat
    { x.pinned hint corePos with cat := cat }

/-- Distinct copies that a core pins. -/
def State.pinCount (s : State) (core : Nat) : Nat :=
  ((s.wing (core / 8)).slots.filter (fun k => k.2.v && k.2.pins.getLsbD (core % 8))).length

/-- A pin that would raise the core's pins above 512 (R264). -/
def State.pinOver (s : State) (core : Nat) (x : Slot) (hint : Nat) : Bool :=
  hint == 3 && !x.once && !x.pins.getLsbD (core % 8) && decide (512 ≤ s.pinCount core)

/-- A wing holds a valid copy of a tile that satisfies MINV. -/
def State.holds (s : State) (v : Nat) (g : Tag) (minv : Nat) : Bool :=
  match (s.wing v).find g with
  | some (_, x) => !x.once && satisfies x.ver minv
  | none => false

/-- The holder that serves a fill of wing `w`: the lowest wing of its die that holds a satisfying copy, else the lowest of the
module (R298). -/
def State.holder (s : State) (w : Nat) (g : Tag) (minv : Nat) : Option Nat :=
  let ok (v : Nat) : Bool := v != w && s.holds v g minv
  ((List.range 8).map (fun i => 8 * (w / 8) + i)).find? ok <|> (List.range 64).find? ok

/-- A dirty source copy is first written back; it stays valid and clean (R298). -/
def State.cleanSource (s : State) (w : Nat) (g : Tag) (minv : Nat) : State :=
  match s.holder w g minv with
  | none => s
  | some v =>
    match (s.wing v).find g with
    | some (k, x) => if x.dirty then s.writeBackLazy v k else s
    | none => s

/-- The requests parked in a wing whose every tile is now valid at a satisfying version leave the replay queue, in the order
in which they took their entries; those of strands resolve in the next clock (R290). -/
def State.release (s : State) (w : Nat) : State :=
  let g := s.wing w
  let ready (p : Parked) : Bool := p.tags.all (fun t => match g.find t.1 with
    | some (_, x) => satisfies x.ver t.2
    | none => false)
  let strand (p : Parked) : Bool := match p.who with
    | .task _ => false
    | _ => true
  s.modWing w (fun g => { g with
    replay := g.replay.filter (fun p => !(strand p && ready p))
    released := g.released ++ (g.replay.filter (fun p => strand p && ready p)).map Parked.who })

/-- Home-memory reads of a fill, as the homes hold the lines when the copy is installed. -/
def State.fillMem (s : State) (l : List Rd) : List Rd :=
  l.map (fun r => match r.got, r.tgt with
    | none, .mem pa => { r with got := some (s.readBytes pa r.len, s.marked (pa / 256)) }
    | _, _ => r)

/-- The home slice of the tile that a fill brings: that of its first non-pad element (R297). -/
def Fill.slice (f : Fill) : Nat :=
  let a := f.tens.rowVa f.tag 0
  sliceOf (((pageOf f.pages f.tag.asid a).map (fun p => p.pa a)).getD 0)

/-- The copy that a fill's reads give (R288 steps 3 and 4). -/
def Fill.copy (f : Fill) (rds : List Rd) : Slot :=
  let t := f.tens
  let g := f.tag
  let rows := (List.range 64).map (fun r => fillRow t g rds r)
  let once := rds.any (fun r => match r.tgt with
    | .window _ _ _ => true
    | .mem _ => false)
  let scl := (List.range 64).flatMap (fun r =>
    let vas := rowScaleVas t g f.pages r
    (List.range t.rowScales).map (fun u =>
      (t.rowScales * r + u, match vas.find? (fun v => v.1 == u) with
        | some v => BitVec.ofNat 8 (natAt rds v.2.1 1).1
        | none => if t.sck = 1 then 0x7F#8 else 1#8)))
  let sup := if t.sck = 2 then (List.range 64).map (fun r =>
      (r, match rowScaleVas t g f.pages r with
        | v :: _ => BitVec.ofNat 32 (natAt rds v.2.2 4).1
        | [] => 0x3F800000#32)) else []
  let badScale (r : Nat) : Bool := (rowScaleVas t g f.pages r).any (fun v =>
    (natAt rds v.2.1 1).2 || (t.sck == 2 && (natAt rds v.2.2 4).2))
  { Slot.empty with
    tag := g, tens := t, v := true, once := once, pins := if once then 0 else f.pins
    cat := if f.hint = 2 ∧ !once then 1 else 0
    rows := rows.zipIdx.foldl (fun m r => if r.1.1 = 0 then m else mset m r.2 r.1.1) []
    scl := scl.foldl (fun m p => if p.2 = 0 then m else mset m p.1 p.2) []
    sup := sup.foldl (fun m p => mset m p.1 p.2) []
    prow := maskOf (fun r => ((rows.drop r).headD (0, false)).2 || badScale r)
    pages := f.pages }

/-- The pins that itineraries asked for; one past a core's 512 is not set (R293, R295). -/
def State.pinAsked (s : State) (w k : Nat) (l : List (Nat × Nat)) : State :=
  l.foldl (fun s h =>
    let x := s.slotOf w k
    if x.once || s.pinOver h.1 x h.2 then s else s.setSlot w k (x.pinned h.2 (h.1 % 8))) s

/-- Install the copy of a fill whose window reads have all returned: a dirty source is written back, leases are taken, memory
is read, the requests that wait are released (R288 steps 3 to 6, R298). -/
def State.installFill (s : State) (w : Nat) (f : Fill) (rds : List Rd) : State :=
  let g := f.tag
  let k := 16 * f.set + f.way
  let pts := f.waiters.foldl (fun p who => wmax p (s.waiterPts who)) 0
  let (s1, wts, rts) := (s.cleanSource w g f.minv).leaseLines [] pts
    ({ Slot.empty with tag := g, tens := f.tens, pages := f.pages : Slot }.lines (List.range 64))
  -- scale lines are read too, so their homes recall them (R231)
  let scls := rds.filterMap (fun r => match r.tgt with
    | .mem pa => some (pa / 256)
    | .window _ _ _ => none)
  let s2 := scls.eraseDups.foldl State.recall s1
  let l := s2.fillMem rds
  let x1 := { (f.copy l).withZbm with wts := wts, rts := rts, ver := s2.verOf g }
  let s3 := (s2.setSlot w k x1).touch w k
  let s4 := (s3.modCat g f.slice (fun e => { e with holders := e.holders ||| (1#64 <<< w) })).pinAsked w k f.hints
  -- a window copy keeps its joined requests
  (s4.modWing w (fun y => { y with fills := (y.fills.filter (fun h => h.id != f.id)) ++
    (if x1.once then [{ f with done := true, rds := l }] else []) })).release w

/-- The descriptor of a fill's tile, read once its slot has been chosen (R69, R70, R288 step 2). -/
def State.describe (s : State) (w : Nat) (f : Fill) : State × Got Fill :=
  if f.desc then (s, .ok f)
  else match s.tileDesc f.bound w f.tag (f.waiters.foldl (fun p who => wmax p (s.waiterPts who)) 0) .poison with
    | (s1, .ok t) => (s1, .ok { f with desc := true, tens := t })
    | (s1, .wait) => (s1, .wait)
    | (s1, .bad x) => (s1, .bad x)

/-- `TILE_FILL_COMPLETE`: a fill that has its slot goes on; it ends by installing the copy or by its fault (R288, R289). It
waits for room in its catalogue slice (R297), and while a window copy of the tile is still valid (R284). -/
def execTileFillComplete (wing id : Nat) (s : State) : Result :=
  match (s.wing wing).fills.find? (fun f => f.id == id && !f.done && f.placed && !f.zero) with
  | none => .next s
  | some f0 =>
    let put (s : State) (f : Fill) : State := s.modWing wing (fun g => { g with fills := g.fills.map (fun x => if x.id = id then f else x) })
    match s.describe wing f0 with
    | (s1, .bad t) => .next (s1.failFill wing f0 t)
    | (s1, .wait) => .next s1
    | (s1, .ok f1) =>
      let p : FillPlan := if f1.planned then { plan := { st := s1, rds := f1.rds }, pages := f1.pages }
        else s1.planFill wing f1.bound f1.tag f1.tens
      match p.plan.verdict with
      | some t => .next (p.plan.st.failFill wing f1 t)
      | none =>
        if p.plan.miss then .next (put p.plan.st f1)
        else
          let f : Fill := { f1 with planned := true, rds := p.plan.rds, pages := p.pages }
          let (s2, l, ok) := p.plan.st.windowReads (.fill wing f.id) f.bound.part f.rds []
          if !ok ∨ s2.sliceFull f.tag f.slice ∨ ((s2.wing wing).find f.tag).isSome then .next (put s2 { f with rds := l })
          else .next (s2.installFill wing { f with rds := l } l)

/-! ### Row writes (R233, R263) -/

/-- Set D in a leaf that address `a` is written through, where the translation has it 0; a leaf whose word 0 has changed is walked
again from the root (R66). -/
def State.dirtyLeaf (s : State) (sp : Space) (t : Tlb) (a : W64) : State × Tlb :=
  if pteD t.w0 then (s, t)
  else match s.setAD { sp with asid := t.asid } t true with
    | some r => r
    | none => match s.walk sp a true with
      | (s1, .leaf u) => (s1, if u.pa a = t.pa a ∧ u.size = t.size then u else t)
      | (s1, .fault _ _) => (s1, t)

/-- Set D in those of some leaves that some addresses are written through. -/
def State.dirtyLeaves (s : State) (sp : Space) (vas : List W64) (l : List Tlb) : State × List Tlb :=
  l.foldl (fun (a : State × List Tlb) t =>
    match vas.find? (fun v => t.hits t.asid v) with
    | none => (a.1, a.2 ++ [t])
    | some v => let (s1, u) := a.1.dirtyLeaf sp t v
                (s1, a.2 ++ [u])) (s, [])

/-- Set D in the leaves through which addresses of a copy are written (R66). -/
def State.dirtyPages (s : State) (w k : Nat) (sp : Space) (vas : List W64) : State :=
  let (s1, l) := s.dirtyLeaves sp vas (s.slotOf w k).pages
  s1.setSlot w k { s1.slotOf w k with pages := l }

/-- A row of a copy as the lines that `gained` picks now stand: bytes of such lines that the copy does not hold exclusively through
this row are those of the homes, which may be newer (R233). With it, whether such a line is damaged. -/
def State.rowNow (s : State) (x : Slot) (gained : Nat → Bool) (r : Nat) : VReg × Bool :=
  let far (l : Nat) : Bool := gained l && !x.own.any (fun o => o.1 == l && o.2 == r)
  let bs := x.rowPart r
  let fars := ((bs.map (fun b => b.1 / 256)).eraseDups).filter far
  let mem := s.memNow fars
  (bs.zipIdx.foldl (fun (v : VReg) (b : (Nat × Byte × Byte) × Nat) =>
    if far (b.1.1 / 256) then
      let m := BitVec.ofNat 2048 (b.1.2.2.toNat * 2 ^ (8 * b.2))
      (v &&& ~~~m) ||| (BitVec.ofNat 2048 ((memGet mem b.1.1).toNat * 2 ^ (8 * b.2)) &&& m)
    else v) (mget x.rows r 0),
   fars.any s.marked)

/-- A copy with the scales of row `r` as the lines that `gained` picks now stand (R233). -/
def State.withScalesNow (s : State) (x : Slot) (gained : Nat → Bool) (r : Nat) : Slot :=
  let byte (a : W64) : Option Byte := (pageOf x.pages x.tag.asid a).bind (fun p =>
    let l := p.pa a / 256
    if gained l && !x.own.any (fun o => o.1 == l && o.2 == 64 + r) then some (memGet (s.memNow [l]) (p.pa a)) else none)
  (rowScaleVas x.tens x.tag x.pages r).foldl (fun (y : Slot) v =>
    let y1 : Slot := match byte v.2.1 with
      | some b => { y with scl := mset y.scl (x.tens.rowScales * r + v.1) b }
      | none => y
    if x.tens.sck ≠ 2 then y1
    else match (List.range 4).mapM (fun i => byte (v.2.2 + BitVec.ofNat 64 i)) with
      | some l => { y1 with sup := mset y1.sup r (BitVec.ofNat 32 (leNat l)) }
      | none => y1) x

/-- The copy takes into every row and its scales what lines that it has just gained hold, newer than what it was filled with
(R228, R233). -/
def State.regain (s : State) (x : Slot) (gained : List Nat) : Slot :=
  if gained.isEmpty then x
  else
    (List.range 64).foldl (fun (y : Slot) r =>
      let (row, bad) := s.rowNow y gained.contains r
      let y1 : Slot := { y with
        rows := if row = 0 then mdel y.rows r else mset y.rows r row
        prow := if bad then y.prow ||| (1#64 <<< r) else y.prow }
      s.withScalesNow y1 gained.contains r) x

/-- What one row write of a copy writes: codes by element, scale codes by block of the row, the super-scale, and whether the
data is damaged. -/
structure RowWrite where
  codes : List (Nat × Nat)
  scl : List (Nat × Byte) := []
  sup : Option W32 := none
  damaged : Bool := false

/-- Write part of row `r` of the copy in slot `k` as one access (R233, R263, R287): the copy gains exclusivity of every line of
the row, and of its scales' lines where it writes them, at one stamp above every lease of those lines, which becomes the
writer's pts. The rest of the row is as the lines stand. A line written in full loses its mark; a row of damaged data keeps
one (R373). Other rows of the copy in lines that it gains are as those lines stand. The copy's rts stays the least of its leases. -/
def State.writeRow (st : State) (w k : Nat) (lid : Option Nat) (sp : Space) (pts : W64) (r : Nat) (wr : RowWrite) : State × W64 :=
  let y := st.slotOf w k
  let scales := !wr.scl.isEmpty || wr.sup.isSome
  let vas := (linePieces (y.tens.rowVa y.tag r) (y.tens.rowBytes y.tag r)).map Prod.fst ++
    (if scales then (rowScaleVas y.tens y.tag y.pages r).flatMap (fun v => [v.2.1, v.2.2]) else [])
  let s := st.dirtyPages w k sp vas
  let x := s.slotOf w k
  let linesAt (p : Nat) : List Nat := (((x.part p).filter (fun b => paHome b.1)).map (fun b => b.1 / 256)).eraseDups
  let mine := (linesAt r).map (fun l => (l, r)) ++ (if scales then (linesAt (64 + r)).map (fun l => (l, 64 + r)) else [])
  let lines := (mine.map Prod.fst).eraseDups
  let s0 := match lid with
    | some l => lines.foldl (fun (s : State) a => s.logLine l (w / 8) a) s
    | none => s
  let gained := lines.filter (fun l => !(s0.slotOf w k).own.any (fun o => o.1 == l))
  let s1 := gained.foldl State.recall s0
  let s1 := s1.setSlot w k (s1.regain (s1.slotOf w k) gained)
  let ts := s1.storeStamp pts lines
  let n := x.tens.rowCount x.tag r
  let put := wr.codes.filter (fun c => decide (c.1 < n))
  let (row0, bad0) := s1.rowNow (s1.slotOf w k) (fun _ => true) r
  let full := decide (n ≤ put.length)
  let bad := wr.damaged || (!full && (bad0 || x.prow.getLsbD r))
  -- lines of which every byte is written with good data
  let clean := if bad || !full then [] else
    (linesAt r).filter (fun l => decide (256 ≤ ((x.rowPart r).filter (fun (b : Nat × Byte × Byte) => b.1 / 256 == l && b.2.2 == 255#8)).length))
  let s2 := clean.foldl State.unmark
    { s1 with homes := lines.foldl (fun h l => mset h l ⟨ts, ts, some w⟩) s1.homes }
  let z := s2.slotOf w k
  let row := putCodes x.tens row0 put
  let rest := (z.lines (List.range 64)).all (fun l => lines.contains l)
  let z1 : Slot := { z with
    rows := if row = 0 then mdel z.rows r else mset z.rows r row
    scl := wr.scl.foldl (fun m (c : Nat × Byte) => mset m (x.tens.rowScales * r + c.1) c.2) z.scl
    sup := match wr.sup with
      | some v => mset z.sup r v
      | none => z.sup
    prow := if bad then z.prow ||| (1#64 <<< r) else z.prow &&& ~~~(1#64 <<< r)
    own := z.own.filter (fun o => !mine.contains o) ++ mine
    dirty := true, wts := wmax z.wts ts, rts := if rest then ts else z.rts }
  ((s2.setSlot w k z1.withZbm).modCat x.tag 0 (fun e => { e with excl := some w }), ts)

/-! ### Removing and writing back everything that matches -/

/-- (wing, key) of every valid copy that a test picks. -/
def State.copiesOf (s : State) (f : Slot → Bool) : List (Nat × Nat) :=
  s.wings.flatMap (fun w => (w.2.slots.filter (fun k => k.2.v && f k.2)).map (fun k => (w.1, k.1)))

/-- Write back the dirty copies that a test picks; the first fault stops, its tile stays dirty (R283). -/
def State.writeBackAll (s : State) (f : Slot → Bool) : State × Option (Cause × Nat × W64) :=
  (s.copiesOf (fun x => f x && x.dirty)).foldl (fun (a : State × Option (Cause × Nat × W64)) p =>
    match a.2 with
    | some _ => a
    | none => a.1.writeBack p.1 p.2) (s, none)

/-! ### The park area (R277, R293) -/

/-- Keys of the park slots of a core. -/
def parkKeys (core : Nat) : List Nat := (List.range 8).map (fun i => 16 * (8 * (core % 8) + i) + 15)

/-- Take the park slots of a core: false while a copy that is no victim stands there; one whose write-back faults becomes such a
copy (R291, R294). -/
def State.grantPark (s : State) (core : Nat) : State × Bool :=
  let w := core / 8
  let ks := parkKeys core
  if (s.core core).parkGranted then (s, true)
  else if ks.any (fun k => (s.slotOf w k).pins != 0 || (s.slotOf w k).fill || (s.slotOf w k).wbf ||
      ((s.slotOf w k).v && s.inUse w (s.slotOf w k).tag)) then (s, false)
  else
    let s1 := ks.foldl (fun s k => let s1 := s.writeBackLazy w k
                                   if (s1.slotOf w k).v && !(s1.slotOf w k).wbf then s1.freeSlot w k else s1) s
    let lost := ks.filter (fun k => (s1.slotOf w k).wbf)
    if !lost.isEmpty then (lost.foldl (fun s k => s.setSlot w k { s.slotOf w k with wbf := true }) s, false)
    else (ks.foldl (fun s k => s.setSlot w k { Slot.empty with parks := true })
      (s1.modCore core (fun c => { c with parkGranted := true })), true)

/-- A `PARK` of the strand on entry `k` that an `UNPARK` has already read: the entry stays free (R277). -/
def parkTaken : W64 := 1

/-- A `PARK` writes its entry. -/
def State.parkWrite (s : State) (n : Nat) (e : Entry) (k : Nat) : State :=
  (if e.aux = parkTaken then s
   else s.modCore (coreOf n) (fun x => { x with park := mset x.park k (e.z.headD VV.zero) })).completeEntry n e [] 0

/-- A `PARK` of the strand is still held. -/
def Strand.parks (st : Strand) : Bool := st.open_.any (fun e => match e.instr with
  | .park .. => true
  | _ => false)

/-- `PARK` (R277): it stalls while the cache grants the slots, then writes its entry; while an earlier slot can still trap the
write is held, for it is then undone (R113, R364). -/
def execPark (d : BitVec 6) (k : BitVec 9) (s : State) : Result :=
  s.runA (.park d k) (fun _ t => { st := t }) (fun x st _ fl t =>
    match t.grantPark (coreOf t.cur) with
    | (t1, false) => t1.stall t.cur
    | (t1, true) =>
      let id := t1.opId
      let t2 := (t1.openOp t1.cur 0 (.park d k) st x.cap true []).modEntry t1.cur id (fun e => { e with fl := fl })
      if st.slipped st.front.ctx.seq || st.parks then t2
      else match t2.entry? t2.cur id with
        | some e => t2.parkWrite t2.cur e k.toNat
        | none => t2)

/-- The strand's latest `PARK` of entry `k` that is still held. -/
def Strand.parkHeld (st : Strand) (k : Nat) : Option Entry :=
  (st.open_.filter (fun e => match e.instr with
    | .park _ j => j.toNat == k
    | _ => false)).getLast?

/-- `UNPARK` (R277): it takes its entry at issue, from a `PARK` of the strand that is still held if there is one, and delivers
8 clocks later. A free entry gives 0 with the tag in every lane. -/
def execUnpark (d : BitVec 6) (k : BitVec 9) (s : State) : Result :=
  s.runA (.unpark d k) (fun _ t => { st := t }) (fun _ st _ _ t =>
    let n := t.cur
    let free : VV := ⟨0, ~~~0#64⟩
    match t.me.parkHeld k.toNat with
    | some p =>
      ((t.openKnown n (.unpark d k) st (.v (if p.aux = parkTaken then free else p.z.headD VV.zero))).modEntry n p.id
        (fun e => { e with aux := parkTaken })).modCore (coreOf n) (fun c => { c with park := mdel c.park k.toNat })
    | none =>
      (t.openKnown n (.unpark d k) st (.v ((mget? (t.core (coreOf n)).park k.toNat).getD free))).modCore (coreOf n)
        (fun c => { c with park := mdel c.park k.toNat }))

/-- An earlier `PARK` of the strand has not taken effect. -/
def Strand.parkBefore (st : Strand) (e : Entry) : Bool :=
  st.open_.any (fun x => ordLt x.seq x.slot e.seq e.slot && (match x.instr with
    | .park .. => true
    | _ => false))

/-- A held `PARK` writes its entry, in issue order, once no earlier slot can trap; an `UNPARK` delivers what it took (R277, log
entry 19). -/
def State.parkPerform (s : State) (n : Nat) (e : Entry) : State :=
  let st := s.strand n
  match e.instr with
  | .park _ k =>
    if st.slipped e.seq || st.parkBefore e then s
    else
      let (s1, ok) := s.grantPark (coreOf n)
      if !ok then s1 else s1.parkWrite n e k.toNat
  | .unpark .. => if s.clk < e.clk + 8 then s else s.completeEntry n e e.recorded 0
  | _ => s

end Sys2Proof.Machine
end

