-- ==== Sys2Proof/Machine/TileRows.lean ====
section
/-! DEFINITION. `LDT` and `STT` (R261 to R264), `TFLUSH` and `TINV` (R283): their operands, the row they read or write,
their faults, and their course. -/

namespace Sys2Proof.Machine

/-! ### The tile reference word (Table 11-7) -/

def refMinv (b : W64) : Nat := bitsN b.toNat 63 48
def refPart (b : W64) : Nat := bitsN b.toNat 26 24
def refWhole (b : W64) : Bool := bitN b.toNat 23
def refHint (b : W64) : Nat := bitsN b.toNat 22 20
def refRow (b : W64) : Nat := bitsN b.toNat 17 12

/-- RAW and TY of `LDT` and `STT`. -/
def rowShape (i : Instr) : Bool × Nat :=
  match i with
  | .ldt _ _ _ _ _ r t => (r, t.toNat)
  | .stt _ _ _ _ _ r t => (r, t.toNat)
  | _ => (true, 0)

/-- The trap of lowest rank, the first met among equals (R362). -/
def firstTrap (l : List Trap) : Option Trap :=
  l.foldl (fun (a : Option Trap) t => match a with
    | none => some t
    | some u => if t.cause.rank < u.cause.rank then some t else some u) none

/-! ### Reading a part of a row (R262) -/

/-- Lanes that hold register elements below a count. -/
def lanesBelow (wt cnt : Nat) : W64 := maskOf (fun l => (List.range (32 / wt)).any (fun j => decide (l * (32 / wt) + j < cnt)))

/-- The register that part `part` of row `r` of a copy delivers through bank copy `cp`, with flags by lane. A row of
format RAW delivers its bytes from the part's first element on (R255 step 2). -/
def Slot.readPart (x : Slot) (r part ty : Nat) (raw : Bool) (cp : BankCopy) : VV × LaneFlags :=
  let t := x.tens
  let row := mget x.rows r 0
  let tag := x.prow.getLsbD r
  if raw ∨ t.fmt = 0 then
    let sh := if raw then 0 else 8 * (part * tyN ty)
    let v : VV := ⟨row >>> sh, if tag then lanesBelow 8 (256 - sh / 8) else 0⟩
    (v, (DVal.v v).ps)
  else
    let wt := tyWidth ty
    let k := expandCount t.fmt cp.mode
    let m := tyN ty / k
    let els := (List.range m).flatMap (fun j =>
      let e := part * m + j
      if t.e ≤ e then List.replicate k ⟨0, false, 0⟩
      else
        let (sc, su) := if t.sck = 0 then (0, 0) else (x.scaleOf r e, x.superOf r)
        decodeElem ty t.fmt t.sck cp (rowCode t row e) sc su tag)
    (vvOfEls wt els, flagsOfEls wt els)

/-- The address of the first element of a part, for EADDR. -/
def Slot.partVa (x : Slot) (r e : Nat) : W64 := (elemPlace x.tens.w (x.tens.rowVa x.tag r) e).1

/-- A row read or write takes the copy: hint, pin, replacement (R264, R293). -/
def State.useCopy (s : State) (core w k hint : Nat) (wr : Bool) : State :=
  let x := s.slotOf w k
  s.setSlot w k (x.hinted hint (core % 8) wr)

/-- PINOVF. -/
def pinTrap : Trap := { cause := .pinovf }

/-- `LDT` finds its tile: its checks, then the row is read, its bank captured, and it is resolved (R262, R264). -/
def State.ldtRead (s : State) (n : Nat) (e : Entry) (k : Nat) : State :=
  let w := wingOf n
  let c := coreOf n
  let x := s.slotOf w k
  let b := e.ain.bv
  let (raw, ty) := rowShape e.instr
  let t := x.tens
  let cb := fmtCb t.fmt && !raw
  let bk := (s.core c).bank t.cbk
  let cp := if cb then bk.current else BankCopy.reset
  let m := tyN ty / expandCount t.fmt cp.mode
  let past := if raw then refPart b != 0 else decide (t.e ≤ refPart b * m)
  let mis : Trap := { cause := .fmtmis, eaddr := x.partVa (refRow b) (refPart b * m) }
  match firstTrap ((if past then [tileTrap xTilerange] else []) ++ (if cb && t.sck == 1 && modeInt cp.mode then [mis] else []) ++
      (if s.pinOver c x (refHint b) then [pinTrap] else [])) with
  | some t => s.trapEntry n e t
  | none =>
    let (v, f) := x.readPart (refRow b) (refPart b) ty raw cp
    let s1 := s.setPts n (wmax (s.pts n) x.wts)
    let s2 := (s1.useCopy c w k (refHint b) false).onceRead w k (.op n e.id)
    let s3 := s2.modEntry n e.id (fun y => { y with
      resolved := true, step := 1, z := [v], fl := f, caps := if cb then [(t.cbk, bk.curIdx)] else [] })
    if cb then s3.captureBank c t.cbk else s3

/-! ### Writing a part of a row (R263) -/

/-- Codes that a write of register `v` puts into part `part` of a row, as (element, code), the lanes of `v` that they come
from, and the flags: of elements that are stored, neither pads nor beyond the row (R256, R263; log entry 80). -/
def Slot.partCodes (x : Slot) (r part ty : Nat) (raw : Bool) (v : VReg) : List (Nat × Nat) × W64 × LaneFlags :=
  let t := x.tens
  let n := t.rowCount x.tag r
  if raw ∨ t.fmt = 0 then
    let lo := if raw then 0 else part * tyN ty
    let es := (List.range n).filter (fun e => decide (lo ≤ e ∧ (e + 1 - lo) * t.w ≤ 2048))
    (es.map (fun e => (e, elemN v t.w (e - lo))),
     maskOf (fun l => es.any (fun e => decide ((e - lo) * t.w / 32 ≤ l ∧ l ≤ ((e + 1 - lo) * t.w - 1) / 32))), 0)
  else
    let wt := tyWidth ty
    let js := (List.range (tyN ty)).filter (fun j => decide (part * tyN ty + j < n))
    let rs := (List.range (tyN ty)).map (fun j => encodeElem ty t.fmt (elemN v wt j))
    (js.map (fun j => (part * tyN ty + j, ((rs.drop j).headD ⟨0, 0⟩).pat)),
     maskOf (fun l => js.any (fun j => laneOfElem wt j == l)),
     flagsOfEls wt (rs.zipIdx.map (fun p => ⟨0, false, if part * tyN ty + p.2 < n then p.1.flags else 0⟩)))

/-- A byte that a window copy's fill read. -/
def State.onceByte (s : State) (w : Nat) (g : Tag) (va : W64) : Byte :=
  match (s.wing w).fills.find? (fun f => f.tag == g && f.done) with
  | some f => (byteAt f.rds va).1
  | none => 0

/-- Where the pieces of a row of a window copy lie, page by page: offset in the row, length, target; or the XLATE or PEER fault of
the first that has none (R349). -/
def State.rowTargets (s : State) (part : Nat) (x : Slot) (r : Nat) : Except (Cause × Nat × W64) (List (Nat × Nat × Target)) :=
  let va := x.tens.rowVa x.tag r
  (splitRange 4096 2 va (x.tens.rowBytes x.tag r)).mapM (fun p =>
    match pageOf x.pages x.tag.asid p.1 with
    | none => .error (.xlate, xNomap, p.1)
    | some pg => match s.target part (pg.pa p.1) with
      | .error (c, k) => .error (c, k, p.1)
      | .ok tgt => .ok ((p.1 - va).toNat, p.2, tgt))

/-- The write of elements of row `r` of a window copy: one access, as one posted store where its pages lie in one module's window.
Pad bits in the last byte are those that the fill read (R299, R325). -/
def State.rowPieces (s : State) (w part : Nat) (x : Slot) (r : Nat) (row : VReg) (els : List (Nat × Nat)) :
    Except (Cause × Nat × W64) (List Piece) :=
  let t := x.tens
  let va := t.rowVa x.tag r
  let bits := t.rowCount x.tag r * t.w
  let touched (i : Nat) : Bool := els.any (fun p => decide (elemFirst t.w p.1 ≤ i ∧ i ≤ elemLast t.w p.1))
  let byte (i : Nat) : Byte :=
    let b := BitVec.ofNat 8 (elemN row 8 i)
    if 8 * i + 8 ≤ bits then b
    else mixByte (s.onceByte w x.tag (va + BitVec.ofNat 64 i)) b (BitVec.ofNat 8 (2 ^ (bits - 8 * i) - 1))
  (s.rowTargets part x r).map (fun l =>
    let ps := l.filterMap (fun p =>
      let bs := ((List.range p.2.1).filter (fun i => touched (p.1 + i))).map (fun i => (i, byte (p.1 + i)))
      if bs.isEmpty then none else some (⟨va + BitVec.ofNat 64 p.1, p.2.2, bs, false⟩ : Piece))
    mergePieces (ps.zipIdx.map (fun p => { p.1 with join := decide (0 < p.2) })))

/-- Some page of a row is being closed: its writes wait (R338, R339). -/
def State.rowClosed (s : State) (x : Slot) (r : Nat) : Bool := (x.rowPart r).any (fun b => s.closedAt b.1)

/-- `STT` finds its tile: its checks, then the row is written at one stamp (R233, R263); into a window copy it becomes
posted stores (R299). -/
def State.sttWrite (s : State) (n : Nat) (e : Entry) (k : Nat) : State :=
  let w := wingOf n
  let c := coreOf n
  let x := s.slotOf w k
  let i := e.ain
  let b := i.bv
  let r := refRow b
  let (raw, ty) := rowShape e.instr
  let t := x.tens
  let past := if raw then refPart b != 0 else decide (t.e ≤ refPart b * tyN ty)
  let mis := !raw && !writeFmtOk t.fmt t.sck
  let perm := (x.permFault (dieOf n) [r] []).map (fun q => ({ cause := q.1, sub := q.2.1, eaddr := q.2.2 } : Trap))
  let z := i.cap.z.headD VV.zero
  let (codes, lanes, f) := x.partCodes r (refPart b) ty raw z.v
  let row := putCodes t (mget x.rows r 0) codes
  let peer := if x.once then
      (match s.rowPieces w (s.partOf n) x r row codes with
       | .error (c, k, va) => [({ cause := c, sub := k, eaddr := va } : Trap)]
       | .ok _ => [])
    else []
  if s.rowClosed x r then s
  else match firstTrap ((if !past && z.t &&& lanes != 0 then [poisonAt 2 0] else []) ++ (if past then [tileTrap xTilerange] else []) ++ perm.toList ++
      (if mis then [{ cause := .fmtmis, eaddr := x.partVa r (refPart b * tyN ty) }] else []) ++ peer ++
      (if s.pinOver c x (refHint b) then [pinTrap] else [])) with
  | some t => s.trapEntry n e t
  | none =>
    if x.once then
      match s.rowPieces w (s.partOf n) x r row codes, (s.strand n).bound with
      | .error _, _ => s
      | .ok _, none => s
      | .ok pieces, some bd =>
        let (s1, ok) := s.askAll (.op n e.id) (windowsOf (pieces.map Piece.tgt))
        if !ok then s1
        else
          -- the write is made to the copy, which serves the requests joined to its fill, and posted (R299)
          let s1 := s1.dirtyPages w k (bd.space (dieOf n)) (pieces.map Piece.va)
          let x := s1.slotOf w k
          let s2 := s1.setSlot w k ({ x with rows := if row = 0 then mdel x.rows r else mset x.rows r row }.withZbm)
          let s3 := s2.onceRead w k (.op n e.id)
          if pieces.isEmpty then s3.completeEntry n e [] f
          else (s3.completeEntry n { e with fl := 0 } [] 0).queueWrite n e.id e.seq e.slot e.pc e.instr i (t.rowVa x.tag r) pieces f e.fl
    else
      match (s.strand n).bound with
      | none => s
      | some bd =>
        let (s1, ts) := s.writeRow w k (some bd.lid) (bd.space (dieOf n)) (s.pts n) r { codes := codes }
        (((s1.setPts n ts).useCopy c w k (refHint b) true).completeEntry n e [] f)

/-! ### The course of `LDT` and `STT` (R264) -/

/-- The tag that an entry names, its MINV and its hint. -/
def Entry.tileOf (e : Entry) (asid : Nat) : Tag := tagOf asid (refTid e.ain.bv) e.ain.av
def Entry.minvOf (e : Entry) : Nat := match e.instr with
  | .ldt .. => refMinv e.ain.bv
  | _ => 0

/-- An unresolved `LDT` or `STT` looks for its tile once every earlier access has performed; a resolved `LDT` delivers. -/
def State.tileStep (s : State) (n : Nat) (e : Entry) : State :=
  match (s.strand n).bound with
  | none => s
  | some bd =>
    if e.step = 1 then
      (if s.clk < e.clk + 4 then s
       else
         let v : DVal := .v (e.z.headD VV.zero)
         s.completeEntry n e [v] v.ps)
    else if !(s.strand n).mayPerform e then s
    else
      match s.tileReq (wingOf n) bd (e.tileOf bd.asid) e.minvOf (refHint e.ain.bv) (.op n e.id) (s.pts n) with
      | (s1, .hit k) => (match e.instr with
        | .ldt .. => s1.ldtRead n e k
        | _ => s1.sttWrite n e k)
      | (s1, .wait) => s1
      | (s1, .full) => s1

/-- Poison of the scalar operands (R251); that of the value written is judged with the elements that are stored. -/
def planTile (x : AIn) (s : State) : Plan :=
  (({ st := s } : Plan).poison (x.cap.x.tag 0) 0 0).poison (x.cap.y.tag 0) 1 0

/-- Issue: the request is parked when the tile is missing, and stalls the slot while the wing's replay queue is full (R264,
R290). -/
def State.issueTile (s : State) (i : Instr) : Result :=
  s.runA i (fun x t => planTile x t) (fun x st _ fl t =>
    let n := t.cur
    match st.bound with
    | none => t.setStrand n st
    | some bd =>
      let minv := match i with
        | .ldt .. => refMinv x.bv
        | _ => 0
      let id := t.opId
      let t0 := (t.openOp n 0 i st x.cap false []).modEntry n id (fun e => { e with fl := fl })
      match t0.tileReq (wingOf n) bd (tagOf bd.asid (refTid x.bv) x.av) minv (refHint x.bv) (.op n id) (t.pts n) with
      | (_, .full) => t.stall n
      | (t1, _) => t1)

def execLdt (d a b : BitVec 6) (p q r : Bool) (t : BitVec 3) (s : State) : Result := s.issueTile (.ldt d a b p q r t)
def execStt (d a b : BitVec 6) (p q r : Bool) (t : BitVec 3) (s : State) : Result := s.issueTile (.stt d a b p q r t)

/-! ### `TFLUSH`, `TINV` (R283) -/

/-- Copies that `TFLUSH` or `TINV` names. -/
def flushTargets (asid : Nat) (x : AIn) (y : Slot) : Bool :=
  y.tag.asid == asid && y.tag.tid == refTid x.bv && (refWhole x.bv || y.tag == tagOf asid (refTid x.bv) x.av)

/-- `TINV` removes a copy of its own wing that no other core pins. -/
def State.dropCopies (s : State) (core : Nat) (f : Slot → Bool) : State :=
  let w := core / 8
  ((s.wing w).slots.filter (fun k => k.2.v && f k.2 && (k.2.pins &&& ~~~(1#8 <<< (core % 8))) == 0)).foldl
    (fun s k => s.freeSlot w k.1) s

/-- An unresolved `TFLUSH` or `TINV`: descriptor checks, every write-back, the removal, then it resolves. -/
def State.flushStep (s : State) (n : Nat) (e : Entry) : State :=
  match (s.strand n).bound with
  | none => s
  | some bd =>
    if !(s.strand n).mayPerform e then s
    else
      let x := e.ain
      let chk : State × Got Tensor :=
        if refWhole x.bv then s.readTensor bd (wingOf n) (refTid x.bv) (s.pts n) .memue
        else s.tileDesc bd (wingOf n) (tagOf bd.asid (refTid x.bv) x.av) (s.pts n) .memue
      match chk with
      | (s1, .bad t) => s1.trapEntry n e t
      | (s1, .wait) => s1
      | (s1, .ok _) =>
        match s1.writeBackAll (flushTargets bd.asid x) with
        | (s2, some (c, k, va)) => s2.trapEntry n e { cause := c, sub := k, eaddr := va }
        | (s2, none) =>
          let s3 := match e.instr with
            | .tinv .. => s2.dropCopies (coreOf n) (flushTargets bd.asid x)
            | _ => s2
          s3.completeEntry n e [] 0

/-- Issue of `TFLUSH` and `TINV`. -/
def State.issueFlush (s : State) (i : Instr) : Result :=
  s.runA i (fun x t => planTile x t) (fun x st _ _ t =>
    t.openOp t.cur 0 i st x.cap false [])

def execTflush (a b : BitVec 6) (p q : Bool) (s : State) : Result := s.issueFlush (.tflush a b p q)
def execTinv (a b : BitVec 6) (p q : Bool) (s : State) : Result := s.issueFlush (.tinv a b p q)

end Sys2Proof.Machine
end

