-- ==== Sys2Proof/Machine/Streams.lean ====
section
/-! DEFINITION. Streams: `SBIND` (R265, R267), `SCHAIN` (R268, R269), `SUNBIND`, `SPOS` (R271), and the pattern reads of
the stream engine (R266, R270). -/

namespace Sys2Proof.Machine

/-! ### The descriptor (Table 11-9) -/

def Stream.word (q : Stream) (i : Nat) : W64 := (q.desc.drop i).headD 0
def Stream.isRaw (q : Stream) : Bool := bitN (q.word 6).toNat 8
def Stream.isTile (q : Stream) : Bool := bitN (q.word 6).toNat 9
def Stream.cnt0 (q : Stream) : Nat := (q.word 1).toNat % 2 ^ 32
def Stream.cnt1 (q : Stream) : Nat := (q.word 1).toNat / 2 ^ 32
def Stream.tyField (q : Stream) : Nat := bitsN (q.word 6).toNat 7 5

/-- A stream as `SBIND` leaves it: chain empty, position 0. -/
def Stream.bindTo (desc : List W64) (parts : Nat) : Stream :=
  { desc := desc, chain := 0, scale := 0, preds := [], parts := parts, length := 0, pos := 0, delivered := false
    next := 0, rds := [], planned := 0, raw := [], rawFlags := [], fault := none }

/-- Status 1 of `SBIND` by the descriptor alone (R267). -/
def Stream.malformed (q : Stream) : Bool :=
  let w6 := (q.word 6).toNat
  (q.word 2).toNat / 2 ^ 32 != 0 || bitsN w6 47 32 != 0 || bitsN w6 16 10 != 0 || bitsN w6 4 0 != 0 ||
    (q.word 7) != 0 || decide (6 ≤ q.tyField) || (q.isRaw && q.tyField != 0) || (q.isTile && q.word 3 != 0)

/-- Coordinates of the tile that pattern vector `j` reads: fields summed modulo 2^16 (R266). -/
def Stream.coords (q : Stream) (j : Nat) : W64 :=
  let i1 := j / q.cnt0 % q.cnt1
  let i2 := j / q.cnt0 / q.cnt1
  (List.range 4).foldl (fun (a : W64) f =>
    let fld (w : W64) : Nat := bitsN w.toNat (16 * f + 15) (16 * f)
    a ||| (BitVec.ofNat 64 ((fld (q.word 0) + i1 * fld (q.word 4) + i2 * fld (q.word 5)) % 65536) <<< (16 * f))) 0

/-- The address that pattern vector `j` of MODE 0 reads. -/
def Stream.va (q : Stream) (j : Nat) : W64 :=
  let i0 := j % q.cnt0
  let i1 := j / q.cnt0 % q.cnt1
  let i2 := j / q.cnt0 / q.cnt1
  q.word 0 + BitVec.ofNat 64 i0 * q.word 3 + BitVec.ofNat 64 i1 * q.word 4 + BitVec.ofNat 64 i2 * q.word 5

/-- Row and part that pattern vector `j` of MODE 1 reads. -/
def Stream.rowPart (q : Stream) (j : Nat) : Nat × Nat :=
  let p := Nat.max 1 q.parts
  (j % q.cnt0 / p, j % q.cnt0 % p)

/-! ### `SBIND` (R267) -/

/-- The descriptor address. -/
def sbindEa (x : AIn) : W64 := x.av &&& ~~~63#64

def planSbind (n slot : Nat) (x : AIn) (s : State) : Plan :=
  ((({ st := s } : Plan)).poison (x.cap.x.tag 0) 0 (sbindEa x)).access n slot .load (sbindEa x) 64

/-- The modes of a core's eight current bank copies, four bits each, as `SBIND` finds them at its issue (R266). -/
def State.modesNow (s : State) (n : Nat) : W64 :=
  (List.range 8).foldl (fun (a : W64) b => a ||| (BitVec.ofNat 64 (s.modeOf n b) <<< (4 * b))) 0

/-- The stream register an entry names. -/
def Entry.streamOf (e : Entry) : Nat := (streamNamed e.instr).getD 0

/-- Set stream register `q` of strand `n`. -/
def State.setStream (s : State) (n q : Nat) (x : Option Stream) : State :=
  s.modStrand n (fun st => { st with streams := match x with
    | some y => mset st.streams q y
    | none => mdel st.streams q })

/-- P of R266, from the tensor's descriptor and the bank modes `modes` of the issue. -/
def State.partsOf (s : State) (n : Nat) (bd : Bound) (q : Stream) (modes : W64) : State × Got Nat :=
  if !q.isTile ∨ q.isRaw then (s, .ok 1)
  else
    match s.readTensor bd (wingOf n) (bitsN (q.word 6).toNat 31 20) (s.pts n) .memue with
    | (s1, .bad t) => (s1, .bad t)
    | (s1, .wait) => (s1, .wait)
    | (s1, .ok t) =>
      let k := expandCount t.fmt (bitsN modes.toNat (4 * t.cbk + 3) (4 * t.cbk))
      let nn := tyN q.tyField
      (s1, .ok ((t.e * k + nn - 1) / nn))

/-- A trap of `SBIND` waits until no earlier slot can trap (R132). -/
def State.sbindTrap (s : State) (n : Nat) (e : Entry) (t : Trap) : State :=
  if (s.strand n).slipped e.seq then s else s.trapEntry n e t

/-- An open `SBIND`: its descriptor read at its place, then the checks, the binding, and the status 2 clocks after issue (R253,
R267). -/
def State.sbindStep (s : State) (n : Nat) (e : Entry) : State :=
  match (s.strand n).bound with
  | none => s
  | some bd =>
    if e.step = 1 then
      (if s.clk < e.clk + 2 then s else s.completeEntry n e [.s ⟨e.aux, false⟩] 0)
    else if !(s.strand n).performedBefore e.seq e.slot then s
    else
      let (s1, e1, ok) := s.readStep n e false
      if !ok then s1
      else
        let (bs, m) := bytesAt e1.rds (sbindEa e.ain) 64
        if m then s1.sbindTrap n e1 { cause := .memue, eaddr := sbindEa e.ain }
        else
          let q0 := Stream.bindTo ((List.range 8).map (word64 bs)) 1
          let done (s : State) (v : W64) : State :=
            if s.clk < e.clk + 2 then s.modEntry n e.id (fun y => { y with resolved := true, step := 1, aux := v })
            else s.completeEntry n e1 [.s ⟨v, false⟩] 0
          if q0.malformed then done s1 1
          else
            match s1.partsOf n bd q0 e.aux with
            | (s2, .bad t) => s2.sbindTrap n e1 t
            | (s2, .wait) => s2
            | (s2, .ok p) =>
              if q0.isTile ∧ 64 * p < q0.cnt0 then done s2 1
              else if 2 ^ 48 ≤ q0.total then done s2 2
              else
                let q1 := { q0 with parts := p, length := q0.total }
                done (s2.setStream n e.streamOf (some q1)) 0

/-- `SBIND` issues once every earlier access of its strand has performed, so that its one SEQ load takes its place at once and
the descriptors are those of its issue; in memory it is read and checked there (R253, R266, R267; log entry 79). -/
def execSbind (d a : BitVec 6) (p : Bool) (q : BitVec 4) (s : State) : Result :=
  s.runA (.sbind d a p q) (fun x t => planSbind t.cur 0 x t) (fun x st pl _ t =>
    let n := t.cur
    let id := t.opId
    if st.slipped st.front.ctx.seq || !st.performedBefore st.front.ctx.seq 0 then t.stall n
    else
      let t1 := (t.openOp n 0 (.sbind d a p q) st x.cap false pl.rds).modEntry n id (fun e => { e with aux := t.modesNow n })
      if !memOnly pl.rds then t1
      else match t1.entry? n id with
        | none => t1
        | some e =>
          let t2 := t1.sbindStep n e
          -- the tensor's descriptor waits for its translation
          if (t2.entry? n id).any (fun y => y.step == 0) then (t.keepMisses t2).stall n else t2)

/-! ### `SCHAIN`, `SPOS`, `SUNBIND` -/

/-- The predicates of a strand as vectors, as `SCHAIN` captures them. -/
def Strand.predVecs (st : Strand) : List VV :=
  (List.range 8).map (fun k => ⟨(st.regs.kP k).v.setWidth 2048, (st.regs.kP k).t⟩)

/-- A predicate that a MASK stage of a chain word names is still to be written: its write is in flight, or stands in a
slot B or C that has not issued (R127, R269). -/
def Strand.maskWait (st : Strand) (w : W64) : Bool :=
  match stagesOf w with
  | .error _ => false
  | .ok l => l.any (fun x => match x with
      | .mask k => k != 0 && (st.inFlight (.k k) || st.front.pairs.any (fun p =>
          let d := p.decoded
          (decodedNames d.b ++ decodedNames d.c).contains (2, k)))
      | _ => false)

def execSchain (d a b : BitVec 6) (p r : Bool) (q : BitVec 4) (s : State) : Result :=
  s.runA (.schain d a b p r q) (fun _ t => { st := t }) (fun x st _ _ t =>
    if st.maskWait x.av then t.stall t.cur
    else t.openOp t.cur 0 (.schain d a b p r q) st { x.cap with z := st.predVecs } true [])

def execSunbind (q : BitVec 4) (s : State) : Result :=
  s.runA (.sunbind q) (fun _ t => { st := t }) (fun x st _ _ t => t.openOp t.cur 0 (.sunbind q) st x.cap true [])

def execSpos (d a : BitVec 6) (p : Bool) (q : BitVec 4) (sv : Bool) (s : State) : Result :=
  s.runA (.spos d a p q sv) (fun _ t => { st := t }) (fun x st _ _ t =>
    t.openOp t.cur 0 (.spos d a p q sv) st x.cap true [])

/-- The status of `SCHAIN` and the stream with its chain set (R269). -/
def chainSet (mode : Nat → Nat) (q : Option Stream) (w : W64) (scale : W32) (preds : List VV) : Nat × Option Stream :=
  match stagesOf w with
  | .error _ => (1, q)
  | .ok l =>
    match q with
    | none => (3, q)
    | some y =>
      if y.delivered then (3, q)
      else
        match chainTypes mode l y.ty with
        | none => (2, q)
        | some _ =>
          let pm : AMap PV := preds.zipIdx.map (fun p => (p.2, ⟨p.1.v.setWidth 64, p.1.t⟩))
          (0, some { y with chain := w, scale := scale, preds := pm, length := chainLen mode l y.ty y.total })

/-- An earlier operation of the strand on the same stream is open. -/
def Strand.streamBefore (st : Strand) (e : Entry) : Bool :=
  st.open_.any (fun x => ordLt x.seq x.slot e.seq e.slot && streamNamed x.instr == some e.streamOf)

/-- An open `SCHAIN` or `SPOS` takes effect 2 clocks after issue, `SUNBIND` at once; each after earlier operations on its
stream (R253, R271). -/
def State.streamStep (s : State) (n : Nat) (e : Entry) : State :=
  let st := s.strand n
  let q := e.streamOf
  if st.streamBefore e then s
  else
    match e.instr with
    | .sunbind _ => (s.setStream n q none).completeEntry n e [] 0
    | .schain .. =>
      if s.clk < e.clk + 2 then s
      else
        let (v, y) := chainSet (s.modeOf n) (mget? st.streams q) e.ain.av (e.ain.bv.setWidth 32) e.z
        (s.setStream n q y).completeEntry n e [.s ⟨BitVec.ofNat 64 v, false⟩] 0
    | .spos _ _ _ _ sv =>
      if s.clk < e.clk + 2 then s
      else
        (match mget? st.streams q with
         | none => s.completeEntry n e [.s ⟨~~~0#64, false⟩] 0
         | some y =>
           let s1 := if sv then s.setStream n q (some { y with
               pos := e.ain.av.toNat, delivered := false, rds := [], raw := [], rawFlags := [], fault := none })
             else s
           s1.completeEntry n e [.s ⟨BitVec.ofNat 64 y.pos, false⟩] 0)
    | _ => s

/-! ### Pattern reads (R266, R270) -/

/-- The pattern vectors that the next stream vector needs, if one is left. -/
def Stream.needs (q : Stream) (c : Core) : Option (Nat × Nat) :=
  if q.length ≤ q.pos then none
  else
    let (rev, _) := q.chainOf (fun b => (c.bank b).current.mode)
    let (lo, hi) := chainNeeds (fun b => (c.bank b).current) rev q.pos q.pos
    some (lo, Nat.min hi (q.total - 1))

/-- The pattern vector to read next. -/
def Stream.missing (q : Stream) (c : Core) : Option Nat :=
  match q.fault, q.needs c with
  | none, some (lo, hi) => ((List.range (hi + 1 - lo)).map (fun d => lo + d)).find? (fun j => (mget? q.raw j).isNone)
  | _, _ => none

/-- Keep pattern vector `j`, and of those read before only what later vectors still need. -/
def Stream.keep (q : Stream) (lo j : Nat) (v : VV) (f : LaneFlags) : Stream :=
  { q with
    raw := mset (q.raw.filter (fun p => decide (lo ≤ p.1))) j v
    rawFlags := mset (q.rawFlags.filter (fun p => decide (lo ≤ p.1))) j f, rds := [], next := j + 1 }

/-- Reads of a pattern vector in MODE 0, in order; a window read holds the later ones. -/
def State.patternReads (s : State) (n q : Nat) : List Rd → List Rd → State × List Rd × Bool
  | [], done => (s, done, true)
  | r :: t, done =>
    match r.got, r.tgt with
    | some _, _ => s.patternReads n q t (done ++ [r])
    | none, .mem pa =>
      if r.len = 0 then s.patternReads n q t (done ++ [{ r with got := some ([], false) }])
      else
        let (s1, bs, m) := s.load n pa r.len false
        s1.patternReads n q t (done ++ [{ r with got := some (bs, m) }])
    | none, .window _ dst pa =>
      if r.len = 0 then s.patternReads n q t (done ++ [{ r with got := some ([], false) }])
      else
        let out := s.fabric.awaited (.stream n q)
        if out ∨ !s.fabric.roomFor dst then (s, done ++ (r :: t), false)
        else ((s.request dst (s.partOf n) (.load r.len) pa [] (.stream n q) none).1, done ++ (r :: t), false)

/-- A pattern vector of MODE 0: checks, reads, decoding; a fault is kept with the vector. -/
def State.patternMem (s : State) (n q lo j : Nat) (y : Stream) : State :=
  let va := y.va j
  let act := ~~~0#64
  let plan : Plan := if y.rds.isEmpty ∨ y.next ≠ j then
      (({ st := s } : Plan)).readReg n 1 y.tyField y.isRaw act (s.modeOf n) va
    else { st := s, rds := y.rds }
  match plan.verdict with
  | some t => plan.st.setStream n q (some { y with fault := some (j, t), rds := [] })
  | none =>
    if plan.miss || (rdBanks y.isRaw plan.rds).any (fun b => (s.strand n).bankPending b) then plan.st
    else
      let (s1, l, ok) := plan.st.patternReads n q plan.rds []
      if !ok then s1.setStream n q (some { y with
        rds := l, next := j, planned := if y.rds.isEmpty ∨ y.next ≠ j then s.opId else y.planned })
      else
        let (v, f) := decodeReg l y.tyField y.isRaw act (s1.copyOf n []) va
        s1.setStream n q (some (y.keep lo j v f))

/-- A pattern vector of MODE 1: the `LDT` read of R266. -/
def State.patternTile (s : State) (n q lo j : Nat) (y : Stream) : State :=
  match (s.strand n).bound with
  | none => s
  | some bd =>
    let w := wingOf n
    let c := coreOf n
    let w6 := (y.word 6).toNat
    let hint := bitsN w6 19 17
    match s.tileReq w bd (tagOf bd.asid (bitsN w6 31 20) (y.coords j)) (bitsN w6 63 48) hint (.stream n q) (s.pts n) with
    | (s1, .wait) => s1
    | (s1, .full) => s1
    | (s1, .hit k) =>
      let x := s1.slotOf w k
      let t := x.tens
      let cb := fmtCb t.fmt && !y.isRaw
      if cb && (s1.strand n).bankPending t.cbk then s1
      else
        let (row, part) := y.rowPart j
        let cp := if cb then ((s1.core c).bank t.cbk).current else BankCopy.reset
        let m := tyN y.tyField / expandCount t.fmt cp.mode
        let past := if y.isRaw then part != 0 else decide (t.e ≤ part * m)
        let mis : Trap := { cause := .fmtmis, eaddr := x.partVa row (part * m) }
        match firstTrap ((if past then [tileTrap xTilerange] else []) ++ (if cb && t.sck == 1 && modeInt cp.mode then [mis] else []) ++
            (if s1.pinOver c x hint then [pinTrap] else [])) with
        | some f => s1.setStream n q (some { y with fault := some (j, f) })
        | none =>
          let (v, f) := x.readPart row part y.tyField y.isRaw cp
          let s2 := s1.setPts n (wmax (s1.pts n) x.wts)
          ((s2.useCopy c w k hint false).onceRead w k (.stream n q)).setStream n q (some (y.keep lo j v f))

/-- `STREAM_PATTERN_READ`: stream `q` of strand `n` reads the next pattern vector it needs (R270). -/
def execStreamPatternRead (n q : Nat) (s : State) : Result :=
  let c := s.core (coreOf n)
  match mget? (s.strand n).streams q with
  | none => .next s
  | some y =>
    if (s.strand n).streamPending q then .next s
    else
      match y.missing c, y.needs c with
      | some j, some (lo, _) => .next (if y.isTile then s.patternTile n q lo j y else s.patternMem n q lo j y)
      | _, _ => .next s

end Sys2Proof.Machine
end

