-- ==== Sys2Proof/Machine/Progress.lean ====
section
/-! DEFINITION. How open slot-A operations go on: re-injected entries are checked again (R161, R368, R370), reads return
(R253), fixed write-back clocks (Table 11-1, R176), the write queue performs (R113, R234, R243), and the events of a
strand's fetch and trap entry (R108, R364). -/

namespace Sys2Proof.Machine

/-! ### Checks of a re-injected entry (R252, R368) -/

/-- Whether an entry writes memory through the write queue. -/
def isStoreOp (i : Instr) : Bool :=
  match i with
  | .stB .. => true | .stH .. => true | .stW .. => true | .stD .. => true
  | .vst .. => true | .vstn .. => true | .vsts .. => true | .vstg .. => true | .cbst .. => true
  | _ => false

/-- Whether an entry is a load whose value its reads give. -/
def isLoadOp (i : Instr) : Bool :=
  match i with
  | .ldB .. => true | .ldBu .. => true | .ldH .. => true | .ldHu .. => true | .ldW .. => true | .ldWu .. => true
  | .ldD .. => true | .lda .. => true | .vld .. => true | .vldn .. => true | .vlds .. => true | .vldg .. => true
  | _ => false

/-- The checks that an entry makes again when it is re-injected. -/
def planOf (i : Instr) (n : Nat) (x : AIn) (s : State) : Plan :=
  match i with
  | .amo .. => planAmo i n 0 x s
  | .cas .. => planAmo i n 0 x s
  | .sta .. => planSta i n 0 x s
  | .waitv .. => planWaitv i n 0 x s
  | .mcst .. => planMcst n 0 x s
  | .cbld .. => planCb i .load n 0 x s
  | .cbst .. => planCb i .store n 0 x s
  | .cbwr .. => planCbw i x s
  | .cbinv .. => planCbw i x s
  | .sbind .. => planSbind n 0 x s
  | .ldt .. => planTile x s
  | .stt .. => planTile x s
  | .tflush .. => planTile x s
  | .tinv .. => planTile x s
  | .spill .. => if (s.strand n).ctl.spillOver i then (({ st := s } : Plan)).fail { cause := .spovf } else { st := s }
  | .fill .. => if (s.strand n).ctl.spillOver i then (({ st := s } : Plan)).fail { cause := .spovf } else { st := s }
  | _ => if isLoadOp i then planRead i n 0 x s else if isStoreOp i then planWrite i n 0 x s else { st := s }

/-- Whether the checks alone resolve an entry. -/
def resolvedByPlan (i : Instr) : Bool :=
  isLoadOp i || (match i with
    | .amo .. => true | .cas .. => true | .spill .. => true | .fill .. => true
    | .park .. => true | .unpark .. => true | .schain .. => true | .spos .. => true | .sunbind .. => true
    | _ => false)

/-- A store of an entry goes to the write queue (R113). -/
def State.requeue (s : State) (n : Nat) (e : Entry) (rds : List Rd) : State :=
  let x := e.ain
  let (pieces, fl, va) := match e.instr with
    | .cbst b _ _ _ => (cbstPieces e.instr x ((s.core (coreOf n)).bank b.toNat).current rds, (0 : LaneFlags), cbEa e.instr x)
    | i => let w := writeBytes i x rds
           (piecesOf rds w.1, w.2, x.av)
  let (s1, ok) := s.askAll (.op n e.id) (windowsOf (pieces.map Piece.tgt))
  if ok then (s1.completeEntry n { e with fl := 0 } [] 0).queueWrite n e.id e.seq e.slot e.pc e.instr x va pieces fl e.fl else s1

/-- An access that read, all of whose reads had returned when it was captured: it has performed (R370). -/
def Entry.hasRead (e : Entry) : Bool :=
  (match e.instr with
   | .amo .. => true
   | .cas .. => true
   | .waitv .. => false
   | i => isLoadOp i) && !e.rds.isEmpty && e.rds.all (fun r => r.got.isSome)

/-- Reads planned again, with what those of them that had returned have read (R370). -/
def keepRead (old new : List Rd) : List Rd :=
  new.map (fun r => ((old.find? (fun o => o.got.isSome && o.va == r.va && o.len == r.len))).getD r)

/-- A re-injected entry goes on at its place in program order: one that had performed delivers its captured result, the others
make their checks (R370). -/
def State.recheck (s : State) (n : Nat) (e : Entry) : State :=
  if !(s.strand n).mayPerform e then s
  else if e.done then s.completeEntry n e e.recorded 0
  else
    let p := if e.hasRead then ({ st := s, rds := e.rds } : Plan) else planOf e.instr n e.ain s
    match p.verdict with
    | some t => p.st.trapEntry n e t
    | none =>
      if p.miss then p.st
      else if (bankWritten e.instr).isSome then
        p.st.modEntry n e.id (fun x => { x with rds := p.rds, slip := false, resolved := false, step := writerStalled })
      else if isStoreOp e.instr then p.st.requeue n e p.rds
      else
        -- what it captured before it holds still (R75)
        let fresh := if isLoadOp e.instr && e.caps.isEmpty then p.st.capsNow n (rdBanks (readRaw e.instr) p.rds) else []
        let caps := e.caps ++ fresh
        let s1 := p.st.modEntry n e.id (fun x => { x with
          rds := keepRead e.rds p.rds, caps := caps, slip := false, resolved := resolvedByPlan e.instr && memOnly p.rds })
        fresh.foldl (fun s c => s.captureBank (coreOf n) c.1) s1

/-! ### `LOAD_RETURN` -/

/-- A load goes on: its reads in order, then its value, no earlier than 4 clocks after issue (Table 11-1). -/
def State.loadStep (s : State) (n : Nat) (e : Entry) : State :=
  if !(s.strand n).mayPerform e then s
  else
    let acq := match e.instr with
      | .lda .. => true
      | _ => false
    let (s1, e1, ok) := s.readStep n e acq
    if !ok ∨ s1.clk < e.clk + 4 then s1
    else
      let (v, f) := readValue e1.instr e1 (s1.copyOf n e1.caps)
      s1.completeEntry n e1 v f

/-- One step of an open slot-A operation whose completion clock is not fixed. -/
def State.stepA (s : State) (n : Nat) (e : Entry) : State :=
  if e.slip then s.recheck n e
  else if (s.strand n).blockedEntry e then s
  else if isLoadOp e.instr then s.loadStep n e
  else
    match e.instr with
    | .amo .. => if (s.strand n).mayPerform e && decide (e.clk + 4 ≤ s.clk) then s.amoPerform n e else s
    | .cas .. => if (s.strand n).mayPerform e && decide (e.clk + 4 ≤ s.clk) then s.amoPerform n e else s
    | .ldt .. => s.tileStep n e
    | .stt .. => s.tileStep n e
    | .tflush .. => s.flushStep n e
    | .tinv .. => s.flushStep n e
    | .mcst .. => if (s.strand n).mayPerform e then s.mcstGo n e else s
    | .cbld b .. =>
      if e.step == writerStalled then s.writerGo n e b.toNat
      else if (s.strand n).mayPerform e && e.step == 0 then s.cbldStep n e
      else s
    | .cbwr b .. => if e.step == writerStalled then s.writerGo n e b.toNat else s
    | .cbinv b .. => if e.step == writerStalled then s.writerGo n e b.toNat else s
    | _ => s

/-- The strand that now holds open operation `id`: strand `n`, or the one that its group resumed on (R381). -/
def State.holderOf (s : State) (n id : Nat) : Option Nat :=
  if (s.entry? n id).isSome then some n
  else (s.strands.find? (fun p => p.2.open_.any (fun e => e.id == id))).map Prod.fst

/-- The saved image of a strand that holds open operation `id` takes what returned: data for its first read, or only the
end of the request, which it makes again once it is re-injected (R381). -/
def Strand.savedReturn (st : Strand) (id : Nat) (bs : List Byte) (refused : Bool) : Strand :=
  if st.open_.any (fun e => e.id == id) then
    { st with
      winReqs := st.winReqs.filter (fun w => w.id != id)
      open_ := if refused then st.open_ else
        st.open_.map (fun e => if e.id = id then { e with rds := fillRd e.rds (bs, false) } else e) }
  else st

/-- Data returned through the fabric for a strand's open operation, or its refusal (R244, R350). -/
def State.returnTo (s : State) (n id : Nat) (bs : List Byte) (refused : Bool) : State :=
  match s.holderOf n id with
  | none =>
    let s1 := s.endReq n id
    { s1 with saved := s1.saved.map (fun g => { g with strands := g.strands.map (fun (p : Nat × Strand) => (p.1, p.2.savedReturn id bs refused)) }) }
  | some m =>
    match s.entry? m id with
    | none => s
    | some e =>
      if refused then (s.endReq m id).trapEntry m e { cause := .peer, sub := peerRefused, slot := e.slot, eaddr := e.pendingVa }
      else s.giveData m id bs

/-- Data returned for a fill of wing `w`, or the refusal that ends it (R289, R299). -/
def State.returnToFill (s : State) (w id : Nat) (bs : List Byte) (refused : Bool) : State :=
  match (s.wing w).fills.find? (fun f => f.id == id && !f.done) with
  | none => s
  | some f =>
    if refused then
      s.failFill w f { cause := .peer, sub := peerRefused, eaddr := ((f.rds.find? (fun r => r.got.isNone)).map Rd.va).getD 0 }
    else s.modWing w (fun g => { g with fills := g.fills.map (fun h =>
      if h.id = id then { h with rds := fillRd h.rds (bs, false) } else h) })

/-- Data returned for a stream's pattern read (R266, R270). -/
def State.returnToStream (s : State) (n q : Nat) (bs : List Byte) (refused : Bool) : State :=
  match mget? (s.strand n).streams q with
  | none => s
  | some y =>
    if refused then s.setStream n q (some { y with
      rds := []
      fault := some (y.next, { cause := .peer, sub := peerRefused
                               eaddr := ((y.rds.find? (fun r => r.got.isNone)).map Rd.va).getD 0 }) })
    else s.setStream n q (some { y with rds := fillRd y.rds (bs, false) })

/-- Data returned for a codebook image that dispatch reads, or its refusal, which ends the preparation (R94). -/
def State.returnToPrep (s : State) (uid : Nat) (bs : List Byte) (refused : Bool) : State :=
  { s with placement := s.placement.map (fun (p : Nat × BindRec) =>
      if p.2.uid ≠ uid ∨ p.2.prepared then p
      else if refused then
        (p.1, { p.2 with
          prepared := true, rds := []
          fault := some { cause := .peer, sub := peerRefused
                          eaddr := ((p.2.rds.find? (fun r => r.got.isNone)).map Rd.va).getD 0 } })
      else (p.1, { p.2 with rds := fillRd p.2.rds (bs, false) })) }

/-- The request that unit `n` and number `id` name (log entry 14). -/
def unitOf (n id : Nat) : Waiter :=
  if n < 2048 then .op n id else if n < 4096 then .fill (n - 2048) id else if n < 6144 then .stream (n - 4096) id else .prep id

/-- A returned value acknowledges its own number; its packet is retained until a cumulative acknowledgement covers it (R354,
R355). -/
def PairSrc.returned (p : PairSrc) (w : Waiter) : PairSrc :=
  { p with unacked := p.unacked.map (fun k => if k.kind.returns && k.who.same w then { k with back := true } else k) }

/-- `LOAD_RETURN`: what an outstanding read waited for is there. Units 0 to 2047 are strands; 2048 and up are the fills
of a wing; 4096 and up the streams of a strand; 6144 dispatch (log entry 14). With no data, the operation goes on with what it has. -/
def execLoadReturn (n id : Nat) (win : List (BitVec 8)) (refused : Bool) (s : State) : Result :=
  if win.isEmpty && !refused then
    match s.entry? n id with
    | some e => .next (s.stepA n e)
    | none => .next s
  else
    let w := unitOf n id
    let s1 := { s with fabric := { s.fabric with
      src := s.fabric.src.map (fun (p : Nat × PairSrc) => (p.1, p.2.returned w))
      awaits := s.fabric.awaits.filter (fun x => !x.same w) } }
    if n < 2048 then .next (s1.returnTo n id win refused)
    else if n < 4096 then .next (s1.returnToFill (n - 2048) id win refused)
    else if n < 6144 then .next (s1.returnToStream (n - 4096) id win refused)
    else .next (s1.returnToPrep id win refused)

/-! ### `WRITE_BACK` -/

/-- `WRITE_BACK`: a flight whose clock has come delivers, once no earlier write of the same plain register is in flight;
an operation of Table 11-1 with a fixed clock, or one of the spill bank, park area or a stream, takes effect. -/
def execWriteBack (n id : Nat) (s : State) : Result :=
  let st := s.strand n
  match st.flights.find? (fun f => f.id == id) with
  | some f =>
    if s.clk < f.due ∨ f.wbs.any (fun w => st.blockedWB f.seq f.slot w) then .next s else .next (s.completeFlight n f)
  | none =>
    match s.entry? n id with
    | none => .next s
    | some e =>
      if e.slip then .next (s.recheck n e)
      else if st.blockedEntry e then .next s
      else
        match e.instr with
        | .spill .. => .next (s.spillPerform n e)
        | .fill .. => .next (s.spillPerform n e)
        | .park .. => .next (s.parkPerform n e)
        | .unpark .. => .next (s.parkPerform n e)
        | .sbind .. => .next (s.sbindStep n e)
        | .schain .. => .next (s.streamStep n e)
        | .spos .. => .next (s.streamStep n e)
        | .sunbind .. => .next (s.streamStep n e)
        | _ => .next s

/-! ### `WRITE_QUEUE_PERFORM` -/

/-- Strand `n` keeps a posted packet of write `id` in mind until it is acknowledged. -/
def State.notePosted (s : State) (n id : Nat) (va : W64) (dst seqno : Nat) (window : Option Nat) (mcst : Bool) : State :=
  s.modStrand n (fun st => { st with posted := st.posted ++
    [{ id := id, va := va, dst := dst, seqno := seqno, window := window, mcst := mcst, acked := false, refused := false }] })

/-- Post one store for write `id` of strand `n` (R243). -/
def State.post (s : State) (n id : Nat) (va : W64) (dst : Nat) (kind : PktKind) (pa : Nat) (bytes : List (Nat × Byte))
    (window : Option Nat) : State :=
  let (s1, k) := (s.loseRstOf n).request dst (s.partOf n) kind pa bytes (.op n id) window va
  s1.notePosted n id va dst k window false

/-- A posted store into window `w` may leave for `dst`: the pair has room, and the window's allowance is not used up
(R352, R353). -/
def State.mayPost (s : State) (w dst : Nat) : Bool := s.fabric.roomFor dst && decide (s.winSent w < s.winLimitOf w)

/-- Pieces of a queued write, in order: memory at once, a window's as a posted store while there is room. `acc` holds the
bytes of an access whose later pieces are still to come: they are stored at one stamp (R226). What is left is answered. -/
def State.performPieces (s : State) (n id : Nat) : List Piece → List (Nat × Byte) → State × List Piece
  | [], acc => (s.storeBy n acc, [])
  | p :: r, acc =>
    match p.tgt with
    | .mem pa =>
      let bs := p.bytes.map (fun b => (pa + b.1, b.2))
      if p.join then s.performPieces n id r (acc ++ bs) else (s.storeBy n acc).performPieces n id r bs
    | .window w dst pa =>
      let s1 := s.storeBy n acc
      if s1.mayPost w dst then (s1.post n id p.va dst .store pa p.bytes (some w)).performPieces n id r []
      else (s1, p :: r)

/-- The multicast of a queued write takes a number in the pair of each peer and is retained for each; one packet leaves for the
first, to be forwarded to the others in list order. A peer whose number is held gets its copy when the hold ends (R278, R356,
R357). While some pair has no room nothing happens, and the peers are answered. -/
def State.performPeers (s : State) (n : Nat) (q : QWrite) (pa : Nat) (peers : List Nat) : State × List Nat :=
  let data := atOffsets 0 (leBytes 256 (q.z.headD VV.zero).v.toNat)
  if !s.fabric.roomForAll peers then (s, peers)
  else
    let (s1, nums) := peers.foldl (fun (a : State × List (Nat × Nat)) l =>
      let (s1, k) := a.1.number l (s.partOf n) (.mcst []) pa data (.op n q.id) none q.va
      (s1.notePosted n q.id q.va l k none true, a.2 ++ [(l, k)])) (if peers.isEmpty then s else s.loseRstOf n, [])
    match nums.filter (fun p => !idHold (s.fabric.entry p.1)) with
    | [] => (s1, [])
    | p :: r => (s1.emit p.1 p.2 (s.partOf n) (.mcst r) pa data (.op n q.id), [])

/-- Physical address that a multicast writes at its peers. -/
def QWrite.mcstPa (q : QWrite) : Nat :=
  match q.pieces.getLast? with
  | some ⟨_, .mem pa, _, _⟩ => pa
  | _ => 0

/-- `WRITE_QUEUE_PERFORM`: the oldest queued write of strand `n` performs, once slots B and C of every earlier bundle have
issued and every earlier access has performed (R113, R227). -/
def execWriteQueuePerform (n : Nat) (s : State) : Result :=
  let st := s.strand n
  match st.wq with
  | [] => .next s
  | q :: rest =>
    if st.slipped q.seq || st.open_.any (fun e => ordLt e.seq e.slot q.seq q.slot) then .next s
    else
      let (s1, l) := s.performPieces n q.id q.pieces []
      let (s2, ps) := if l.isEmpty then s1.performPeers n q q.mcstPa q.peers else (s1, q.peers)
      if l.isEmpty ∧ ps.isEmpty then
        .next ((s2.modStrand n (fun x => { x with wq := rest })).orFlags n (q.fl ||| q.sfl))
      else
        let l' := if l.isEmpty then [⟨q.va, .mem q.mcstPa, [], false⟩] else l
        .next (s2.modStrand n (fun x => { x with wq := { q with pieces := l', peers := ps } :: rest }))

/-! ### `TRAP_ENTRY`, `CODE_FETCH` -/

/-- `TRAP_ENTRY`: the trap of strand `n` that waits is taken once every earlier operation has written back (R364). -/
def execTrapEntry (n : Nat) (s : State) : Result := .next (s.tryTrap n)

/-- `CODE_FETCH`: the next bundle of strand `n` is fetched and checked (R108). -/
def execCodeFetch (n : Nat) (s : State) : Result :=
  if (s.strand n).canIssue s.clk && !(s.strand n).aHeld then .next (s.fetchTurn n) else .next s

end Sys2Proof.Machine
end

