-- ==== Sys2Proof/Machine/Sync.lean ====
section
/-! DEFINITION. Objects of the core: join bits (R155), semaphores (R331), mutexes (R332) and their clocks (R329, R330);
queue links (R157, R333 to R336). -/

namespace Sys2Proof.Machine

/-! ### Objects -/

def Sem.reset : Sem := ⟨0, [], 0⟩
def Mutex.reset : Mutex := ⟨none, [], [], 0⟩
def Core.sem (c : Core) (i : Nat) : Sem := mget c.sems i Sem.reset
def Core.setSem (c : Core) (i : Nat) (x : Sem) : Core := { c with sems := mset c.sems i x }
def Core.mux (c : Core) (i : Nat) : Mutex := mget c.muts i Mutex.reset
def Core.setMux (c : Core) (i : Nat) (x : Mutex) : Core := { c with muts := mset c.muts i x }

/-- A synchronising edge into strand `n` (R232). -/
def State.edge (s : State) (n : Nat) (p : W64) : State := s.setPts n (wmax (s.pts n) p)

/-- An update of this clock, by strand `n` (R329). -/
def State.update (s : State) (n : Nat) (u : Upd) : State :=
  s.modCore (coreOf n) (fun c => { c with upds := c.upds ++ [(posInCore n, u)] })

/-- The strand's earlier accesses have not all performed: `MXUNLK` stalls (R330). -/
def State.updateHeld (s : State) : Bool := !s.me.performedBefore s.ctxOf.seq 2

/-! ### Join bits (R155) -/

/-- `JSET` takes effect once every earlier access of the strand has performed (R155). -/
def jsetGo (e : Entry) (s : State) : State :=
  match e.instr with
  | .jset m =>
    if (s.strand s.cur).performedBefore e.seq e.slot then (s.update s.cur (.jset m (s.pts s.cur))).finishC s.cur e [] else s
  | _ => s

def execJset (m : BitVec 16) (s : State) : Result := s.runWaitC (.jset m) noAddr noTrap jsetGo

def execJclr (m : BitVec 16) (s : State) : Result := s.runC (.jclr m) (fun _ t => t.update t.cur (.jclr m))

/-- The wait of `JWAIT` is over. -/
def joinHolds (j m : BitVec 16) (any : Bool) : Bool := m == 0 || (if any then j &&& m != 0 else j &&& m == m)

/-- Greatest pts of the updates of the join bits that a mask names. -/
def Core.joinEdge (c : Core) (m : BitVec 16) : W64 :=
  ((List.range 16).filter (fun b => m.getLsbD b)).foldl (fun p b => wmax p (mget c.joinPts b 0)) 0

/-- `JWAIT` decides by the bits as earlier clocks left them; its end is an edge from every update of the bits it names
(R330). -/
def jwaitGo (e : Entry) (s : State) : State :=
  let c := s.core (coreOf s.cur)
  match e.instr with
  | .jwait y m => if joinHolds c.join m y then (s.edge s.cur (c.joinEdge m)).finishC s.cur e [] else s
  | _ => s

def execJwait (y : Bool) (m : BitVec 16) (s : State) : Result := s.runWaitC (.jwait y m) noAddr noTrap jwaitGo

/-- `JOIN_WAIT_SATISFY`: the waiting `JWAIT` of strand `n` completes, if its bits satisfy it. -/
def execJoinWaitSatisfy (n : Nat) (s : State) : Result :=
  match s.openC n (fun i => match i with
    | .jwait .. => true
    | _ => false) with
  | none => .next s
  | some e => .next (jwaitGo e { s with cur := n })

/-! ### Semaphores (R331) -/

/-- `SEMWAIT` arrives at the tail of its wait list; `SEMAPHORE_GRANT` ends the wait. -/
def semwaitGo (e : Entry) (s : State) : State :=
  let n := s.cur
  match e.instr with
  | .semwait _ sv k =>
    if e.step ≠ 0 then s
    else
      (s.modCore (coreOf n) (fun c => c.setSem sv.toNat { c.sem sv.toNat with
        waits := (c.sem sv.toNat).waits ++ [(n, e.id, k.toNat)] })).modEntry n e.id (fun x => { x with step := 1 })
  | _ => s

def execSemwait (d : BitVec 6) (sv : BitVec 4) (k : BitVec 12) (s : State) : Result :=
  s.runWaitC (.semwait d sv k) noAddr noTrap semwaitGo

/-- Grants from the head of a wait list while the count suffices. -/
def State.semGrants (s : State) (core sem : Nat) : List (Nat × Nat × Nat) → State
  | [] => s
  | (n, id, k) :: r =>
    let x := (s.core core).sem sem
    if x.count < k then s
    else
      let s1 := (s.modCore core (fun c => c.setSem sem { x with count := x.count - k, waits := r })).edge n x.pts
      let s2 := match s1.entry? n id with
        | some e => s1.finishC n e [.s ⟨BitVec.ofNat 64 x.count, false⟩]
        | none => s1
      s2.semGrants core sem r

/-- `SEMAPHORE_GRANT`: step 2 of R329 for one semaphore. -/
def execSemaphoreGrant (core sem : Nat) (s : State) : Result :=
  .next (s.semGrants core sem ((s.core core).sem sem).waits)

/-- `SEMPOST` adds at the end of its clock, where it completes; D is the count as the last clock left it. -/
def sempostGo (e : Entry) (s : State) : State :=
  let n := s.cur
  match e.instr with
  | .sempost _ sv k =>
    if e.step ≠ 0 ∨ !(s.strand n).performedBefore e.seq e.slot then s
    else
      (s.modEntry n e.id (fun x => { x with
        step := 1, aux := BitVec.ofNat 64 ((s.core (coreOf n)).sem sv.toNat).count })).update n
        (.post sv.toNat k.toNat (s.pts n))
  | _ => s

def execSempost (d : BitVec 6) (sv : BitVec 4) (k : BitVec 12) (s : State) : Result :=
  s.runWaitC (.sempost d sv k) noAddr noTrap sempostGo

/-! ### Mutexes (R332) -/

/-- `MXLOCK` of a held mutex completes at once with 1; otherwise it joins the wait list. -/
def mxlockGo (e : Entry) (s : State) : State :=
  let n := s.cur
  match e.instr with
  | .mxlock _ m =>
    let x := (s.core (coreOf n)).mux m.toNat
    if e.step ≠ 0 then s
    else if x.holder = some (posInCore n) then s.finishC n e [.s ⟨1, false⟩]
    else
      (s.modCore (coreOf n) (fun c => c.setMux m.toNat { x with waits := x.waits ++ [(n, e.id)] })).modEntry n e.id
        (fun y => { y with step := 1 })
  | _ => s

def execMxlock (d : BitVec 6) (m : BitVec 4) (s : State) : Result := s.runWaitC (.mxlock d m) noAddr noTrap mxlockGo

/-- `MXTRY` is decided with the grants of its clock; it never waits beyond it. -/
def mxtryGo (e : Entry) (s : State) : State :=
  let n := s.cur
  match e.instr with
  | .mxtry _ m =>
    let x := (s.core (coreOf n)).mux m.toNat
    if e.step ≠ 0 then s
    else if x.holder = some (posInCore n) then s.finishC n e [.s ⟨1, false⟩]
    else
      (s.modCore (coreOf n) (fun c => c.setMux m.toNat { x with tries := x.tries ++ [(n, e.id)] })).modEntry n e.id
        (fun y => { y with step := 1 })
  | _ => s

def execMxtry (d : BitVec 6) (m : BitVec 4) (s : State) : Result := s.runWaitC (.mxtry d m) noAddr noTrap mxtryGo

/-- An entry of strand `n` that ended its wait writes a status. -/
def State.finishId (s : State) (n id : Nat) (v : W64) : State :=
  match s.entry? n id with
  | some e => s.finishC n e [.s ⟨v, false⟩]
  | none => s

/-- `MUTEX_GRANT`: a free mutex passes to the head of its wait list, else to the lowest `MXTRY`; other tries fail. -/
def execMutexGrant (core mx : Nat) (s : State) : Result :=
  let x := (s.core core).mux mx
  let set (y : Mutex) : State := s.modCore core (fun c => c.setMux mx { y with tries := [] })
  let failAll (s : State) (l : List (Nat × Nat)) : State := l.foldl (fun s t => s.finishId t.1 t.2 2) s
  if x.holder.isSome then .next (failAll (set x) x.tries)
  else
    match x.waits, x.tries with
    | (n, id) :: r, ts =>
      .next (failAll (((set { x with holder := some (posInCore n), waits := r }).edge n x.pts).finishId n id 0) ts)
    | [], (n, id) :: ts =>
      .next (failAll (((set { x with holder := some (posInCore n) }).edge n x.pts).finishId n id 0) ts)
    | [], [] => .next s

/-- `MXUNLK`: the mutex is free from the next clock; 1 when the strand does not hold it. Its trap is found before it waits (R131,
R330). -/
def execMxunlk (d : BitVec 6) (m : BitVec 4) (s : State) : Result :=
  if s.updateHeld then
    match checkInstr s s.cur 2 (.mxunlk d m) with
    | .trap t => .next (s.raise s.cur t)
    | _ => .next (s.stall s.cur)
  else s.runC (.mxunlk d m) (fun _ t =>
    let n := t.cur
    if ((t.core (coreOf n)).mux m.toNat).holder = some (posInCore n) then
      (t.update n (.unlock m.toNat (posInCore n) (t.pts n))).putC n (.mxunlk d m) [.s ⟨0, false⟩] 0
    else t.putC n (.mxunlk d m) [.s ⟨1, false⟩] 0)

/-! ### The updates of a clock (R329 step 3) -/

/-- Apply one update of a core. -/
def State.applyUpd (s : State) (core : Nat) (u : Nat × Upd) : State :=
  let c := s.core core
  let n := 4 * core + u.1
  match u.2 with
  | .jset m p => s.setCore core { c with
      join := c.join ||| m
      joinPts := ((List.range 16).filter (fun b => m.getLsbD b)).foldl (fun x b => mset x b (wmax (mget x b 0) p)) c.joinPts }
  | .jclr m => s.setCore core { c with join := c.join &&& ~~~m }
  | .unlock m p q =>
    let x := c.mux m
    if x.holder = some p then s.setCore core (c.setMux m { x with holder := none, pts := wmax x.pts q }) else s
  | .post sem k p =>
    let x := c.sem sem
    let isPost (i : Instr) : Bool := match i with
      | .sempost .. => true
      | _ => false
    let full := decide (65535 < x.count + k)
    let s1 := if full then s else s.setCore core (c.setSem sem { x with count := x.count + k, pts := wmax x.pts p })
    match s1.openC n isPost with
    | some e => s1.finishC n e [.s ⟨if full then ~~~0#64 else e.aux, false⟩]
    | none => s1

/-- Updates in ascending strand position. -/
def updsInOrder (l : List (Nat × Upd)) : List (Nat × Upd) :=
  (List.range 4).flatMap (fun p => l.filter (fun u => u.1 == p))

/-- The end of a clock in one core. -/
def State.closeCore (s : State) (core : Nat) : State :=
  let us := updsInOrder (s.core core).upds
  us.foldl (fun s u => s.applyUpd core u) (s.modCore core (fun c => { c with upds := [] }))

/-! ### Queue links -/

/-- Two strands belong to one group on one die. -/
def State.sameGroup (s : State) (n m : Nat) : Bool :=
  dieOf n == dieOf m && (match (s.strand n).bound, (s.strand m).bound with
    | some a, some b => a.lid == b.lid && a.grp == b.grp
    | _, _ => false)

/-- The status of `QLINK` (Table 7-7). -/
def State.qlinkStatus (s : State) (n r : Nat) (d : W64) : Nat :=
  let peer := 256 * dieOf n + d.toNat % 256
  let reg := d.toNat / 256 % 32
  if peer = n ∨ !s.sameGroup n peer then 1
  else if d.toNat / 2 ^ 13 ≠ 0 ∨ 24 ≤ reg then 2
  else if (mget? (s.strand n).links r).isSome then 3
  else if s.linkTarget peer reg then 4
  else 0

def execQlink (d a : BitVec 6) (p : Bool) (r : BitVec 5) (s : State) : Result :=
  s.runC (.qlink d a p r) (fun x t =>
    let n := t.cur
    let v := t.qlinkStatus n r.toNat x.av
    let t1 := if v = 0 then t.modStrand n (fun st => { st with
        links := mset st.links r.toNat ⟨256 * dieOf n + x.av.toNat % 256, x.av.toNat / 256 % 32, false⟩ })
      else t
    t1.putC n (.qlink d a p r) [.s ⟨BitVec.ofNat 64 v, false⟩] 0)

/-- Operations of strand `st` that push through its link of register `r` and have not committed. -/
def Strand.linkIds (st : Strand) (r : Nat) : List Nat :=
  (st.flights.filter (fun f => f.wbs.any (fun w => match w with
    | .lk q _ _ _ => q == r
    | _ => false))).map Flight.id ++
  (st.open_.filter (fun e => e.dests.any (fun d => match d with
    | .lk q _ _ => q == r
    | _ => false))).map Entry.id ++
  (st.linkPend.filter (fun p => p.reg == r)).map LinkPush.id

/-- `QUNLINK` waits for the pushes already made, then unbinds; a broken link unbinds at once (R336). -/
def qunlinkGo (r : Nat) (e : Entry) (s : State) : State :=
  let n := s.cur
  match mget? (s.strand n).links r with
  | none => s.finishC n e []
  | some l =>
    if l.broken ∨ ((s.strand n).linkIds r).isEmpty then
      (s.modStrand n (fun st => { st with links := mdel st.links r })).finishC n e []
    else s

def execQunlink (r : BitVec 5) (s : State) : Result :=
  s.runWaitC (.qunlink r) noAddr noTrap (qunlinkGo r.toNat)

/-- Count + Pending of the queue that local register `r` pushes into. -/
def State.qdepthOf (s : State) (n r : Nat) : W64 :=
  match mget? (s.strand n).links r with
  | none => BitVec.ofNat 64 ((s.strand n).regs.vQ r).length
  | some l => if l.broken then ~~~0#64 else BitVec.ofNat 64 ((s.strand l.peer).regs.vQ l.reg).length

def execQdepth (d : BitVec 6) (r : BitVec 5) (s : State) : Result :=
  s.runC (.qdepth d r) (fun _ t => t.putC t.cur (.qdepth d r) [.s ⟨t.qdepthOf t.cur r.toNat, false⟩] 0)

/-- Whether a queue holds a reservation. -/
def qAnyHole {α : Type} (q : List (QCell α)) : Bool := q.any (fun c => match c with
  | .hole _ => true
  | _ => false)

/-- `QFLUSH` waits until the queue has no reservation, then empties it. -/
def qflushGo (r : Nat) (v : Bool) (e : Entry) (s : State) : State :=
  let n := s.cur
  let g := (s.strand n).regs
  if v then
    (if qAnyHole (g.vQ r) then s else (s.modRegs n (fun g => g.setVQ r [])).finishC n e [])
  else
    (if qAnyHole (g.sQ r) then s else (s.modRegs n (fun g => g.setSQ r [])).finishC n e [])

def execQflush (r : BitVec 5) (v : Bool) (s : State) : Result :=
  s.runWaitC (.qflush r v) noAddr noTrap (qflushGo r.toNat v)

/-- The first reservation of a queue made by one of the operations `ids`. -/
def firstHoleOf {α : Type} (q : List (QCell α)) (ids : List Nat) : Option Nat :=
  q.findSome? (fun c => match c with
    | .hole i => if ids.contains i then some i else none
    | _ => none)

/-- `LINK_COMMIT`: the oldest push through the link of register `r` of strand `n` reaches the peer's queue, 2 clocks after
its write-back, once no earlier slot of the sender can trap and every earlier access has performed (R333, R364). The pop that
takes it is an edge (R334). -/
def execLinkCommit (n r : Nat) (s : State) : Result :=
  let st := s.strand n
  let ids := st.linkIds r
  match st.linkPend.filter (fun p => p.reg == r) with
  | [] => .next s
  | p0 :: ps =>
    match firstHoleOf ((s.strand p0.peer).regs.vQ p0.peerReg) ids with
    | none => .next s
    | some id =>
      match (p0 :: ps).find? (fun p => p.id == id) with
      | none => .next s
      | some p =>
        -- a strand that has stopped issuing has slipped past nothing that could still trap
        if s.clk < p.due ∨ !st.performedBefore p.seq 1 ∨ (st.slipped p.seq ∧ !st.front.stopped) then .next s
        else
          let s1 := s.modStrand n (fun x => { x with linkPend := x.linkPend.filter (fun q => q.id != id) })
          .next (s1.modRegs p.peer (fun g =>
            g.setVQ p.peerReg (qPut (g.vQ p.peerReg) id (.linked p.val (wmax p.pts (s.pts n))))))

/-- After each clock: links into a halted strand are broken; links of a halted strand unbind once their pushes have
committed (R336). -/
def State.closeLinks (s : State) (n : Nat) : State :=
  s.modStrand n (fun st => { st with
    links := (st.links.filter (fun l => !(st.halted && (st.linkIds l.1).isEmpty))).map (fun l =>
      (l.1, { l.2 with broken := l.2.broken || (s.strand l.2.peer).halted })) })

end Sys2Proof.Machine
end

