-- ==== Sys2Proof/Machine/Launch.lean ====
section
/-! DEFINITION. `LAUNCH` (R84, R156): the protocol by which a strand publishes a launch record, one memory access of it
at a time. -/

namespace Sys2Proof.Machine

/-- One SEQ read of a waiting slot-C operation: the bytes with their mark once they are there. While it is under way, or
when it traps, there is no answer. -/
def State.oneRead (s : State) (n : Nat) (e : Entry) (va : W64) (len : Nat) : State × Option (List Byte × Bool) :=
  let go (s : State) (e : Entry) : State × Option (List Byte × Bool) :=
    let (s1, e1, ok) := s.readStep n e true
    if ok then (s1.modEntry n e.id (fun x => { x with rds := [] }), some (bytesAt e1.rds va len)) else (s1, none)
  if e.rds.isEmpty then
    let p := (({ st := s } : Plan)).access n e.slot .load va len
    match p.trap with
    | some t => (p.st.trapEntry n e t, none)
    | none =>
      if p.miss then (p.st, none)
      else go (p.st.modEntry n e.id (fun x => { x with rds := p.rds })) { e with rds := p.rds }
  else go s e

/-- One write of a waiting slot-C operation; true once it has performed, or is posted through a window. -/
def State.oneWrite (s : State) (n : Nat) (e : Entry) (va : W64) (bs : List Byte) : State × Bool :=
  let p := (({ st := s } : Plan)).access n e.slot .store va bs.length
  match p.trap, p.rds with
  | some t, _ => (p.st.trapEntry n e t, false)
  | none, r :: _ =>
    (match r.tgt with
     | .mem pa => (p.st.storeBy n (atOffsets pa bs), true)
     | .window w dst pa =>
       let (s1, ok) := p.st.askAllow w (.op n e.id) 1
       if ok && s1.fabric.roomFor dst then (s1.post n e.id va dst .store pa (atOffsets 0 bs) (some w), true)
       else (s1, false))
  | none, [] => (p.st, false)

/-- The atomic addition of 1 that claims a slot: the old count once it is there (R156). -/
def State.claimSlot (s : State) (n : Nat) (e : Entry) (va : W64) : State × Option (W64 × Bool) :=
  match e.rds with
  | r :: _ =>
    (match r.got with
     | some (bs, m) => (s.modEntry n e.id (fun x => { x with rds := [] }), some (BitVec.ofNat 64 (leNat bs), m))
     | none =>
       match r.tgt with
       | .window _ dst pa =>
         (if (s.strand n).requested e.id then s else s.sendReq n e.id dst (.atomic 0) pa (atOffsets 0 (leBytes 8 1)), none)
       | .mem _ => (s, none))
  | [] =>
    let p := (({ st := s } : Plan)).access n e.slot .store va 8
    match p.trap, p.rds with
    | some t, _ => (p.st.trapEntry n e t, none)
    | none, [] => (p.st, none)
    | none, r :: _ =>
      match r.tgt with
      | .window _ _ _ => (p.st.modEntry n e.id (fun x => { x with rds := p.rds }), none)
      | .mem pa =>
        if p.st.marked (pa / 256) then (p.st.trapEntry n e { cause := .memue, eaddr := va }, none)
        else
          let s0 := match (p.st.strand n).bound with
            | none => p.st
            | some b => p.st.logLine b.lid (dieOf n) (pa / 256)
          let (s1, ts, old, dmg, _) := s0.atomicAt (s0.pts n) 0 pa 8 1 0
          (s1.setPts n ts, some (old, dmg))

/-- MEMUE of a slot-C read of a damaged line (R373). -/
def memueAt (va : W64) : Trap := { cause := .memue, slot := 2, eaddr := va }

/-- One clock of `LAUNCH`, by the step it has reached: 0 the record, 1 the header, 2 the claim, 3 the wait for room,
4 the slot, 5 the wait for its turn, 6 the publication. `z` keeps the record and LOGSZ, `aux` the claimed n. -/
def launchGo (e : Entry) (s : State) : State :=
  let n := s.cur
  let rec_ := e.xv &&& ~~~63#64
  let q := e.yv &&& ~~~63#64
  let adv (s : State) (k : Nat) : State := s.modEntry n e.id (fun x => { x with step := k })
  let lg := ((e.z.drop 1).headD VV.zero).v.toNat
  if !(s.strand n).performedBefore e.seq e.slot then s
  else
    match e.step with
    | 0 => (match s.oneRead n e rec_ 64 with
      | (s1, none) => s1
      | (s1, some (bs, m)) =>
        if m then s1.trapEntry n e (memueAt rec_)
        else (adv s1 1).modEntry n e.id (fun x => { x with z := [⟨BitVec.ofNat 2048 (leNat bs), 0⟩] }))
    | 1 => (match s.oneRead n e (q + 24) 8 with
      | (s1, none) => s1
      | (s1, some (bs, m)) =>
        let l := leNat bs % 32
        if m then s1.trapEntry n e (memueAt (q + 24))
        else if 16 < l then s1.finishC n e [.s ⟨~~~0#64, false⟩]
        else (adv s1 2).modEntry n e.id (fun x => { x with z := x.z.take 1 ++ [⟨BitVec.ofNat 2048 l, 0⟩] }))
    | 2 => (match s.claimSlot n e q with
      | (s1, none) => s1
      | (s1, some (old, _)) => (adv s1 3).modEntry n e.id (fun x => { x with aux := old }))
    | 3 => (match s.oneRead n e (q + 16) 8 with
      | (s1, none) => s1
      | (s1, some (bs, m)) =>
        if m then s1.trapEntry n e (memueAt (q + 16))
        -- n − HEAD is an integer: with HEAD above n there is room (R9, R156)
        else if leNat bs + 2 ^ lg ≤ e.aux.toNat then s1
        else adv s1 4)
    | 4 => (match s.oneWrite n e (q + 64 + BitVec.ofNat 64 (64 * (e.aux.toNat % 2 ^ lg)))
          (leBytes 64 ((e.z.headD VV.zero).v.toNat)) with
      | (s1, ok) => if ok then adv s1 5 else s1)
    | 5 => (match s.oneRead n e (q + 8) 8 with
      | (s1, none) => s1
      | (s1, some (bs, m)) =>
        if m then s1.trapEntry n e (memueAt (q + 8))
        else if BitVec.ofNat 64 (leNat bs) ≠ e.aux then s1
        else adv s1 6)
    | _ =>
      -- the release store waits for the posted write of the record, if it was posted (R273)
      if (s.strand n).posted.any (fun p => decide (p.id ≤ e.id) && !p.acked && !p.refused) then s
      else
        match s.oneWrite n e (q + 8) (leBytes 8 ((e.aux + 1).toNat)) with
        | (s1, ok) => if ok then s1.finishC n e [.s ⟨e.aux, false⟩] else s1

/-- `LAUNCH` (R156). -/
def execLaunch (d a b : BitVec 6) (p q : Bool) (s : State) : Result :=
  s.runWaitC (.launch d a b p q) (fun x k => (if k = 0 then x.av else x.bv) &&& ~~~63#64) noTrap launchGo

end Sys2Proof.Machine
end

