-- ==== Sys2Proof/Machine/Tasks.lean ====
section
/-! DEFINITION. Tile tasks: records and their field rules (R307, R310), read and write sets (R315), `TENQ`, `TWAIT`, `TSTAT`, `TCANCEL` (R309 to R314), the docent (R316, R317), completion and faults (R308, R313),
and queues that detach (R304). -/

namespace Sys2Proof.Machine

/-! ### Records (Tables 13-3, 13-4, 13-9) -/

def recW (r : List W64) (i : Nat) : Nat := ((r.drop i).headD 0).toNat

/-- Task kinds (Table 6-11): 1 MMA, 2 MMAS, 3 WPRE, 4 WSWP, 5 DRAIN, 6 ACLR, 7 TCPY, 8 TSET, 9 TXPS, 10 TRED, 11 ITIN,
12 TWB, 13 KVQ, 14 CRS, 15 CAG, 16 CBAR. -/
def recKind (r : List W64) : Nat := bitsN (recW r 0) 63 56
def recTc (r : List W64) : Nat := bitsN (recW r 0) 55 53
def recK (r : List W64) (hi lo : Nat) : Nat := bitsN (recW r 0) hi lo
def recEng (r : List W64) : Nat := recK r 47 43
def recAr (r : List W64) : Nat := recK r 42 41

/-- A tile operand: its two words. -/
abbrev Opnd := W64 × W64
def opnd (r : List W64) (i : Nat) : Opnd := ((r.drop (2 + 2 * i)).headD 0, (r.drop (3 + 2 * i)).headD 0)
def Opnd.tid (o : Opnd) : Nat := bitsN o.2.toNat 63 52
def Opnd.hint (o : Opnd) : Nat := bitsN o.2.toNat 51 49
def Opnd.minv (o : Opnd) : Nat := bitsN o.2.toNat 47 32
/-- Tiles along c1 and along c0. -/
def Opnd.n1 (o : Opnd) : Nat := bitsN o.2.toNat 31 24 + 1
def Opnd.n0 (o : Opnd) : Nat := bitsN o.2.toNat 23 16 + 1
def Opnd.tiles (o : Opnd) : Nat := o.n0 * o.n1
def Opnd.reservedOk (o : Opnd) : Bool := !bitN o.2.toNat 48 && bitsN o.2.toNat 15 0 == 0
def Opnd.isZero (o : Opnd) : Bool := o.1 == 0 && o.2 == 0
def Opnd.oneTile (o : Opnd) : Bool := o.n0 == 1 && o.n1 == 1
def Opnd.sameShape (o p : Opnd) : Bool := o.n0 == p.n0 && o.n1 == p.n1

/-- Tag of tile (c1 + i, c0 + j) of an operand. -/
def Opnd.tag (o : Opnd) (asid i j : Nat) : Tag :=
  let c := o.1.toNat
  ⟨asid, o.tid, bitsN c 63 48, bitsN c 47 32, bitsN c 31 16 + i, bitsN c 15 0 + j⟩
/-- A coordinate of the rectangle passes 65,535 (R307); `wide` tiles along c0. -/
def Opnd.passes (o : Opnd) (wide : Nat) : Bool :=
  decide (65536 < bitsN o.1.toNat 31 16 + o.n1) || decide (65536 < bitsN o.1.toNat 15 0 + wide)
/-- Tags of a rectangle, c0 first, then c1. -/
def Opnd.tags (o : Opnd) (asid wide : Nat) : List Tag :=
  (List.range o.n1).flatMap (fun i => (List.range wide).map (fun j => o.tag asid i j))

/-- Engines of a wing (Table 13-2). -/
def engineCount (w : Nat) : Nat := if dieIsDawn (w / 8) then 32 else 16

/-- Bits of KCTL that a kind uses. -/
def kctlMask (k : Nat) : Nat :=
  match k with
  | 1 => 0x1FFF <<< 35
  | 2 => 0x1FFF <<< 35
  | 3 => 0x7F <<< 41
  | 4 => 0x1F <<< 43
  | 5 => 0x1FFFF <<< 31
  | 6 => 0x1FF <<< 39 ||| 1 <<< 31
  | 8 => 0xFFFFFF <<< 24
  | 9 => 0xF <<< 44
  | 10 => 0xF <<< 44
  | 11 => 0xFF <<< 40
  | 14 => 0x7 <<< 45
  | _ => 0

/-- How many of X, Y, Z are tile operands of a kind. -/
def opndCount (k : Nat) : Nat :=
  match k with
  | 1 => 1 | 2 => 1 | 3 => 1 | 5 => 1 | 7 => 2 | 8 => 1 | 9 => 2 | 10 => 2 | 12 => 1 | 13 => 2 | 14 => 2 | 15 => 2
  | _ => 0

def isMatrix (k : Nat) : Bool := decide (1 ≤ k ∧ k ≤ 6)
def isTransfer (k : Nat) : Bool := decide (7 ≤ k ∧ k ≤ 10) || k == 12 || k == 13
def isCollective (k : Nat) : Bool := decide (14 ≤ k ∧ k ≤ 16)

/-- FieldsValid (R310). -/
def fieldsValid (r : List W64) (w : Nat) : Bool :=
  let k := recKind r
  let n := opndCount k
  let x := opnd r 0
  let y := opnd r 1
  let kctl := bitsN (recW r 0) 47 0
  let zero (a b : Nat) : Bool := (List.range (b - a)).all (fun i => recW r (a + i) == 0)
  let unused : Bool := match k with
    | 8 => zero 4 6 && zero 7 8
    | 11 => zero 3 8 && recW r 2 % 64 == 0
    | 16 => zero 5 8
    | _ => zero (2 + 2 * n) 8
  let shape : Bool := match k with
    | 1 => x.n0 == 1 && decide (recAr r + x.n1 ≤ 4)
    | 2 => x.n0 == 1 && decide (recAr r + x.n1 ≤ 4)
    | 3 => x.n1 == 2 && x.n0 == 1
    | 5 => x.oneTile && decide (recK r 39 37 ≤ 5) && decide (recK r 36 34 ≤ 4) &&
        !((recK r 39 37 == 1 || recK r 39 37 == 2) && recK r 40 40 == 1)
    | 6 => decide (recAr r + recK r 40 39 ≤ 3)
    | 7 => x.sameShape y
    | 9 => x.oneTile && y.oneTile
    | 10 => x.sameShape y && decide (recK r 47 45 ≤ 4)
    | 13 => x.oneTile && y.oneTile
    | 14 => x.oneTile && y.oneTile && decide (recK r 47 45 ≤ 4)
    | 15 => x.oneTile && y.oneTile
    | _ => true
  bitsN (recW r 0) 50 48 == 0 && kctl &&& kctlMask k == kctl && unused && shape &&
    (List.range n).all (fun i => (opnd r i).reservedOk) && (!isMatrix k || decide (recEng r < engineCount w))

/-- The record draws from a generator of its own (R427). -/
def recDraws (r : List W64) : Bool :=
  match recKind r with
  | 5 => recK r 36 34 == 4
  | 10 => recK r 47 45 == 4
  | 14 => recK r 47 45 == 4
  | _ => false

/-! ### Read and write sets (R315) -/

/-- A rectangle of tiles: TID, c3, c2, and the ranges [lo, lo + n) of c1 and c0. -/
structure Rect where
  tid : Nat
  c3 : Nat
  c2 : Nat
  c1 : Nat
  n1 : Nat
  c0 : Nat
  n0 : Nat

def Opnd.rect (o : Opnd) (wide : Nat) : Rect :=
  let g := o.tag 0 0 0
  ⟨g.tid, g.c3, g.c2, g.c1, o.n1, g.c0, wide⟩

def Rect.overlaps (a b : Rect) : Bool :=
  a.tid == b.tid && a.c3 == b.c3 && a.c2 == b.c2 && decide (a.c1 < b.c1 + b.n1 ∧ b.c1 < a.c1 + a.n1) &&
    decide (a.c0 < b.c0 + b.n0 ∧ b.c0 < a.c0 + a.n0)

/-- Which operands a kind reads and which it writes, by index (Table 13-9). -/
def readOpnds (r : List W64) : List Nat :=
  match recKind r with
  | 1 => [0] | 2 => [0] | 3 => [0]
  | 5 => if recK r 39 37 = 3 ∨ recK r 39 37 = 4 then [0] else []
  | 7 => [0] | 9 => [0, 1] | 10 => [0, 1] | 12 => [0] | 13 => [0] | 14 => [0] | 15 => [0]
  | _ => []
def writeOpnds (r : List W64) : List Nat :=
  match recKind r with
  | 5 => [0] | 7 => [1] | 8 => [0] | 9 => [1] | 10 => [1] | 13 => [1] | 14 => [1] | 15 => [1]
  | _ => []

/-- Tiles along c0 of an operand; `wide` is R of `KVQ`'s source (R326). -/
def opndWide (r : List W64) (wide i : Nat) : Nat := if recKind r = 13 ∧ i = 0 then wide else (opnd r i).n0

def rectsOf (r : List W64) (wide : Nat) (l : List Nat) : List Rect := l.map (fun i => (opnd r i).rect (opndWide r wide i))

/-- The descriptor of a tensor as memory holds it. -/
def State.tensorNow (s : State) (b : Bound) (w tid : Nat) : Option Tensor :=
  if b.ttcount ≤ tid then none
  else
    let l : Option (List Byte) := (splitRange 256 2 (b.ttbase + BitVec.ofNat 64 (64 * tid)) 64).foldr (fun p r =>
      match (s.xlateNow (b.space (w / 8)) w p.1 .load).2, r with
      | .ok (pa, _), some l => if paHome pa then some (s.readBytes pa p.2 ++ l) else none
      | _, _ => none) (some [])
    l.bind tensorOf

/-- R of a `KVQ`, from the row lengths of its tensors as memory holds them; 1 where a descriptor faults. -/
def State.kvqWide (s : State) (t : Task) : Nat :=
  if recKind t.rec_ ≠ 13 then 1
  else
    match s.tensorNow t.bound t.wing (opnd t.rec_ 0).tid, s.tensorNow t.bound t.wing (opnd t.rec_ 1).tid with
    | some x, some y => Nat.max 1 (y.e / x.e)
    | _, _ => 1

/-- The sequence number that WAITw names: t mod 2^32 = w and s - 2^31 ≤ t < s + 2^31 (R309). -/
def waitSeq (sq w : Nat) : Int :=
  let d : Int := ((w : Int) - (sq : Int)) % (2 ^ 32 : Nat)
  (sq : Int) + (if d < (2 ^ 31 : Nat) then d else d - (2 ^ 32 : Nat))

/-- The waits of a record whose sequence number is `sq`. -/
def recWaits (r : List W64) (sq : Nat) : List Int :=
  (if bitN (recW r 0) 52 then [waitSeq sq (recW r 1 / 2 ^ 32)] else []) ++
    (if bitN (recW r 0) 51 then [waitSeq sq (recW r 1 % 2 ^ 32)] else [])

def Task.isDone (t : Task) : Bool := decide (t.phase = .done)
def Task.kind (t : Task) : Nat := recKind t.rec_
def Task.dispatched (t : Task) : Bool := match t.phase with
  | .dispatched _ => true
  | _ => false

/-- Task `t` is ordered after the earlier task `u` of its queue (R315). -/
def State.orderedAfter (s : State) (t u : Task) : Bool :=
  let wt := s.kvqWide t
  let wu := s.kvqWide u
  let tr := rectsOf t.rec_ wt (readOpnds t.rec_)
  let tw := rectsOf t.rec_ wt (writeOpnds t.rec_)
  let ur := rectsOf u.rec_ wu (readOpnds u.rec_)
  let uw := rectsOf u.rec_ wu (writeOpnds u.rec_)
  let hit (a b : List Rect) : Bool := a.any (fun x => b.any (fun y => x.overlaps y))
  hit uw (tr ++ tw) || hit ur tw || (isMatrix t.kind && isMatrix u.kind && recEng t.rec_ == recEng u.rec_) ||
    t.kind == 16 || u.kind == 16 || (recWaits t.rec_ t.seqno).any (fun x => x == (u.seqno : Int))

/-! ### Queues and tasks -/

def State.tqueue? (s : State) (qpa : Nat) : Option TaskQueue := s.tqueues.find? (fun q => q.qpa == qpa)
def State.modTq (s : State) (qpa : Nat) (f : TaskQueue → TaskQueue) : State :=
  { s with tqueues := s.tqueues.map (fun q => if q.qpa = qpa then f q else q) }
def State.task? (s : State) (uid : Nat) : Option Task := s.tasks.find? (fun t => t.uid == uid)
def State.modTask (s : State) (uid : Nat) (f : Task → Task) : State :=
  { s with tasks := s.tasks.map (fun t => if t.uid = uid then f t else t) }

def Tc.reset : Tc := ⟨0, 0, 0, 0, 0⟩

/-- Change completion counter `c` of the strand that enqueued a task, where the strand now is: bound, or saved (R378). -/
def State.modTc (s : State) (t : Task) (f : Tc → Tc) : State :=
  let c := recTc t.rec_
  let upd (st : Strand) : Strand := { st with tcs := mset st.tcs c (f (mget st.tcs c Tc.reset)) }
  if s.saved.any (fun g => g.lid == t.bound.lid && g.grp == t.bound.grp) then
    { s with saved := s.saved.map (fun g =>
        if g.lid = t.bound.lid ∧ g.grp = t.bound.grp then
          (match mget? g.strands t.bound.pos with
           | none => g
           | some st => { g with strands := mset g.strands t.bound.pos (upd st) })
        else g) }
  else if (s.strand t.strand).bound.any (fun b => b.lid == t.bound.lid && b.grp == t.bound.grp) then s.modStrand t.strand upd
  else s

/-- The fault word of a counter (Table 13-7). -/
def faultWord (disc : Bool) (t : Trap) (seqno : Nat) : W64 :=
  BitVec.ofNat 64 (2 ^ 63 + (if disc then 2 ^ 62 else 0) + t.causeCode % 256 * 2 ^ 48 + t.sub % 256 * 2 ^ 40 + seqno % 2 ^ 40)

/-- The fault address of a trap: 0 for NOTENSOR and TILERANGE, which have none (R312). -/
def Trap.faultAddr (t : Trap) : W64 :=
  if t.cause = .xlate ∧ (t.sub = xNotensor ∨ t.sub = xTilerange) then 0 else t.eaddr

/-- A fault reaches a counter: the first one is kept (R312). -/
def Tc.record (c : Tc) (disc : Bool) (t : Trap) (seqno : Nat) : Tc :=
  if bitN c.fault.toNat 63 then c else { c with fault := faultWord disc t seqno, addr := t.faultAddr }

/-- Release what a task holds: its replay entry and its bank captures (R75, R290). -/
def State.releaseTask (s : State) (t : Task) : State :=
  (t.caps.filter (fun c => decide (c.1 < 512))).foldl (fun s c => s.releaseBanks c.1 [(c.2.1, c.2.2)]) (s.unpark t.wing (.task t.uid))

/-- The slots that the docent keeps for tiles that a task writes in full are free again (R317). -/
def State.dropKept (s : State) (t : Task) : State :=
  s.modWing t.wing (fun g =>
    let mine (f : Fill) : Bool := f.zero && f.waiters.head? == some (.task t.uid)
    { g with
      slots := (g.fills.filter mine).foldl (fun m f => mdel m (16 * f.set + f.way)) g.slots
      fills := g.fills.filter (fun f => !mine f) })

/-- A task is over: phase done, its counter incremented; the queue's later tasks and the launch's completion record come after
its accesses (R241, R308, R313, R314, R392). -/
def State.endTask (s : State) (t : Task) (f : Tc → Tc) : State :=
  ((((((s.releaseTask t).dropKept t).modTc t (fun c => let c' := f c
                                         { c' with count := c'.count + 1, pts := wmax c'.pts t.fork }))).modTask t.uid
    (fun x => { x with phase := .done, caps := [], out := [], tiles := [], ops := [] })).modTq t.qpa (fun q => { q with pts := wmax q.pts t.fork })).modLaunch
    t.bound.lid (fun l => { l with taskPts := wmax l.taskPts t.fork })

/-- Discard a task of a stopped queue (R313). -/
def State.discardTask (s : State) (t : Task) (f : Trap) : State := s.endTask t (fun c => c.record true f t.seqno)

/-- RET passes every leading task that is over, and those leave the docent (R305). -/
def State.advanceRet (s : State) (qpa : Nat) : Nat → State
  | 0 => s
  | f + 1 =>
    match s.tqueue? qpa with
    | none => s
    | some q =>
      if s.tasks.any (fun t => t.qpa == qpa && t.seqno == q.ret.toNat && t.isDone) then
        State.advanceRet { (s.modTq qpa (fun x => { x with ret := x.ret + 1 })) with
          tasks := s.tasks.filter (fun t => !(t.qpa == qpa && t.seqno == q.ret.toNat)) } qpa f
      else s

/-- Stop a queue: its tasks not yet dispatched are discarded (R313). -/
def State.stopQueue (s : State) (qpa : Nat) (f : Trap) : State :=
  let l := s.tasks.filter (fun t => t.qpa == qpa && (decide (t.phase = .queued) || decide (t.phase = .parked)))
  l.foldl (fun s t => s.discardTask t f) (s.modTq qpa (fun q => { q with stop := true, stopTrap := some f }))

/-- A task faults: a `WPRE` leaves its shadow buffer EMPTY, the counter records the fault, the queue stops, and its tasks not
yet dispatched are discarded (R313, R320). -/
def State.faultTask (s : State) (uid : Nat) (f : Trap) : State :=
  match s.task? uid with
  | none => s
  | some t =>
    let s1 := if t.kind ≠ 3 then s
      else s.modWing t.wing (fun g =>
        let e := mget g.engines (recEng t.rec_) Engine.reset
        { g with engines := mset g.engines (recEng t.rec_) { e with shadow := Buf.reset } })
    (((s1.endTask t (fun c => { c.record false f t.seqno with flags := c.flags ||| t.flags })).stopQueue t.qpa f).advanceRet t.qpa 65)

/-! ### `TENQ` (R309) -/

/-- The bank that a record's task expands through, if any: `WPRE` by X, `KVQ` by Y. -/
def bankOpnd (r : List W64) : Option Nat :=
  match recKind r with
  | 3 => some 0
  | 13 => some 1
  | _ => none

/-- The header of a task queue: its physical address, once translated; it must lie in module or host memory. -/
def State.queuePa (s : State) (n : Nat) (e : Entry) (q : W64) : State × Option Nat :=
  let p := (({ st := s } : Plan)).access n e.slot .load q 64
  match p.trap, p.rds with
  | some t, _ => (p.st.trapEntry n e t, none)
  | none, r :: _ =>
    (match r.tgt with
     | .mem pa => (p.st, some pa)
     | .window _ _ _ => (p.st.trapEntry n e { cause := .xlate, sub := xPerm, eaddr := q }, none))
  | none, [] => (p.st, none)

/-- Attach a queue whose header words were read. -/
def State.attach (s : State) (qpa w asid : Nat) (l : List Byte) : State :=
  { s with tqueues := s.tqueues ++
      [⟨qpa, w, asid, word64 l 0, word64 l 1, bitN (word64 l 2).toNat 0, none, 0⟩] }

/-- The record is written and becomes a task: captures, SRNG, SEQ (R309, R427); in a stopped queue it is discarded. -/
def State.enqueue (s : State) (n : Nat) (e : Entry) (bd : Bound) (q : TaskQueue) (rec_ : List W64) (bank : Option Nat) : State :=
  let c := coreOf n
  let caps := match bank with
    | some b => [(c, b, ((s.core c).bank b).curIdx)]
    | none => []
  let copy := match bank with
    | some b => ((s.core c).bank b).current
    | none => BankCopy.reset
  let s1 := match bank with
    | some b => s.captureBank c b
    | none => s
  let g := if recDraws rec_ then srngNext (s1.strand n).ctl.srng else (s1.strand n).ctl.srng
  let s2 := s1.modStrand n (fun st => { st with ctl := { st.ctl with srng := g } })
  let (uid, s3) := s2.newId
  let t : Task :=
    { uid := uid, qpa := q.qpa, seqno := q.seqno.toNat, rec_ := rec_, strand := n, wing := q.wing, bound := bd, caps := caps, copy := copy
      rng := g, fork := s3.pts n, phase := .queued, flags := 0, ran := false, fault := none
      cancelled := false, pend := 0, out := [], tiles := [], wrote := [], ops := [], step := 0 }
  let s4 := { (s3.modTq q.qpa (fun x => { x with seqno := x.seqno + 1 })) with tasks := s3.tasks ++ [t] }
  let s5 := if q.stop then
      (s4.discardTask t (q.stopTrap.getD { cause := .xlate })).advanceRet q.qpa 65
    else s4
  s5.finishC n e [.s ⟨q.seqno, false⟩]

/-- One clock of `TENQ`: step 0 reads the record, step 1 attaches, step 2 enqueues. -/
def tenqGo (e : Entry) (s : State) : State :=
  let n := s.cur
  let q := e.yv &&& ~~~63#64
  let recVa := e.xv &&& ~~~63#64
  let w := wingOf n
  let illins (x : Nat) : Trap := { cause := .illins, sub := x, slot := 2 }
  match (s.strand n).bound with
  | none => s
  | some bd =>
    if !(s.strand n).performedBefore e.seq e.slot then s
    else if e.step = 0 then
      match s.oneRead n e recVa 64 with
      | (s1, none) => s1
      | (s1, some (bs, m)) =>
        let r := (List.range 8).map (fun i => word64 bs i)
        if m then s1.trapEntry n e (memueAt recVa)
        else if recKind r = 0 ∨ 16 < recKind r then s1.trapEntry n e (illins 5)
        else if !fieldsValid r w then s1.trapEntry n e (illins 1)
        else s1.modEntry n e.id (fun x => { x with step := 1, z := [⟨BitVec.ofNat 2048 (leNat bs), 0⟩] })
    else
      let img := leBytes 64 (e.z.headD VV.zero).v.toNat
      let r := (List.range 8).map (fun i => word64 img i)
      match s.queuePa n e q with
      | (s1, none) => s1
      | (s1, some qpa) =>
        match s1.tqueue? qpa with
        | none =>
          if 64 ≤ (s1.tqueues.filter (fun x => x.wing == w)).length then s1
          else
            (match s1.oneRead n e q 64 with
             | (s2, none) => s2
             | (s2, some (bs, m)) => 
               if m then s2.trapEntry n e (memueAt q)
               else (s2.attach qpa w bd.asid bs).modEntry n e.id (fun x => { x with step := 2, aux := BitVec.ofNat 64 qpa }))
        | some tq =>
          if tq.wing ≠ w ∨ tq.seqno - tq.ret = 64 then s1
          else
            let sq := tq.seqno.toNat
            match (recWaits r sq).find? (fun t => decide ((sq : Int) ≤ t)) with
            | some t => s1.trapEntry n e { cause := .fwdwait, slot := 2, einfo := BitVec.ofInt 64 t }
            | none =>
              let desc : State × Got (Option Nat) := match bankOpnd r with
                | none => (s1, .ok none)
                | some i => match s1.readTensor bd w (opnd r i).tid (s1.pts n) .memue with
                  | (s2, .bad t) => (s2, .bad t)
                  | (s2, .wait) => (s2, .wait)
                  | (s2, .ok t) => (s2, .ok (if fmtCb t.fmt then some t.cbk else none))
              match desc with
              | (s2, .wait) => s2
              | (s2, .bad t) => s2.trapEntry n e { t with slot := 2 }
              | (s2, .ok bank) =>
                if bank.any (fun b => (s2.strand n).bankPending b) then s2
                else
                  match s2.oneWrite n e (q + 64 + BitVec.ofNat 64 (64 * (sq % 64))) img with
                  | (s3, ok) => if ok then s3.enqueue n e bd tq r bank else s3

/-- `TENQ` (R309). -/
def execTenq (d a b : BitVec 6) (p q : Bool) (s : State) : Result :=
  s.runWaitC (.tenq d a b p q) (fun x k => (if k = 0 then x.av else x.bv) &&& ~~~63#64) noTrap tenqGo

/-! ### `TWAIT`, `TSTAT` (R311) -/

def Strand.tc (st : Strand) (c : Nat) : Tc := mget st.tcs c Tc.reset

/-- The trap that a fault word names (R311). -/
def tcTrap (t : Tc) : Trap :=
  { cause := .xlate, sub := bitsN t.fault.toNat 47 40, slot := 2, einfo := t.fault, eaddr := t.addr
    code := some (bitsN t.fault.toNat 55 48) }

/-- One clock of `TWAIT`. -/
def twaitGo (c : Nat) (e : Entry) (s : State) : State :=
  let n := s.cur
  let t := (s.strand n).tc c
  if t.count.toNat < e.xv.toNat then s
  else if bitN t.fault.toNat 63 then s.trapEntry n e (tcTrap t)
  else (s.setPts n (wmax (s.pts n) t.pts)).finishC n e [.s ⟨t.count, false⟩]

def execTwait (d a : BitVec 6) (p : Bool) (c : BitVec 3) (s : State) : Result :=
  s.runWaitC (.twait d a p c) noAddr noTrap (twaitGo c.toNat)

/-- `TSTAT`. -/
def execTstat (d : BitVec 6) (c : BitVec 3) (sv : BitVec 2) (l : Bool) (s : State) : Result :=
  s.runC (.tstat d c sv l) (fun _ t =>
    let n := t.cur
    let x := (t.strand n).tc c.toNat
    let v : W64 := match sv.toNat with
      | 0 => x.count
      | 1 => x.fault
      | 2 => x.addr
      | _ => x.flags.setWidth 64
    let t1 := if sv = 0 then t.setPts n (wmax (t.pts n) x.pts) else t
    let t2 := if l then t1.modStrand n (fun st => { st with
      tcs := mset st.tcs c.toNat { x with fault := 0, addr := 0, flags := 0 } }) else t1
    t2.putC n (.tstat d c sv l) [.s ⟨v, false⟩] 0)

/-- `TWAIT_SATISFY`: the `TWAIT` of strand `n` looks at its counter again. -/
def execTwaitSatisfy (n : Nat) (s : State) : Result :=
  match s.openC n (fun i => match i with
    | .twait .. => true
    | _ => false) with
  | none => .next s
  | some e => match e.instr with
    | .twait _ _ _ c => .next (twaitGo c.toNat e { s with cur := n })
    | _ => .next s

/-! ### `TCANCEL` (R314) -/

/-- One clock of `TCANCEL`. Step 0 cancels the queued and parked tasks; step 1 waits for the dispatched ones, which
complete (log entry 12). `aux` counts the tasks cancelled, and `z` keeps SEQ as it was. A queue that is attached to another
wing is out of reach: the slot pair waits until it detaches (R23, log entry 55). -/
def tcancelGo (e : Entry) (s : State) : State :=
  let n := s.cur
  let q := e.xv &&& ~~~63#64
  let s0 := e.yv.toNat
  if !(s.strand n).performedBefore e.seq e.slot then s
  else
    match s.queuePa n e q with
    | (s1, none) => s1
    | (s1, some qpa) =>
      match s1.tqueue? qpa with
      | none =>
        if e.step = 1 then s1.finishC n e [.s ⟨e.aux, false⟩]
        else
          -- clear the header's STOP bit
          (match s1.oneRead n e (q + 16) 8 with
           | (s2, none) => s2
           | (s2, some (bs, m)) =>
             if m then s2.trapEntry n e (memueAt (q + 16))
             else match s2.oneWrite n e (q + 16) (leBytes 8 ((word64 bs 0) &&& ~~~1#64).toNat) with
               | (s3, ok) => if ok then s3.finishC n e [.s ⟨0, false⟩] else s3)
      | some tq =>
        if tq.wing ≠ wingOf n then s1
        else if e.step = 0 then
          let l := s1.tasks.filter (fun t => t.qpa == qpa && decide (s0 ≤ t.seqno) &&
            (decide (t.phase = .queued) || decide (t.phase = .parked)))
          let s2 := (l.foldl (fun s t => (s.endTask t id).modTask t.uid (fun x => { x with cancelled := true })) s1).advanceRet qpa 65
          s2.modEntry n e.id (fun x => { x with
            step := 1, aux := BitVec.ofNat 64 l.length, z := [⟨tq.seqno.setWidth 2048, 0⟩] })
        else if s1.tasks.any (fun t => t.qpa == qpa && decide (s0 ≤ t.seqno ∧ t.seqno < e.zv.toNat) && !t.isDone) then s1
        else (s1.modTq qpa (fun x => { x with stop := false, stopTrap := none })).finishC n e [.s ⟨e.aux, false⟩]

def execTcancel (d a b : BitVec 6) (p q : Bool) (s : State) : Result :=
  s.runWaitC (.tcancel d a b p q) (fun x k => if k = 0 then x.av &&& ~~~63#64 else 0) noTrap tcancelGo

/-! ### The docent (R316, R317) -/

/-- Nominal duration of a task (Table 13-9, R323). -/
def State.nominal (s : State) (t : Task) : Nat :=
  let r := t.rec_
  let x := opnd r 0
  match recKind r with
  | 1 => 12 + 64 * x.n1
  | 2 => 12 + 64 * x.n1
  | 3 => 128
  | 5 => 72
  | 6 => 2 + 16 * (recK r 40 39 + 1)
  | 7 => 32 * x.tiles
  | 8 => 16 * x.tiles
  | 9 => 40
  | 10 => 48 * x.tiles
  | 12 => 32 * x.tiles
  | 13 => 64 + 32 * s.kvqWide t
  | _ => 1

/-- A server of a task's kind is free (Table 13-2, R316). -/
def State.serverFree (s : State) (t : Task) : Bool :=
  let run (f : Task → Bool) : Nat := (s.tasks.filter (fun u => u.dispatched && f u)).length
  let k := t.kind
  if isMatrix k then
    run (fun u => u.wing == t.wing && isMatrix u.kind && recEng u.rec_ == recEng t.rec_) == 0 &&
      (match (mget (s.wing t.wing).engines (recEng t.rec_) Engine.reset).claim with
       | none => true
       | some q => q == t.qpa)
  else if isTransfer k then decide (run (fun u => u.wing == t.wing && isTransfer u.kind) < 4)
  else if k = 11 then decide (run (fun u => u.wing == t.wing && u.kind == 11) < 4)
  else decide (run (fun u => u.wing / 8 == t.wing / 8 && isCollective u.kind) < 16)

/-- Eligible tasks (R316). -/
def State.eligible (s : State) (t : Task) : Bool :=
  decide (t.phase = .queued) && t.fault.isNone && !t.cancelled &&
    (match s.tqueue? t.qpa with
     | some q => !q.stop
     | none => false) &&
    s.serverFree t && s.tasks.all (fun u => !(u.qpa == t.qpa && decide (u.seqno < t.seqno) && !u.isDone && s.orderedAfter t u))

/-- A tile that a task uses. -/
structure TileUse where
  tag : Tag
  minv : Nat
  hint : Nat
  rd : Bool

/-- The tiles that must be present, and those only written, of a task's operands; the collective steps' targets are not
installed (R327). -/
def State.tileUses (s : State) (t : Task) : Option (List TileUse) :=
  let r := t.rec_
  let wide := s.kvqWide t
  let rd := readOpnds r
  let wr := if isCollective t.kind then [] else (writeOpnds r).filter (fun i => !rd.contains i)
  if (rd ++ writeOpnds r).any (fun i => (opnd r i).passes (opndWide r wide i)) then none
  else
    let use (b : Bool) (i : Nat) : List TileUse :=
      let o := opnd r i
      (o.tags t.bound.asid (opndWide r wide i)).map (fun g => ⟨g, o.minv, o.hint, b⟩)
    some (rd.flatMap (use true) ++ wr.flatMap (use false))

/-- A page that a copy's rows are written through is closed to writes (R338). -/
def State.slotClosed (s : State) (x : Slot) : Bool := (x.lines (List.range 64)).any (fun l => s.closedAt (256 * l))

/-- What the docent finds of a tile that a task only writes and that is absent: its descriptor and its pages, the copy that it
will install without reading memory (R302, R317). -/
def State.zeroCopy (s : State) (t : Task) (g : Tag) : State × Got Slot :=
  match s.tileDesc t.bound t.wing g t.fork .poison with
  | (s1, .bad x) => (s1, .bad x)
  | (s1, .wait) => (s1, .wait)
  | (s1, .ok d) =>
    let p := s1.planFill t.wing t.bound g d
    match p.plan.verdict with
    | some x => (p.plan.st, .bad x)
    | none =>
      if p.plan.miss then (p.plan.st, .wait)
      else (p.plan.st, .ok { Slot.empty with tag := g, tens := d, pages := p.pages })

/-- The target tile of a collective step: its pages are translated, its peer checked, its rows must lie in windows and be
writable (R327, R349). -/
def State.windowTile (s : State) (t : Task) (g : Tag) : State × Got Slot :=
  match s.tileDesc t.bound t.wing g t.fork .poison with
  | (s1, .bad x) => (s1, .bad x)
  | (s1, .wait) => (s1, .wait)
  | (s1, .ok d) =>
    let p := s1.planRows t.wing t.bound g d
    let y : Slot := { Slot.empty with tag := g, tens := d, pages := p.pages, once := true }
    let q1 := p.plan.rds.foldl (fun (q : Plan) r => match r.tgt with
      | .mem _ => q.fail { cause := .xlate, sub := xPerm, eaddr := r.va }
      | .window _ _ _ => q) p.plan
    let q2 := match y.permFault (t.wing / 8) (List.range 64) [] with
      | some (c, k, va) => if q1.miss then q1 else q1.fail { cause := c, sub := k, eaddr := va }
      | none => q1
    match q2.verdict with
    | some x => (q2.st, .bad x)
    | none => if q2.miss then (q2.st, .wait) else (q2.st, .ok y)

/-- The places of a `CBAR`: window, module and address of its add. Both addresses are translated before the peer is judged, and
the one that it reads must lie in memory (R327, R349). -/
def State.barPlaces (s : State) (t : Task) : State × Got (Nat × Nat × Nat) :=
  let va := ((t.rec_.drop 2).headD 0) &&& ~~~7#64
  let local_ := ((t.rec_.drop 3).headD 0) &&& ~~~7#64
  let sp := t.bound.space (t.wing / 8)
  let look (p : Plan) (a : W64) (acc : Acc) : Plan × Option Nat :=
    match p.st.xlateWing sp t.wing a acc with
    | (s1, .miss) => ({ p with st := s1, miss := true }, none)
    | (s1, .fault c x) => (({ p with st := s1 }).fail { cause := c, sub := x, eaddr := a }, none)
    | (s1, .ok pa _) => ({ p with st := s1 }, some pa)
  let (p1, a) := look { st := s } va .store
  let (p2, b) := look p1 local_ .load
  let (p3, tgt) : Plan × Option (Nat × Nat × Nat) := match a.map (p2.st.target t.bound.part) with
    | none => (p2, none)
    | some (.error (c, x)) => (p2.fail { cause := c, sub := x, eaddr := va }, none)
    | some (.ok (.mem _)) => (p2.fail { cause := .xlate, sub := xPerm, eaddr := va }, none)
    | some (.ok (.window w dst q)) => (p2, some (w, dst, q))
  let p4 := match b with
    | some pa => if paHome pa then p3 else p3.fail { cause := .xlate, sub := xPerm, eaddr := local_ }
    | none => p3
  match p4.verdict, tgt, b with
  | some x, _, _ => (p4.st, .bad x)
  | none, some (w, dst, q), some _ => (p4.st, .ok (w, dst, q))
  | none, _, _ => (p4.st, .wait)

inductive TilesAns where
  | ready
  | wait
  /-- Not in this clock: the replay queue is full, a page that it writes is closed, or a window address is being translated. -/
  | skip
  | fault (t : Trap)

/-- What the docent asks of a collective step beside its tiles: its window addresses translated and checked (R327). -/
def State.askWindow (s : State) (t : Task) : State × TilesAns :=
  let ans {α : Type} (r : State × Got α) : State × TilesAns := match r with
    | (s1, .ok _) => (s1, .ready)
    | (s1, .wait) => (s1, .skip)
    | (s1, .bad x) => (s1, .fault x)
  if t.kind = 16 then ans (s.barPlaces t)
  else if t.kind = 14 ∨ t.kind = 15 then ans (s.windowTile t ((opnd t.rec_ 1).tag t.bound.asid 0 0))
  else (s, .ready)

/-- Keep a slot for a tile that a task writes in full, which `y` describes; none where no way of its set is eligible (R317). -/
def State.keepTile (s : State) (t : Task) (g : Tag) (y : Slot) : Option State :=
  let (id, s1) := s.newId
  let f : Fill := { newFill id s.clk t.bound g 0 0 (.task t.uid) with desc := true, zero := true, tens := y.tens, pages := y.pages }
  let s2 := (s1.modWing t.wing (fun x => { x with fills := x.fills ++ [f] })).placeFill t.wing f 16
  if (s2.wing t.wing).fills.any (fun x => x.id == id && x.placed) then some s2 else none

/-- Keep slots for several tiles, or none at all. -/
def State.keepTiles (s : State) (t : Task) (l : List (Tag × Slot)) : Option State :=
  l.foldlM (fun s p => s.keepTile t p.1 p.2) s

/-- A slot is kept for the tile by this task. -/
def State.keeps (s : State) (t : Task) (g : Tag) : Bool :=
  (s.wing t.wing).fills.any (fun f => f.tag == g && f.zero && f.waiters.head? == some (.task t.uid))

/-- A tile that a task only writes has no copy and no fill: the task will install it without reading memory (R317). -/
def State.absent (s : State) (w : Nat) (u : TileUse) : Bool :=
  !u.rd && ((s.wing w).find u.tag).isNone && !(s.wing w).fills.any (fun f => f.tag == u.tag && !f.done)

/-- Ask for every tile of a task: reads as tile requests; for each absent tile that is only written a slot is kept, since the task
installs it without reading memory (R317). Missing tiles, or a set without an eligible way, park the task; while a page that it
writes is closed it waits (R339). -/
def State.askTiles (s : State) (t : Task) : State × TilesAns :=
  match s.tileUses t with
  | none => (s, .fault (tileTrap xTilerange))
  | some l =>
    let w := t.wing
    let who : Waiter := .task t.uid
    let wr := ((writeOpnds t.rec_).flatMap (fun i => (opnd t.rec_ i).tags t.bound.asid (opnd t.rec_ i).n0))
    let r := l.foldl (fun (a : State × List (Tag × Nat) × List (Tag × Slot) × Option TilesAns) u =>
      let (s0, miss, new, ans) := a
      if ans.isSome || s0.keeps t u.tag then a
      else if s0.absent w u then
        match s0.zeroCopy t u.tag with
        | (s1, .bad x) => (s1, miss, new, some (.fault x))
        | (s1, .wait) => (s1, miss ++ [(u.tag, 0)], new, none)
        | (s1, .ok y) => if s1.slotClosed y then (s1, miss, new, some .skip) else (s1, miss, new ++ [(u.tag, y)], none)
      else
        match s0.tileReq w t.bound u.tag (if u.rd then u.minv else 0) u.hint who t.fork with
        | (s1, .hit k) => (s1, miss, new, if wr.contains u.tag && s1.slotClosed (s1.slotOf w k) then some .skip else none)
        | (s1, .wait) => (s1, miss ++ [(u.tag, if u.rd then u.minv else 0)], new, none)
        | (s1, .full) => (s1, miss, new, some .skip)) (s, [], [], none)
    let parkAll (s : State) (m : List (Tag × Nat)) : State × TilesAns :=
      let (s2, ok) := m.foldl (fun (b : State × Bool) p => let (z, k) := b.1.park w who p.1 p.2
                                                           (z, b.2 && k)) (s.unpark w who, true)
      if ok then (s2, .wait) else (s2, .skip)
    match r with
    | (s1, _, _, some x) => (s1, x)
    | (s1, [], new, none) =>
      (match (s1.unpark w who).askWindow t with
       | (s2, .ready) =>
         -- its own tiles are no victims (R291)
         let s3 := s2.modTask t.uid (fun x => { x with
           tiles := l.map TileUse.tag, phase := if x.dispatched then x.phase else .parked })
         (match s3.keepTiles t new with
          | some s4 => (s4, .ready)
          | none => parkAll s2 (new.map (fun p => (p.1, 0))))
       | x => x)
    | (s1, m, _, none) => parkAll s1 m

/-- The event that carries out a task's kind. -/
def taskEvent (k uid : Nat) : Instr :=
  match k with
  | 1 => .mma uid | 2 => .mmas uid | 3 => .wpre uid | 4 => .wswp uid | 5 => .drain uid | 6 => .aclr uid | 7 => .tcpy uid
  | 8 => .tset uid | 9 => .txps uid | 10 => .tred uid | 11 => .itin uid | 12 => .twb uid | 13 => .kvq uid | 14 => .crs uid
  | 15 => .cag uid | _ => .cbar uid

/-- Claim the engine of a matrix task; its buffers are zeroed for a context it did not last serve (R318, R321). -/
def State.claimEngine (s : State) (t : Task) : State :=
  if !isMatrix t.kind then s
  else s.modWing t.wing (fun g =>
    let e := mget g.engines (recEng t.rec_) Engine.reset
    let e1 := if e.ctx = some t.bound.asid then e else { Engine.reset with ctx := some t.bound.asid }
    { g with engines := mset g.engines (recEng t.rec_) { e1 with claim := some t.qpa } })

/-- Dispatch a task: its server takes it, and its tiles are in use until it is over (R291); its effect is carried out at the end
of the clock. -/
def State.dispatchTask (s : State) (t : Task) : State :=
  (s.claimEngine t).modTask t.uid (fun x => { x with
    phase := .dispatched (s.clk + s.nominal t), tiles := ((s.tileUses t).getD []).map TileUse.tag })

/-- The docent takes up a task: its accesses come after those of the tasks of its queue that are over (R241, log entry 72). -/
def State.takeUp (s : State) (t : Task) : State × Task :=
  let p := wmax t.fork (((s.tqueue? t.qpa).map TaskQueue.pts).getD 0)
  (s.modTask t.uid (fun x => { x with fork := p }), { t with fork := p })

/-- A wing whose power throttle withholds grants in this clock makes none (R401). -/
def State.docentHeld (s : State) (w : Nat) : Bool := decide (s.clk % 64 < (s.wing w).withheld)

/-- The docent's answer to a task it has offered: parked with the tiles it uses, which are no victims then, or back in its queue
(R290, R291). -/
def State.setAside (s : State) (t : Task) (parked : Bool) : State :=
  s.modTask t.uid (fun x => if parked then { x with phase := .parked, tiles := ((s.tileUses t).getD []).map TileUse.tag }
    else { x with phase := .queued, tiles := [] })

/-- Up to four grants of one clock; `skip` holds the tasks skipped for this clock, which stay in B (R102, R317). Of a task queue
the lowest-numbered eligible task of each launch is offered. -/
def State.docentGo (s : State) (w : Nat) (skip : List Nat) : Nat → State
  | 0 => s
  | f + 1 =>
    let el := s.tasks.filter (fun t => t.wing == w && s.eligible t)
    let cand := el.filter (fun t => !skip.contains t.uid)
    let source (t : Task) : Nat × Nat × Nat := (t.bound.qnum, t.bound.lid, t.qpa)
    let least := cand.filter (fun t => cand.all (fun u => source u != source t || decide (t.seqno ≤ u.seqno)))
    let offers := least.map (fun t => (⟨t.bound.qnum, t.bound.lid, t.qpa, Nat.min (s.nominal t) 16384, t.uid⟩ : Offer))
    let arb := (s.wing w).docent.enter ((el.map (fun t => t.bound.qnum)).eraseDups)
    let s0 := s.modWing w (fun g => { g with docent := arb })
    match arb.pick offers with
    | none => s0
    | some o =>
      match s0.task? o.uid with
      | none => s0
      | some t0 =>
        let (s1, t) := s0.takeUp t0
        match s1.askTiles t with
        | (s2, .ready) =>
          ((s2.modWing w (fun g => { g with docent := arb.grant (s.tickets o.q) o })).dispatchTask t).docentGo w skip f
        | (s2, .wait) => (s2.setAside t true).docentGo w skip f
        | (s2, .skip) => (s2.setAside t false).docentGo w (t.uid :: skip) f
        | (s2, .fault x) => (s2.faultTask t.uid x).docentGo w skip f

/-- A parked task looks at the tiles that it misses, and at no other: it is offered to the docent again once they are all there or
may be installed, and faults when a fill of one faulted (R290, R292, R313). -/
def State.reviewParked (s : State) (t0 : Task) : State :=
  let (s0, t) := s.takeUp t0
  let w := t.wing
  let who : Waiter := .task t.uid
  let uses := (s0.tileUses t).getD []
  let want := (((s0.wing w).replay.find? (fun p => p.who == who)).map Parked.tags).getD []
  let r := want.foldl (fun (a : State × Bool × Option Trap) p =>
    let (s1, wait, bad) := a
    let u : TileUse := (uses.find? (fun u => u.tag == p.1)).getD ⟨p.1, p.2, 0, true⟩
    if bad.isSome || s1.holds w p.1 p.2 then a
    else if s1.absent w u then
      match s1.zeroCopy t u.tag with
      | (s2, .bad x) => (s2, wait, some x)
      | (s2, .wait) => (s2, true, none)
      | (s2, .ok _) => (s2, wait || (s2.victim w (tileSet u.tag)).isNone, none)
    else
      match s1.tileReq w t.bound p.1 p.2 u.hint who t.fork with
      | (s2, .hit _) => (s2, wait, none)
      | (s2, _) => (s2, true, none)) (s0, false, none)
  match r with
  | (s1, _, some x) => s1.faultTask t.uid x
  | (s1, true, none) => want.foldl (fun s p => (s.park w who p.1 p.2).1) s1
  | (s1, false, none) => (s1.unpark w who).setAside t false

/-- `DOCENT_GRANT`: one clock of the docent of a wing. Tasks that a kill cancelled leave their queues (R97, R314), and a task not
dispatched whose fill has faulted faults (R313). -/
def execDocentGrant (w : Nat) (s : State) : Result :=
  let idle (s : State) : List Task :=
    s.tasks.filter (fun t => t.wing == w && (decide (t.phase = .queued) || decide (t.phase = .parked)))
  let s0 := ((idle s).filter Task.cancelled).foldl (fun s t => (s.endTask t id).advanceRet t.qpa 65) s
  let s1 := (idle s0).foldl (fun s t => match t.fault with
    | some f => s.faultTask t.uid f
    | none => s) s0
  let s2 := ((idle s1).filter (fun t => decide (t.phase = .parked))).foldl (fun s t => s.reviewParked t) s1
  if s2.docentHeld w then .next s2 else .next (s2.docentGo w [] 4)

/-! ### Completion (R308, R313) -/

/-- Packets of a task leave while there is room and allowance (R352, R355). Several tasks' packets of one die pass the
collective engine's arbiter one at a time; `k` bounds how many leave here. -/
def State.sendOut (s : State) (uid : Nat) : Nat → State
  | 0 => s
  | f + 1 =>
    match s.task? uid with
    | none => s
    | some t =>
      match t.out with
      | [] => s
      | o :: r =>
        let (s1, ok) := s.askAllow o.window (.task uid) 1
        if !ok || !s1.fabric.roomFor o.dst then s1
        else
          let s2 := (s1.loseRst t.bound.lid).request o.dst t.bound.part o.kind o.pa o.bytes (.task uid) (some o.window) o.va
          (s2.1.modTask uid (fun x => { x with out := r, pend := x.pend + 1 })).sendOut uid f

/-- A tile's version rises by 1, in the catalogue; copies keep the version of their fill (R285, R296). -/
def State.bumpVersion (s : State) (g : Tag) (slice : Nat) : State := s.modCat g slice (fun e => { e with ver := e.ver + 1 })

/-- `DRAIN` and `ACLR` with REL = 1 end the queue's claim (R321). -/
def State.releaseClaim (s : State) (t : Task) : State :=
  if (t.kind = 5 ∨ t.kind = 6) ∧ bitN (recW t.rec_ 0) 31 then
    s.modWing t.wing (fun g =>
      let e := mget g.engines (recEng t.rec_) Engine.reset
      { g with engines := mset g.engines (recEng t.rec_) { e with claim := none } })
  else s

/-- What a dispatched task still waits for: its duration; the read of a `CBAR`; its packets and, but for a `CBAR`, which ends with
its read, their acknowledgements; an itinerary's tiles, in any case (R295, R306, R308, R327, R350). -/
def State.taskBusy (s : State) (t : Task) (due : Nat) : Bool :=
  if t.kind = 11 then
    !t.ops.isEmpty || (s.wing t.wing).fills.any (fun f => !f.done && f.waiters.contains (.itin t.uid))
  else
    t.fault.isNone &&
      (decide (s.clk < due) || !t.ops.isEmpty || !t.out.isEmpty || decide (t.pend ≠ 0 ∧ t.kind ≠ 16))

/-- `TASK_COMPLETE`: a dispatched task whose time has come, with nothing outstanding, completes or faults. -/
def execTaskComplete (uid : Nat) (s : State) : Result :=
  match s.task? uid with
  | none => .next s
  | some t0 =>
    match t0.phase with
    | .dispatched due =>
      if !t0.ran then .next s
      else
        let s1 := if isCollective t0.kind then s else s.sendOut uid 64
        let t := (s1.task? uid).getD t0
        if s1.taskBusy t due then .next s1
        else
          match t.fault with
          | some f => .next (s1.faultTask t.uid f)
          | none =>
            let s2 := t.wrote.foldl (fun (s : State) (g : Tag × Nat) => s.bumpVersion g.1 g.2) s1
            .next (((s2.endTask t (fun c => { c with flags := c.flags ||| t.flags })).releaseClaim t).advanceRet t.qpa 65)
    | _ => .next s

/-! ### `QUEUE_DETACH` (R304) -/

/-- Write SEQ, RET and STOP of a queue into its header as SEQ stores, after the accesses of its tasks; the reserved bits of the
word of STOP stay as memory holds them (R4, R5, R304). -/
def State.writeHeader (s : State) (q : TaskQueue) (stop : Bool) : State :=
  let old := leNat (s.readBytes (q.qpa + 16) 1)
  (s.store q.pts (atOffsets q.qpa (leBytes 8 q.seqno.toNat ++ leBytes 8 q.ret.toNat ++
    leBytes 1 (old - old % 2 + (if stop then 1 else 0))))).1

/-- An idle queue, with no claim and not stopped, detaches. -/
def execQueueDetach (qpa : Nat) (s : State) : Result :=
  match s.tqueue? qpa with
  | none => .next s
  | some q =>
    let claimed := (s.wing q.wing).engines.any (fun e => e.2.claim == some qpa)
    if q.seqno ≠ q.ret ∨ q.stop ∨ claimed ∨ s.tasks.any (fun t => t.qpa == qpa) then .next s
    else
      let s1 := s.writeHeader q false
      .next { s1 with tqueues := s1.tqueues.filter (fun x => x.qpa != qpa) }

end Sys2Proof.Machine
end

