-- ==== Sys2Proof/Machine/Engines.lean ====
section
/-! DEFINITION. Carrying out a dispatched task (R306, R313) and the tasks of the matrix engines: `WPRE` and `WSWP` (R319,
R320), `MMA` and `MMAS` (R322, R323), `DRAIN` (R324), `ACLR` (R325). A task's accesses are made in the clock of its
dispatch; it completes when its duration has passed. -/

namespace Sys2Proof.Machine

/-! ### The course of a dispatched task -/

/-- What carrying out a task gives: a fault before any write, its flags and duration, or a wait. -/
inductive Ran where
  | fault (s : State) (t : Trap)
  | done (s : State) (dur flags : Nat)
  | again (s : State)

/-- Carry out task `uid` of kind `k` once, when it has been dispatched. A dispatched task whose tiles are no longer there asks for
them again and goes on once they are (R313: dispatched tasks complete). -/
def State.runTask (s : State) (uid k : Nat) (f : Task → State → Ran) : Result :=
  match s.task? uid with
  | none => .next s
  | some t =>
    if !t.dispatched || t.ran || t.kind != k then .next s
    else
      match f t s with
      | .fault s1 x => .next (s1.faultTask uid x)
      | .again s1 =>
        (match t.fault, s1.askTiles t with
         | some x, _ => .next (s1.faultTask uid x)
         | none, (s2, .fault x) => .next (s2.faultTask uid x)
         | none, (s2, _) => .next s2)
      | .done s1 d fl => .next (s1.modTask uid (fun x => { x with
          phase := .dispatched (s.clk + d), ran := true, flags := x.flags ||| BitVec.ofNat 7 fl }))

def fmtTrap (x : Slot) : Trap := { cause := .fmtmis, eaddr := x.tens.rowVa x.tag 0 }

/-- The copy of a tile that the task's wing holds. -/
def State.tile (s : State) (t : Task) (g : Tag) : Option (Nat × Slot) := (s.wing t.wing).find g

/-- The copies of tiles, in order; none when one is not there. -/
def State.tilesAt (s : State) (t : Task) (l : List Tag) : Option (List (Nat × Slot)) :=
  l.foldr (fun g r => match s.tile t g, r with
    | some x, some y => some (x :: y)
    | _, _ => none) (some [])

/-- A task reads copies: its pts rises to theirs, hints apply, window copies are given up (R233, R293, R299). A pin past
the core's 512 is not set. -/
def State.readTiles (s : State) (t : Task) (hint : Nat) (l : List (Nat × Slot)) : State :=
  l.foldl (fun s x =>
    let c := coreOf t.strand
    let s1 := s.modTask t.uid (fun y => { y with fork := wmax y.fork x.2.wts })
    let h := if s1.pinOver c x.2 hint then 0 else hint
    (s1.setSlot t.wing x.1 ((s1.slotOf t.wing x.1).hinted h (c % 8) false)).onceRead t.wing x.1 (.task t.uid)) s

/-! ### Writing tiles (R299, R313, R317) -/

/-- Install a copy without reading memory, for a task that writes every non-pad element of the tile, in the slot kept for it (R302,
R317). None while the docent's look at it does not hold any more. -/
def State.installZero (s : State) (t : Task) (g : Tag) : Option (State × Except Trap Unit) :=
  let w := t.wing
  match (s.wing w).fills.find? (fun f => f.tag == g && f.zero && f.waiters.head? == some (.task t.uid)), s.zeroCopy t g with
  | none, _ => none
  | some _, (s1, .bad x) => some (s1, .error x)
  | some _, (_, .wait) => none
  | some f, (s1, .ok y) =>
    let p := s1.planFill w t.bound g y.tens
    let rds := p.plan.rds.map (fun r => { r with got := some (List.replicate r.len 0, false) })
    some (p.plan.st.installFill w { f with planned := true, rds := rds, pages := y.pages, tens := y.tens } rds, .ok ())

/-- What preparing a task's writes gives. -/
inductive Prep where
  | ok (s : State) (l : List (Nat × Slot))
  | fault (s : State) (t : Trap)
  | again (s : State)

/-- A kind that writes the scales of its tiles (Table 13-9). -/
def writesScales (k : Nat) : Bool := k == 7 || k == 8 || k == 13

/-- The XLATE or PEER fault of some row of a window copy, or of the scales of its rows, if there is one (R313, R349). -/
def State.rowsFault (s : State) (t : Task) (x : Slot) : Option (Cause × Nat × W64) :=
  let row (r : Nat) : Option (Cause × Nat × W64) := match s.rowTargets t.bound.part x r with
    | .error e => some e
    | .ok _ => none
  let scale (a : W64) : Option (Cause × Nat × W64) := match pageOf x.pages x.tag.asid a with
    | none => none
    | some p => match s.target t.bound.part (p.pa a) with
      | .error (c, k) => some (c, k, a)
      | .ok _ => none
  (List.range 64).findSome? row <|>
    (if writesScales t.kind then (List.range 64).findSome? (fun r =>
      (rowScaleVas x.tens x.tag x.pages r).findSome? (fun v => scale v.2.1)) else none)

/-- A task's pts rises to the stamps of copies that it reads, before any of its writes (R225, R231). -/
def State.raiseFork (s : State) (t : Task) (l : List (Nat × Slot)) : State :=
  s.modTask t.uid (fun y => { y with fork := l.foldl (fun p x => wmax p x.2.wts) y.fork })

/-- Prepare the writes of a task: every tile is present or installed, and may be written (R313: before any write); the home
slices of the tiles are noted for their versions (R296, R297). -/
def State.prepWrites (s : State) (t : Task) (l : List Tag) : Prep :=
  let r := l.foldl (fun (a : Prep) g =>
    match a with
    | .ok s1 xs =>
      (match s1.tile t g with
       | some x => .ok s1 (xs ++ [x])
       | none => match s1.installZero t g with
         | none => .again s
         | some (_, .error x) => .fault s x
         | some (s2, .ok _) => match s2.tile t g with
           | some x => .ok s2 (xs ++ [x])
           | none => .again s)
    | y => y) (.ok s [])
  match r with
  | .ok s1 xs =>
    match xs.findSome? (fun x => x.2.permFault (t.wing / 8) (List.range 64) (if writesScales t.kind then List.range 64 else [])) with
    | some (c, k, va) => .fault s { cause := c, sub := k, eaddr := va }
    | none =>
      match xs.findSome? (fun x => if !x.2.once then none else s1.rowsFault t x.2) with
      | some (c, k, va) => .fault s { cause := c, sub := k, eaddr := va }
      | none =>
        let home (x : Slot) : Nat :=
          let a := x.tens.rowVa x.tag 0
          sliceOf (((pageOf x.pages x.tag.asid a).map (fun p => p.pa a)).getD 0)
        .ok ((s1.modTask t.uid (fun y => { y with wrote := xs.map (fun x => (x.2.tag, home x.2)) })).raiseFork t xs) xs
  | y => y

/-- The packets of the pieces of a row that lie in windows: posted stores; the last byte of the last one is written in its `bits` low
bits alone (0: in all) (R299, R327). -/
def rowPackets (l : List Piece) (kind : Nat → PktKind) (bits : Nat) : List Outgoing :=
  l.zipIdx.filterMap (fun p => match p.1.tgt with
    | .window w dst pa => some ⟨p.1.va, dst, kind (if p.2 + 1 = l.length then bits % 8 else 0), pa, p.1.bytes, w⟩
    | .mem _ => none)

/-- The packets that carry scales written to a row of a window tile, one for each run of bytes (R294, R299). -/
def State.scalePackets (s : State) (part : Nat) (x : Slot) (r : Nat) (dmg : Bool) : List Outgoing :=
  let vas := rowScaleVas x.tens x.tag x.pages r
  let bs : List (W64 × Byte) := (vas.map (fun v => (v.2.1, mget x.scl (x.tens.rowScales * r + v.1) 0))) ++
    (match vas with
     | v :: _ => if x.tens.sck = 2 then (leBytes 4 (x.superOf r)).zipIdx.map (fun b => (v.2.2 + BitVec.ofNat 64 b.2, b.1)) else []
     | [] => [])
  (bs.foldl (fun (l : List Outgoing) (b : W64 × Byte) =>
    match pageOf x.pages x.tag.asid b.1 with
    | none => l
    | some p => match s.target part (p.pa b.1) with
      | .ok (.window w dst pa) =>
        (match l with
         | o :: t =>
           if o.window = w ∧ o.dst = dst ∧ o.pa + o.bytes.length = pa ∧ o.bytes.length < 256 then
             { o with bytes := o.bytes ++ [(o.bytes.length, b.2)] } :: t
           else ⟨b.1, dst, .row 0 dmg, pa, [(0, b.2)], w⟩ :: l
         | [] => [⟨b.1, dst, .row 0 dmg, pa, [(0, b.2)], w⟩])
      | _ => l) []).reverse

/-- Write row `r` of the copy in slot `k`: one access (R233), or, of a window copy, a write of the copy, which serves the
requests joined to its fill, and posted stores (R299, R325). -/
def State.taskRow (s : State) (t : Task) (k r : Nat) (wr : RowWrite) : State :=
  let x := s.slotOf t.wing k
  if x.once then
    let n := x.tens.rowCount x.tag r
    let cs := wr.codes.filter (fun c => decide (c.1 < n))
    let row := putCodes x.tens (mget x.rows r 0) cs
    let dmg := wr.damaged || (x.prow.getLsbD r && decide (cs.length < n))
    let y : Slot := { x with
      rows := if row = 0 then mdel x.rows r else mset x.rows r row
      scl := wr.scl.foldl (fun m (c : Nat × Byte) => mset m (x.tens.rowScales * r + c.1) c.2) x.scl
      sup := match wr.sup with
        | some v => mset x.sup r v
        | none => x.sup
      prow := if dmg then x.prow ||| (1#64 <<< r) else x.prow &&& ~~~(1#64 <<< r) }
    match s.rowPieces t.wing t.bound.part x r row cs with
    | .error _ => s
    | .ok ps =>
      -- only the row's own last byte may hold bits of pads
      let ends := cs.any (fun c => elemLast x.tens.w c.1 + 1 == x.tens.rowBytes x.tag r)
      let s := s.dirtyPages t.wing k (t.bound.space (t.wing / 8)) (ps.map Piece.va ++
        (if wr.scl.isEmpty && wr.sup.isNone then [] else (rowScaleVas x.tens x.tag x.pages r).flatMap (fun v => [v.2.1, v.2.2])))
      let y : Slot := { y with pages := (s.slotOf t.wing k).pages }
      let pk := rowPackets ps (fun b => .row b wr.damaged) (if ends then n * x.tens.w else 0) ++
        (if wr.scl.isEmpty && wr.sup.isNone then [] else s.scalePackets t.bound.part y r wr.damaged)
      (s.setSlot t.wing k y.withZbm).modTask t.uid (fun z => { z with out := z.out ++ pk })
  else
    let pts := ((s.task? t.uid).map Task.fork).getD t.fork
    let (s1, ts) := s.writeRow t.wing k (some t.bound.lid) (t.bound.space (t.wing / 8)) pts r wr
    s1.modTask t.uid (fun y => { y with fork := ts })

/-- The scales of a row as a task writes them: those with a non-pad element, and the super-scale (R70). -/
def RowWrite.withScales (wr : RowWrite) (x : Slot) (r : Nat) (scl : List Nat) (sup : Option Nat) : RowWrite :=
  if x.tens.sck = 0 then wr
  else
    { wr with
      scl := (scl.zipIdx.filter (fun p => decide (p.2 * blockLen x.tens.sck < x.tens.rowCount x.tag r))).map
        (fun p => (p.2, BitVec.ofNat 8 p.1))
      sup := if 0 < x.tens.rowCount x.tag r then sup.map (BitVec.ofNat 32) else none }

/-- After its writes, a task's copies take their hints, and window copies are given up (R293, R299). -/
def State.wroteTiles (s : State) (t : Task) (hint : Nat) (l : List (Nat × Slot)) : State :=
  l.foldl (fun s x =>
    let c := coreOf t.strand
    let h := if s.pinOver c x.2 hint then 0 else hint
    (s.setSlot t.wing x.1 ((s.slotOf t.wing x.1).hinted h (c % 8) true)).onceRead t.wing x.1 (.task t.uid)) s

/-! ### Engines (R318, R319) -/

def State.engineOf (s : State) (t : Task) : Engine := mget (s.wing t.wing).engines (recEng t.rec_) Engine.reset
def State.setEngine (s : State) (t : Task) (e : Engine) : State :=
  s.modWing t.wing (fun g => { g with engines := mset g.engines (recEng t.rec_) e })

/-- KE of a weight type, by its format code; 0 is EMPTY (Table 13-8). -/
def weightKe (wt sck : Nat) : Nat :=
  match wt with
  | 7 => 128 | 8 => 128 | 9 => 256 | 10 => 256 | 2 => 256 | 1 => 512
  | 11 => if sck = 1 then 256 else 512
  | _ => 0

/-- The entry type of a bank mode that engines take (Table 13-8). -/
def bankType (mode : Nat) : Nat :=
  match mode with
  | 2 => 7 | 3 => 8 | 4 => 9 | 5 => 10 | 6 => 2 | _ => 0

/-- The weight type of a B tensor, 0 where Table 13-8 has no row. -/
def weightType (fmt sck mode : Nat) : Nat :=
  match fmt with
  | 7 => if sck = 0 then 7 else 0
  | 8 => if sck = 0 then 8 else 0
  | 12 => if sck = 0 ∨ sck = 2 then 7 else 0
  | 9 => if sck ≤ 1 then 9 else 0
  | 10 => if sck ≤ 1 then 10 else 0
  | 2 => if sck = 0 then 2 else 0
  | 1 => if sck = 0 then 1 else 0
  | 11 => if sck ≤ 1 then 11 else 0
  | _ => if fmtCb fmt ∧ sck ≤ 1 ∧ !(mode = 6 ∧ sck = 1) then bankType mode else 0

/-- A types that an active weight type accepts. -/
def acceptsA (wt ke fmt sck : Nat) : Bool :=
  match wt with
  | 7 => (fmt == 7 || fmt == 8) && sck == 0
  | 8 => (fmt == 7 || fmt == 8) && sck == 0
  | 9 => (fmt == 9 || fmt == 10) && decide (sck ≤ 1)
  | 10 => (fmt == 9 || fmt == 10) && decide (sck ≤ 1)
  | 2 => fmt == 2 && sck == 0
  | 1 => fmt == 1 && sck == 0
  | 11 => fmt == 11 && (if ke = 256 then sck == 1 else sck == 0)
  | _ => false

/-- The exact value of a code of an operand type. -/
def opValue (fmt code : Nat) : XVal :=
  match (EFmt.ofCode fmt).int? with
  | some w => .ofInt (sIntN w code)
  | none => match (EFmt.ofCode fmt).float? with
    | some f => f.decode code
    | none => .fin false 0 0

/-- A weight as expanded: its code in the weight type and its flags; none for an invalid index (R320). -/
def expandWeight (fmt sck code sc su : Nat) (cp : BankCopy) : Option (Nat × Nat) :=
  if fmt = 12 then
    let v := if sck = 2 then (xMulR (q4nLevel code) (scaleValue 2 sc su)).val else q4nLevel code
    let r := (⟨v, 0⟩ : XRes).deliver .bf16 .rne 0
    some (r.pat, r.flags)
  else if fmtCb fmt then
    (match cp.entry code with
     | none => none
     | some e => some (e.toNat % 2 ^ (EFmt.ofCode (bankType cp.mode)).bits, 0))
  else some (code, 0)

def zeroValue (x : XVal) : Bool := match x with
  | .fin _ m _ => m == 0
  | _ => false

/-! ### `WPRE`, `WSWP` (R320) -/

def runWpre (t : Task) (s : State) : Ran :=
  let o := opnd t.rec_ 0
  match s.tilesAt t (o.tags t.bound.asid 1) with
  | none => .again s
  | some l =>
    match l with
    | [] => .again s
    | x0 :: _ =>
      let d := x0.2.tens
      let cp := t.copy
      let cb := fmtCb d.fmt
      let wt := weightType d.fmt d.sck cp.mode
      let ke := weightKe wt d.sck
      let seg := recAr t.rec_
      if cb ∧ cp.mode = 0 ∧ d.sck ≤ 1 then .fault s { cause := .invidx }
      else if wt = 0 then .fault s (fmtTrap x0.2)
      else if d.e < ke * (seg + 1) then
        .fault s (tileTrap xTilerange)
      else
        -- weights by 128 k + n, with their flags
        let ws : List (Nat × Option (Nat × Nat)) := l.zipIdx.flatMap (fun x =>
          (List.range 64).flatMap (fun r =>
            let y := x.1.2
            let row := mget y.rows r 0
            (List.range ke).map (fun k =>
              let e := ke * seg + k
              let sc := if d.sck = 0 then 0 else y.scaleOf r e
              (128 * k + 64 * x.2 + r, expandWeight d.fmt d.sck (rowCode d row e) sc (y.superOf r) cp))))
        if ws.any (fun p => p.2.isNone) then .fault s { cause := .invidx }
        else
          let all : AMap Nat := ws.foldl (fun m p => match p.2 with
            | some (c, _) => if c = 0 then m else mset m p.1 c
            | none => m) []
          let fl := ws.foldl (fun a p => match p.2 with
            | some (_, f) => a ||| f
            | none => a) 0
          let blocks := (List.range (ke / 8)).flatMap (fun bk => (List.range 16).map (fun bn => (bk, bn)))
          let live := blocks.filter (fun b => (List.range 64).any (fun i =>
            !zeroValue (opValue wt (mget all (128 * (8 * b.1 + i / 8) + 8 * b.2 + i % 8) 0))))
          let kept (k n : Nat) : Bool := live.any (fun b => b.1 == k / 8 && b.2 == n / 8)
          let eb : AMap Int := if d.sck ≠ 1 then [] else l.zipIdx.foldl (fun m x =>
            (List.range 64).foldl (fun m r => (List.range (ke / 32)).foldl (fun (m : AMap Int) u =>
              let sc := x.1.2.scaleOf r (ke * seg + 32 * u)
              mset m (8 * (64 * x.2 + r) + u) (if sc = 255 then 255 else (sc : Int) - 127)) m) m) []
          let buf : Buf :=
            { wt := wt, ke := ke, w := all.filter (fun p => kept (p.1 / 128) (p.1 % 128)), eb := eb
              poison := l.any (fun x => x.2.prow != 0) }
          let s1 := s.readTiles t o.hint l
          .done (s1.setEngine t { s1.engineOf t with shadow := buf })
            (64 + (live.length * (64 * (EFmt.ofCode wt).bits / 8) + 511) / 512) fl

/-- `WPRE`. -/
def execWpre (uid : Nat) (s : State) : Result := s.runTask uid 3 runWpre

/-- What `WSWP` does when it is carried out. -/
def runWswp (t : Task) (s : State) : Ran :=
  let e := s.engineOf t
  .done (s.setEngine t { e with act := e.shadow, shadow := e.act }) 1 0

/-- `WSWP`. -/
def execWswp (uid : Nat) (s : State) : Result := s.runTask uid 4 runWswp

/-! ### `MMA`, `MMAS` (R322, R323) -/

/-- A value times 2^k. -/
def XVal.times2 (x : XVal) (k : Int) : XVal := match x with
  | .fin n m e => .fin n m (e + k)
  | y => y

/-- The exact s of one output: `a` the row's codes, `ea` its exponents by sub-block (255 the NaN scale); IV for a signalling
operand and an invalid product or sum (R33, Table 2-8). -/
def mmaSum (b : Buf) (fmt n : Nat) (a : List Nat) (ea : Nat → Int) : XRes :=
  let blocks : List XRes := (List.range (b.ke / 32)).map (fun u =>
    let eb := mget b.eb (8 * n + u) 0
    let ps := (List.range 32).map (fun i =>
      let k := 32 * u + i
      xMulR (opValue fmt ((a.drop k).headD 0)) (opValue b.wt (mget b.w (128 * k + n) 0)))
    let (t, iv) := xSum .rne (ps.map XRes.val)
    ⟨if ea u = 255 ∨ eb = 255 then .nan false else t.times2 (ea u + eb),
     ps.foldl (fun f p => f ||| p.flags) (if iv then fIV else 0)⟩)
  let (v, iv) := xSum .rne (blocks.map XRes.val)
  ⟨quietX v, blocks.foldl (fun f p => f ||| p.flags) (if iv then fIV else 0)⟩

/-- The exact integer s of one output. -/
def mmaInt (b : Buf) (w n : Nat) (a : List Nat) : Int :=
  a.zipIdx.foldl (fun s c => s + sIntN w c.1 * sIntN w (mget b.w (128 * c.2 + n) 0)) 0

/-- Promote row `m`: the engine and flags. -/
def Engine.promote (e : Engine) (m : Nat) : Engine × Nat :=
  let r := (List.range 128).foldl (fun (a : Engine × Nat) n =>
    let k := 128 * m + n
    let x := (xAdd .rne (f32 (mget e.acc k 0).toNat) (FFmt.a26.decode (mget e.part k 0).toNat)).deliver .fp32 .rne 0
    ({ a.1 with acc := mset a.1.acc k (BitVec.ofNat 32 x.pat) }, a.2 ||| x.flags)) (e, 0)
  ({ r.1 with part := r.1.part.filter (fun p => p.1 / 128 != m), cnt := mdel r.1.cnt m }, r.2)

/-- One row of a tile through the weights, into accumulator row `m`. -/
def Engine.feed (e : Engine) (fmt pm1 m : Nat) (a : List Nat) (ea : Nat → Int) (bad : Bool) : Engine × Nat :=
  let b := e.act
  let intW := (EFmt.ofCode b.wt).int?
  let e0 := if bad || b.poison then { e with rowPoison := e.rowPoison ||| (1#256 <<< m) } else e
  match intW with
  | some w =>
    (List.range 128).foldl (fun (x : Engine × Nat) n =>
      let k := 128 * m + n
      let (v, c) := satI 32 false (sIntN 32 (mget x.1.acc k 0).toNat + mmaInt b w n a)
      ({ x.1 with acc := mset x.1.acc k (BitVec.ofInt 32 v) }, if c then x.2 ||| fSA else x.2)) (e0, 0)
  | none =>
    let r := (List.range 128).foldl (fun (x : Engine × Nat) n =>
      let k := 128 * m + n
      let sR := (mmaSum b fmt n a ea).deliver .a26 .rne 0
      let p := (xAdd .rne (FFmt.a26.decode (mget x.1.part k 0).toNat) (FFmt.a26.decode sR.pat)).deliver .a26 .rne 0
      ({ x.1 with part := mset x.1.part k (BitVec.ofNat 26 p.pat) }, x.2 ||| sR.flags ||| p.flags)) (e0, 0)
    let c := mget r.1.cnt m 0 + 1
    let e2 := { r.1 with cnt := mset r.1.cnt m c }
    if c = pm1 + 1 then
      let (e3, f) := e2.promote m
      (e3, r.2 ||| f)
    else (e2, r.2)

/-- Every zero-block bit of band `b` is 1. -/
def Slot.bandZero (x : Slot) (b : Nat) : Bool :=
  (List.range (x.tens.e / 8)).all (fun i => x.zbm.getLsbD (b * (x.tens.e / 8) + i))

def runMma (sck : Nat) (t : Task) (s : State) : Ran :=
  let o := opnd t.rec_ 0
  match s.tilesAt t (o.tags t.bound.asid 1) with
  | none => .again s
  | some l =>
    let e := s.engineOf t
    match l.find? (fun x => let d := x.2.tens
                            e.act.wt == 0 || !acceptsA e.act.wt e.act.ke d.fmt d.sck || d.e != e.act.ke || d.sck != sck) with
    | some x => .fault s (fmtTrap x.2)
    | none =>
      let bands := l.zipIdx.flatMap (fun x => ((List.range 8).filter (fun b => !x.1.2.bandZero b)).map (fun b => (x.1.2, x.2, b)))
      let r := bands.foldl (fun (a : Engine × Nat) z =>
        (List.range 8).foldl (fun (a : Engine × Nat) i =>
          let (x, j, b) := z
          let row := 8 * b + i
          let v := mget x.rows row 0
          let codes := (List.range e.act.ke).map (fun k => rowCode x.tens v k)
          let ea (u : Nat) : Int := if sck = 0 then 0
            else let c := (mget x.scl (x.tens.rowScales * row + u) 0).toNat
                 if c = 255 then 255 else (c : Int) - 127
          let (e1, f) := a.1.feed x.tens.fmt (recK t.rec_ 40 35) (64 * (recAr t.rec_ + j) + row) codes ea (x.prow.getLsbD row)
          (e1, a.2 ||| f)) a) (e, 0)
      .done ((s.readTiles t o.hint l).setEngine t r.1) (12 + 8 * bands.length) r.2

/-- `MMA`. -/
def execMma (uid : Nat) (s : State) : Result := s.runTask uid 1 (runMma 0)
/-- `MMAS`. -/
def execMmas (uid : Nat) (s : State) : Result := s.runTask uid 2 (runMma 1)

/-! ### `DRAIN`, `ACLR` (R324, R325) -/

/-- Output formats of a conversion (Table 13-10). -/
def drainFmtOk (cvt fmt : Nat) : Bool :=
  match cvt with
  | 0 => fmt == 6 || fmt == 4
  | 1 => fmt == 7
  | 2 => fmt == 8
  | 3 => fmt == 9
  | 4 => fmt == 10
  | _ => fmt == 6

/-- One output row: (element, code) pairs, flags, and the generator after its draws (R427). -/
def drainRow (e : Engine) (cvt ch rm : Nat) (sat : Bool) (fmt m : Nat) (g : W64) : List (Nat × Nat) × Nat × W64 :=
  match cvt with
  | 0 => ((List.range 64).map (fun i => (i, (mget e.acc (128 * m + 64 * ch + i) 0).toNat)), 0, g)
  | 5 => ((List.range 64).map (fun i => (i, (mget e.part (128 * m + 64 * ch + i) 0).toNat * 64)), 0, g)
  | _ =>
    let lo := if cvt ≤ 2 then 0 else 128 * ch
    match (EFmt.ofCode fmt).float? with
    | none => ([], 0, g)
    | some f =>
      (List.range 128).foldl (fun (a : List (Nat × Nat) × Nat × W64) n =>
        let g1 := if rm = 4 then srngNext a.2.2 else a.2.2
        let r := f.encode (.ofField rm) sat (srngDraw g1) (f32 (mget e.acc (128 * m + n) 0).toNat)
        (a.1 ++ [(lo + n, r.pat)], a.2.1 ||| r.flags, g1)) ([], 0, g)

def runDrain (t : Task) (s : State) : Ran :=
  let o := opnd t.rec_ 0
  let r := t.rec_
  let ar := recAr r
  let ch := recK r 40 40
  let cvt := recK r 39 37
  let rm := recK r 36 34
  let sat := bitN (recW r 0) 33
  match s.prepWrites t [o.tag t.bound.asid 0 0] with
  | .again s1 => .again s1
  | .fault s1 x => .fault s1 x
  | .ok s1 l =>
    match l with
    | [] => .again s
    | (k, x) :: _ =>
      if x.tens.sck ≠ 0 ∨ !drainFmtOk cvt x.tens.fmt then .fault s (fmtTrap x)
      else
        let rows := (List.range 64).map (fun i => 64 * ar + i)
        let (e1, f1) := if cvt = 5 then (s1.engineOf t, 0)
          else rows.foldl (fun (a : Engine × Nat) m =>
            if mget a.1.cnt m 0 = 0 then a
            else let (y, f) := a.1.promote m
                 (y, a.2 ||| f)) (s1.engineOf t, 0)
        let (s2, f2, _) := rows.foldl (fun (a : State × Nat × W64) m =>
          let (cs, f, g) := drainRow e1 cvt ch rm sat x.tens.fmt m a.2.2
          (a.1.taskRow t k (m - 64 * ar) { codes := cs, damaged := e1.rowPoison.getLsbD m }, a.2.1 ||| f, g)) (s1, f1, t.rng)
        let all := decide (1 ≤ cvt ∧ cvt ≤ 4)
        let inCols (key : Nat) : Bool := decide (64 * ar ≤ key / 128 ∧ key / 128 < 64 * ar + 64) &&
          (all || key % 128 / 64 == ch)
        let e2 : Engine := if !bitN (recW r 0) 32 then e1
          else { e1 with
            acc := e1.acc.filter (fun p => !inCols p.1)
            part := e1.part.filter (fun p => !inCols p.1)
            cnt := if all then e1.cnt.filter (fun p => !(decide (64 * ar ≤ p.1 ∧ p.1 < 64 * ar + 64))) else e1.cnt
            rowPoison := if all then e1.rowPoison &&& ~~~(BitVec.ofNat 256 (2 ^ 64 - 1) <<< (64 * ar)) else e1.rowPoison }
        .done ((s2.setEngine t e2).wroteTiles t o.hint l) 72 f2

/-- `DRAIN`. -/
def execDrain (uid : Nat) (s : State) : Result := s.runTask uid 5 runDrain

/-- What `ACLR` does when it is carried out. -/
def runAclr (t : Task) (s : State) : Ran :=
  let e := s.engineOf t
  let lo := 64 * recAr t.rec_
  let hi := lo + 64 * (recK t.rec_ 40 39 + 1)
  let inR (m : Nat) : Bool := decide (lo ≤ m ∧ m < hi)
  .done (s.setEngine t { e with
    acc := e.acc.filter (fun p => !inR (p.1 / 128))
    part := e.part.filter (fun p => !inR (p.1 / 128))
    cnt := e.cnt.filter (fun p => !inR p.1)
    rowPoison := e.rowPoison &&& ~~~(BitVec.ofNat 256 (2 ^ (hi - lo) - 1) <<< lo) }) (2 + 16 * (recK t.rec_ 40 39 + 1)) 0

/-- `ACLR`. -/
def execAclr (uid : Nat) (s : State) : Result := s.runTask uid 6 runAclr

end Sys2Proof.Machine
end

