-- ==== Sys2Proof/Machine/Transfer.lean ====
section
/-! DEFINITION. The tasks of the tile transfer units: `TCPY`, `TSET`, `TXPS`, `TRED`, `TWB` (R325), `KVQ` (R326); the
prefetch engine's `ITIN` (R295); the collective engine's `CRS`, `CAG` and `CBAR` (R327). -/

namespace Sys2Proof.Machine

/-! ### Pairs of tiles -/

/-- Present tiles of X with the prepared tiles of Y, in order; then `f` checks and writes. Y is prepared first, and X must
still be there. -/
def State.pairTask (s : State) (t : Task) (f : List ((Nat × Slot) × (Nat × Slot)) → State → Ran) : Ran :=
  let x := opnd t.rec_ 0
  let y := opnd t.rec_ 1
  match s.prepWrites t (y.tags t.bound.asid y.n0) with
  | .again s1 => .again s1
  | .fault s1 q => .fault s1 q
  | .ok s1 ys =>
    match s1.tilesAt t (x.tags t.bound.asid x.n0) with
    | none => .again s
    | some xs =>
      match f (xs.zip ys) (s1.raiseFork t xs) with
      | .fault _ q => .fault s q
      | .again _ => .again s
      | .done s2 d fl => .done (((s2.readTiles t x.hint xs).wroteTiles t y.hint ys)) d fl

/-- Every code of a row. -/
def Slot.rowCodes (x : Slot) (r : Nat) : List (Nat × Nat) :=
  let row := mget x.rows r 0
  (List.range x.tens.e).map (fun e => (e, rowCode x.tens row e))

/-- What `TCPY` does when it is carried out. -/
def runTcpy (t : Task) (s : State) : Ran :=
  s.pairTask t (fun l s1 =>
    match l.find? (fun p => let a := p.1.2.tens
                            let b := p.2.2.tens
                            a.fmt != b.fmt || a.sck != b.sck || a.cbk != b.cbk) with
    | some p => .fault s1 (fmtTrap p.2.2)
    | none =>
      let s2 := l.foldl (fun s p =>
        let x := p.1.2
        (List.range 64).foldl (fun s r =>
          s.taskRow t p.2.1 r (({ codes := x.rowCodes r, damaged := x.prow.getLsbD r } : RowWrite).withScales p.2.2 r
            ((List.range x.tens.rowScales).map (fun u => (mget x.scl (x.tens.rowScales * r + u) 0).toNat))
            (if x.tens.sck = 2 then some (x.superOf r) else none))) s) s1
      .done s2 (32 * l.length) 0)

/-- `TCPY`. -/
def execTcpy (uid : Nat) (s : State) : Result := s.runTask uid 7 runTcpy

/-- The fields that a `TSET` of a tensor must have zero (Table 13-9). -/
def tsetOk (r : List W64) (d : Tensor) : Bool :=
  if 32 ≤ d.w then recK r 47 32 == 0
  else recW r 6 / 2 ^ 32 == 0 && (d.sck == 2 || recW r 6 == 0)

/-- What `TSET` does when it is carried out. -/
def runTset (t : Task) (s : State) : Ran :=
  let o := opnd t.rec_ 0
  match s.prepWrites t (o.tags t.bound.asid o.n0) with
  | .again s1 => .again s1
  | .fault s1 q => .fault s1 q
  | .ok s1 l =>
    match l.find? (fun p => !tsetOk t.rec_ p.2.tens) with
    | some p => .fault s (fmtTrap p.2)
    | none =>
      let s2 := l.foldl (fun s p =>
        let d := p.2.tens
        let code := (if 32 ≤ d.w then recW t.rec_ 6 else recK t.rec_ 47 32) % 2 ^ d.w
        (List.range 64).foldl (fun s r =>
          s.taskRow t p.1 r (({ codes := (List.range d.e).map (fun e => (e, code)) } : RowWrite).withScales p.2 r
            (List.replicate d.rowScales (recK t.rec_ 31 24)) (if d.sck = 2 then some (recW t.rec_ 6 % 2 ^ 32) else none))) s) s1
      .done (s2.wroteTiles t o.hint l) (16 * o.tiles) 0

/-- `TSET`. -/
def execTset (uid : Nat) (s : State) : Result := s.runTask uid 8 runTset

/-- What `TXPS` does when it is carried out. -/
def runTxps (t : Task) (s : State) : Ran :=
  s.pairTask t (fun l s1 =>
    match l with
    | [] => .again s1
    | (x, y) :: _ =>
      let a := x.2.tens
      let b := y.2.tens
      let sb := 64 * recK t.rec_ 47 46
      let db := 64 * recK t.rec_ 45 44
      if a.fmt ≠ b.fmt ∨ a.sck ≠ 0 ∨ b.sck ≠ 0 ∨ !(a.w == 8 || a.w == 16 || a.w == 32) ∨ a.e ≤ sb ∨ a.e ≤ db then
        .fault s1 (fmtTrap y.2)
      else
        .done ((List.range 64).foldl (fun s i =>
          s.taskRow t y.1 i { codes := (List.range 64).map (fun j => (db + j, rowCode a (mget x.2.rows j 0) (sb + i)))
                              damaged := x.2.prow != 0 }) s1) 40 0)

/-- `TXPS`. -/
def execTxps (uid : Nat) (s : State) : Result := s.runTask uid 9 runTxps

/-- Y + X of one element (R325): the code, flags. -/
def redElem (fmt rm : Nat) (sat : Bool) (draw y x : Nat) : Nat × Nat :=
  if fmt = 4 then
    let z := sIntN 32 y + sIntN 32 x
    if sat then
      let (v, c) := satI 32 false z
      (truncN 32 v, if c then fSA else 0)
    else (truncN 32 z, 0)
  else
    match (EFmt.ofCode fmt).float? with
    | none => (y, 0)
    | some f =>
      let v := xAdd (.ofField rm) (f.decode y) (f.decode x)
      let r := f.encode (.ofField rm) sat draw v.val
      (r.pat, r.flags ||| v.flags)

def redFmt (fmt : Nat) : Bool := fmt == 6 || fmt == 7 || fmt == 8 || fmt == 4

/-- What `TRED` does when it is carried out. -/
def runTred (t : Task) (s : State) : Ran :=
  s.pairTask t (fun l s1 =>
    let rm := recK t.rec_ 47 45
    let sat := bitN (recW t.rec_ 0) 44
    match l.find? (fun p => let a := p.1.2.tens
                            let b := p.2.2.tens
                            a.fmt != b.fmt || a.sck != 0 || b.sck != 0 || !redFmt a.fmt) with
    | some p => .fault s1 (fmtTrap p.2.2)
    | none =>
      let (s2, fl, _) := l.foldl (fun (a : State × Nat × W64) p =>
        (List.range 64).foldl (fun (a : State × Nat × W64) r =>
          let d := p.1.2.tens
          let xr := mget p.1.2.rows r 0
          let yr := mget p.2.2.rows r 0
          let (cs, f, g) := (List.range d.e).foldl (fun (b : List (Nat × Nat) × Nat × W64) e =>
            let g1 := if rm = 4 ∧ d.fmt ≠ 4 then srngNext b.2.2 else b.2.2
            let (c, f) := redElem d.fmt rm sat (srngDraw g1) (rowCode d yr e) (rowCode d xr e)
            (b.1 ++ [(e, c)], b.2.1 ||| f, g1)) ([], a.2.1, a.2.2)
          (a.1.taskRow t p.2.1 r { codes := cs, damaged := p.1.2.prow.getLsbD r || p.2.2.prow.getLsbD r }, f, g)) a) (s1, 0, t.rng)
      .done s2 (48 * l.length) fl)

/-- `TRED`. -/
def execTred (uid : Nat) (s : State) : Result := s.runTask uid 10 runTred

/-- What `TWB` does when it is carried out. -/
def runTwb (t : Task) (s : State) : Ran :=
  let o := opnd t.rec_ 0
  match s.tilesAt t (o.tags t.bound.asid o.n0) with
  | none => .again s
  | some xs =>
    let dirty := (o.tags t.bound.asid o.n0).flatMap (fun g => s.copiesOf (fun x => x.tag == g && x.dirty))
    let r := dirty.foldl (fun (a : State × Option (Cause × Nat × W64)) p =>
      match a.2 with
      | some _ => a
      | none => match a.1.writeBack p.1 p.2 with
        | (s1, none) => (s1, none)
        | (s1, some f) => (s1.setSlot p.1 p.2 { s1.slotOf p.1 p.2 with wbf := true }, some f)) (s, none)
    match r with
    | (s1, some (c, k, va)) => .fault s1 { cause := c, sub := k, eaddr := va }
    | (s1, none) => .done (s1.readTiles t o.hint xs) (32 * o.tiles) 0

/-- `TWB`: ascending c0, then c1; what a fault finds written stays so, and the copy that faults takes WBF (R294, R325). -/
def execTwb (uid : Nat) (s : State) : Result := s.runTask uid 12 runTwb

/-! ### `KVQ` (R326) -/

/-- One block of 32 values under a format with E8M0 scales: scale code, (code, flags) of each element. -/
def kvqMx (ef : Nat) (l : List XVal) : Nat × List (Nat × Nat) :=
  let x := mxScale ef l
  if x = 255 then
    let c := mxElem ef 127 (.nan false)
    (255, l.map (fun _ => (c.pat, fIV)))
  else (x, l.map (fun a => let r := mxElem ef x a
                           (r.pat, r.flags)))

/-- The index of R218 and its flags. -/
def kvqIndex (cands : List (Nat × XVal)) (x : XVal) : Nat × Nat :=
  if x.isNan then (0, fIV)
  else match qntPick x cands with
    | none => (0, 0)
    | some (k, v) => (k, if xCmp x v == .eq then 0 else fIX)

/-- The scale of a block under a codebook with E8M0; `open_` is the scale where the bank's largest entry is 0 or none is
finite, which no rule states. -/
def kvqCbScale (all : List XVal) (open_ : Nat) (l : List XVal) : Nat :=
  if l.any XVal.isNan then 255
  else match blockMax l with
    | .inf _ => 254
    | .nan _ => 255
    | .fin _ m e =>
      if m = 0 then 127
      else match blockMax (all.filter (fun v => !v.isInf && !v.isNan)) with
        | .fin _ k f =>
          if k = 0 then open_
          else (clampI 0 254 ((bitLen m : Int) - 1 + e - ((bitLen k : Int) - 1 + f) + 127)).toNat
        | _ => open_

def kvqFormatOk (fmt sck mode : Nat) : Bool :=
  if fmtCb fmt then decide (sck ≤ 1) && !(sck == 1 && modeInt mode)
  else sck == 1 && (fmt == 9 || fmt == 10 || fmt == 11 || fmt == 2)

def kvqEf (fmt : Nat) : Nat := match fmt with
  | 9 => 0 | 10 => 1 | 11 => 2 | _ => 3

/-- Blocks of 32. -/
def blocks32 (n : Nat) (l : List XVal) : List (List XVal) := (List.range n).map (fun b => (l.drop (32 * b)).take 32)

def runKvq (t : Task) (s : State) : Ran :=
  let x := opnd t.rec_ 0
  let y := opnd t.rec_ 1
  let wide := s.kvqWide t
  match s.prepWrites t [y.tag t.bound.asid 0 0] with
  | .again s1 => .again s1
  | .fault s1 q => .fault s1 q
  | .ok s1 ys =>
    match ys, s1.tilesAt t (x.tags t.bound.asid wide) with
    | (k, yc) :: _, some (x0 :: xr) =>
      let xs := x0 :: xr
      let d := yc.tens
      let sd := x0.2.tens
      let cp := t.copy
      if !(sd.fmt == 6 || sd.fmt == 7) || sd.sck != 0 || !kvqFormatOk d.fmt d.sck cp.mode then .fault s (fmtTrap yc)
      else
        let cands := qntCands cp (2 ^ d.w)
        if fmtCb d.fmt ∧ cands.isEmpty then .fault s { cause := .invidx }
        else
          let (fk, s1) := (s1.raiseFork t xs).draw
          let open_ := Config.freeNat fk % 255
          let allv := (qntCands cp 256).map Prod.snd
          let (s2, fl) := (List.range 64).foldl (fun (a : State × Nat) r =>
            let vals := xs.flatMap (fun z => (List.range sd.e).map (fun e =>
              opValue sd.fmt (rowCode sd (mget z.2.rows r 0) e)))
            let bl := blocks32 (d.e / 32) vals
            let res : List (Nat × List (Nat × Nat)) := bl.map (fun b =>
              if !fmtCb d.fmt then kvqMx (kvqEf d.fmt) b
              else if d.sck = 0 then (0, b.map (kvqIndex cands))
              else
                let sc := kvqCbScale allv open_ b
                (sc, b.map (fun v => kvqIndex cands (if sc = 255 then .nan false else v.times2 (127 - (sc : Int))))))
            let cs := (res.flatMap Prod.snd)
            (a.1.taskRow t k r (({ codes := cs.zipIdx.map (fun c => (c.2, c.1.1))
                                   damaged := xs.any (fun z => z.2.prow.getLsbD r) } : RowWrite).withScales yc r
                (if d.sck = 1 then res.map Prod.fst else []) none),
             cs.foldl (fun f c => f ||| c.2) a.2)) (s1, 0)
          .done ((s2.readTiles t x.hint xs).wroteTiles t y.hint ys) (64 + 32 * wide) fl
    | _, _ => .again s

/-- `KVQ`. -/
def execKvq (uid : Nat) (s : State) : Result := s.runTask uid 13 runKvq

/-! ### `ITIN` (R295) -/

/-- Read the operands of an itinerary's list: each read of 16 bytes inside one line, as a SEQ load of the task; `k` have been
read. -/
def State.readList (s : State) (t : Task) (va : W64) : Nat → List (W64 × W64) → W64 → State × Got (List (W64 × W64) × W64)
  | 0, acc, p => (s, .ok (acc, p))
  | f + 1, acc, p =>
    let a := va + BitVec.ofNat 64 (16 * acc.length)
    match s.read64 t.bound t.wing p (a &&& ~~~63#64) .poison with
    | (s1, .bad x) => (s1, .bad { x with eaddr := a })
    | (s1, .wait) => (s1, .wait)
    | (s1, .ok (l, q)) =>
      let o := a.toNat % 64 / 8
      s1.readList t va f (acc ++ [(word64 l o, word64 l (o + 1))]) q

/-- Hand the itinerary over: operands whose coordinates pass 65,535 are the task's fault, and it continues past them. -/
def State.startItin (s : State) (t : Task) : State :=
  match s.readList t ((t.rec_.drop 2).headD 0) (recK t.rec_ 47 40 + 1) [] t.fork with
  | (s1, .bad x) => s1.faultTask t.uid x
  | (s1, .wait) => s1
  | (s1, .ok (l, p)) =>
    let bad := l.any (fun o => Opnd.passes o (Opnd.n0 o))
    s1.modTask t.uid (fun y => { y with
      ran := true, phase := .dispatched s.clk, ops := l.filter (fun o => !Opnd.passes o (Opnd.n0 o)), step := 0, fork := p
      fault := if bad then y.fault <|> some (tileTrap xTilerange) else y.fault })

/-- The next tile of an itinerary. -/
def Task.nextTile (t : Task) : Option (Tag × Opnd) :=
  match t.ops with
  | [] => none
  | o :: _ => some (Opnd.tag o t.bound.asid (t.step / Opnd.n0 o) (t.step % Opnd.n0 o), o)

/-- Go past one tile. -/
def Task.passTile (t : Task) : Task :=
  match t.ops with
  | [] => t
  | o :: r => if t.step + 1 < Opnd.tiles o then { t with step := t.step + 1 } else { t with ops := r, step := 0 }

/-- A copy hits for a task's pts and a MINV (R288). -/
def State.hitsNow (s : State) (w : Nat) (g : Tag) (minv : Nat) (pts : W64) : Bool :=
  match (s.wing w).find g with
  | none => false
  | some (_, x) => !x.once && satisfies x.ver minv && decide ((wmax pts x.wts).toNat ≤ x.rts.toNat)

/-- Skip tiles that hit, each with its touch (R292); at most 64 in one clock. -/
def State.skipHits (s : State) (uid : Nat) : Nat → State
  | 0 => s
  | f + 1 =>
    match s.task? uid with
    | none => s
    | some t =>
      match t.nextTile with
      | none => s
      | some (g, o) =>
        if s.hitsNow t.wing g (Opnd.minv o) t.fork then
          (match (s.wing t.wing).find g with
           | some (k, _) => ((s.touch t.wing k).modTask uid Task.passTile).skipHits uid f
           | none => s)
        else s

/-- An itinerary whose next fill may start: fewer than 16 in flight, and the version is there (R295, R296). -/
def State.itinReady (s : State) (t : Task) : Bool :=
  match t.nextTile with
  | none => false
  | some (g, o) =>
    decide (((s.wing t.wing).fills.filter (fun f => !f.done && f.waiters.any (fun w => match w with
      | .itin _ => true
      | _ => false))).length < 16) &&
    (Opnd.minv o == 0 || satisfies (s.verOf g) (Opnd.minv o))

/-- One grant of the prefetch engine of a wing: the itinerary that R102 picks starts or joins its next fill. A tile whose lease
could be renewed is skipped without a grant. -/
def State.prefetchGrant (s : State) (w : Nat) : State :=
  let ids := (s.tasks.filter (fun t => t.wing == w && t.kind == 11 && t.ran && t.dispatched)).map Task.uid
  let s1 := ids.foldl (fun s u => s.skipHits u 64) s
  let l := s1.tasks.filter (fun t => ids.contains t.uid && s1.itinReady t)
  let offers := l.map (fun t => (⟨t.bound.qnum, t.bound.lid, t.qpa, 1, t.uid⟩ : Offer))
  let arb := (s1.wing w).prefetch.enter ((offers.map Offer.q).eraseDups)
  let s2 := s1.modWing w (fun g => { g with prefetch := arb })
  match arb.pick offers with
  | none => s2
  | some o =>
    match s2.task? o.uid with
    | none => s2
    | some t =>
      match t.nextTile with
      | none => s2
      | some (g, p) =>
        let granted (s : State) : State := s.modWing w (fun x => { x with prefetch := arb.grant (s2.tickets o.q) o })
        match s2.tileReq w t.bound g (Opnd.minv p) (Opnd.hint p) (.itin t.uid) t.fork with
        | (s3, .hit _) => s3.modTask t.uid Task.passTile
        | (s3, _) =>
          if (s3.wing w).fills.any (fun f => f.tag == g && !f.done && f.waiters.contains (.itin t.uid)) then
            (granted s3).modTask t.uid Task.passTile
          else s3

/-- `ITIN`: the list is handed over; then each execution is one grant of the prefetch engine. -/
def execItin (uid : Nat) (s : State) : Result :=
  match s.task? uid with
  | none => .next s
  | some t =>
    if !t.dispatched || t.kind != 11 then .next s
    else if t.ran then .next (s.prefetchGrant t.wing)
    else .next (s.startItin t)

/-! ### The collective engine (R327) -/

/-- Advance a generator `n` times. -/
def srngIter (g : W64) : Nat → W64
  | 0 => g
  | n + 1 => srngIter (srngNext g) n

/-- Carry out the dispatch of `CRS` or `CAG`: checks, then the packets of every row. A row of damaged data is sent as such
(R313). -/
def runRows (crs : Bool) (t : Task) (s : State) : Ran :=
  let o := opnd t.rec_ 0
  let p := opnd t.rec_ 1
  match s.tile t (o.tag t.bound.asid 0 0) with
  | none => .again s
  | some (k, x) =>
    match s.windowTile t (p.tag t.bound.asid 0 0) with
    | (s1, .bad q) => .fault s1 q
    | (s1, .wait) => .again s1
    | (s1, .ok y) =>
      let a := x.tens
      let b := y.tens
      let ok := if crs then a.fmt == b.fmt && a.sck == 0 && b.sck == 0 && (a.fmt == 6 || a.fmt == 7 || a.fmt == 4)
        else a.fmt == b.fmt && a.sck == b.sck && a.cbk == b.cbk
      if !ok then .fault s1 (fmtTrap y)
      else
        let rm := recK t.rec_ 47 45
        let (out, _) := (List.range 64).foldl (fun (acc : List Outgoing × W64) r =>
          let n := Nat.min (a.rowCount x.tag r) (b.rowCount y.tag r)
          let cs := (List.range n).map (fun e => (e, rowCode a (mget x.rows r 0) e))
          let g := acc.2
          let dmg := x.prow.getLsbD r
          let va := b.rowVa y.tag r
          let pk : List Outgoing := match s1.rowPieces t.wing t.bound.part y r (putCodes b 0 cs) cs with
            | .error _ => []
            | .ok ps =>
              if crs then ps.filterMap (fun (z : Piece) => match z.tgt with
                | .mem _ => none
                | .window w dst pa => some ⟨z.va, dst, .reduce a.fmt rm (srngIter g (((z.va - va).toNat * 8 + b.w - 1) / b.w)) dmg, pa, z.bytes, w⟩)
              else rowPackets ps (fun c => .row c dmg) (n * b.w)
          (acc.1 ++ pk, if crs ∧ rm = 4 ∧ a.fmt ≠ 4 then srngIter g a.e else g)) ([], t.rng)
        -- D of the pages that it writes (R66)
        let s1 := (s1.dirtyLeaves (t.bound.space (t.wing / 8)) (out.map Outgoing.va) y.pages).1
        .done ((s1.readTiles t o.hint [(k, x)]).modTask t.uid (fun z => { z with out := out })) 1 0

/-- One packet of the collective engine of die `d`: among the steps whose packet can leave, the one R102 picks. -/
def State.collSend (s : State) (d : Nat) : State :=
  let l := s.tasks.filter (fun t => t.wing / 8 == d && isCollective t.kind && t.ran && t.dispatched && t.fault.isNone && !t.out.isEmpty)
  let (s1, can) := l.foldl (fun (a : State × List Task) t =>
    match t.out with
    | [] => a
    | o :: _ =>
      let (s1, ok) := a.1.askAllow o.window (.task t.uid) 1
      if ok then (if a.1.fabric.roomFor o.dst then (a.1, a.2 ++ [t]) else a) else (s1, a.2)) (s, [])
  let offers := can.map (fun t =>
    let n := ((t.out.head?).map (fun o => o.bytes.length)).getD 0
    (⟨t.bound.qnum, t.bound.lid, t.qpa, Nat.min ((n + 255) / 256) 16, t.uid⟩ : Offer))
  let arb := (s1.die d).arb.enter ((offers.map Offer.q).eraseDups)
  let s2 := s1.modDie d (fun g => { g with arb := arb })
  match arb.pick offers with
  | none => s2
  | some o => (s2.modDie d (fun g => { g with arb := arb.grant (s2.tickets o.q) o })).sendOut o.uid 1

/-- A collective step: its dispatch, and then each execution sends one packet of its die. -/
def State.runColl (s : State) (uid k : Nat) (f : Task → State → Ran) : Result :=
  match s.task? uid with
  | none => .next s
  | some t => if t.ran ∧ t.kind = k ∧ t.dispatched then .next (s.collSend (t.wing / 8)) else s.runTask uid k f

/-- `CRS`. -/
def execCrs (uid : Nat) (s : State) : Result := s.runColl uid 14 (runRows true)
/-- `CAG`. -/
def execCag (uid : Nat) (s : State) : Result := s.runColl uid 15 (runRows false)

/-- The dispatch of `CBAR`: both addresses are translated and checked; the add of 1 is to be sent. -/
def runCbar (t : Task) (s : State) : Ran :=
  match s.barPlaces t with
  | (s1, .bad x) => .fault s1 x
  | (s1, .wait) => .again s1
  | (s1, .ok (w, dst, q)) =>
    .done (s1.modTask t.uid (fun z => { z with
      out := [⟨((t.rec_.drop 2).headD 0) &&& ~~~7#64, dst, .add, q, atOffsets 0 (leBytes 8 1), w⟩]
      ops := [(((t.rec_.drop 3).headD 0) &&& ~~~7#64, (t.rec_.drop 4).headD 0)], step := 1 })) 1 0

/-- One acquiring read of the word at `va` by a `CBAR`, which translates it afresh (R78, R327): done once it has reached the
target. A failed translation is the task's fault. -/
def State.barRead (s : State) (t : Task) (va target : W64) : State :=
  let fail (s : State) (c : Cause) (x : Nat) : State := s.modTask t.uid (fun z => { z with
    ops := [], fault := z.fault <|> some { cause := c, sub := x, eaddr := va } })
  match s.xlateWing (t.bound.space (t.wing / 8)) t.wing va .load with
  | (s1, .miss) => s1
  | (s1, .fault c x) => fail s1 c x
  | (s1, .ok pa _) =>
    if !paHome pa then fail s1 .xlate xPerm
    else
      let r := s1.loadLine none (t.wing / 8) t.bound.asid t.fork (pa / 256) true
      let v := leNat ((r.data.drop (pa % 256)).take 8)
      r.st.modTask t.uid (fun z => { z with fork := r.pts, ops := if target.toNat ≤ v then [] else z.ops })

/-- `CBAR`: dispatch; its add leaves; then each execution is one acquiring read of the local word. -/
def execCbar (uid : Nat) (s : State) : Result :=
  match s.task? uid with
  | none => .next s
  | some t =>
    match t.ran, t.out, t.ops with
    | true, [], (va, target) :: _ => if t.kind ≠ 16 then .next s else .next (s.barRead t va target)
    | _, _, _ => s.runColl uid 16 runCbar

end Sys2Proof.Machine
end

