-- ==== Sys2Proof/Machine/PgPass.lean ====
section
/-! DEFINITION. `PGPASS` (R338 to R342): the page is closed to writes, its writes and dirty tiles are waited for, and the
writer set and the flag change at one stamp. -/

namespace Sys2Proof.Machine

/-- The page that a leaf maps: physical base and size (R61). -/
def Tlb.page (t : Tlb) : Nat × Nat := (ptePa t.w0, t.size)
def inPage (p : Nat × Nat) (pa : Nat) : Bool := decide (p.1 ≤ pa ∧ pa < p.1 + p.2)

/-- Physical addresses of the leaf entries of a run (R61). -/
def Tlb.run (t : Tlb) : List Nat :=
  let c := Nat.max 1 (t.size / 2 ^ (12 + 9 * t.level))
  let base := t.pte - 16 * (t.pte / 16 % c)
  (List.range c).map (fun i => base + 16 * i)

/-- A leaf's page and a page overlap. -/
def Tlb.meets (t : Tlb) (p : Nat × Nat) : Bool := decide (ptePa t.w0 < p.1 + p.2 ∧ p.1 < ptePa t.w0 + t.size)

/-- A copy touches a page. -/
def Slot.touches (x : Slot) (p : Nat × Nat) : Bool := x.pages.any (fun t => t.meets p)

/-- A target lies in a page. -/
def Target.inPage (g : Target) (p : Nat × Nat) : Bool := match g with
  | .mem pa => decide (p.1 ≤ pa ∧ pa < p.1 + p.2)
  | .window _ _ _ => false

/-- A leaf kept with the operation while the page is closed. -/
def packTlb (t : Tlb) : VV :=
  ⟨BitVec.ofNat 2048 (packN 64 [t.asid, t.level, t.base, t.w0.toNat, t.w1.toNat, t.pte]), 0⟩
def unpackTlb (x : VV) : Tlb :=
  let e (i : Nat) : Nat := elemN x.v 64 i
  ⟨e 0, e 1, e 2, BitVec.ofNat 64 (e 3), BitVec.ofNat 64 (e 4), e 5⟩

/-- Width and address of the flag. -/
def flagPlace (w : Bool) (fl : W64) : Nat × W64 := if w then (4, fl &&& ~~~3#64) else (8, fl &&& ~~~7#64)

/-- The physical address of the flag of a `PGPASS` that has closed its page. -/
def Entry.passFlag (e : Entry) : Option Nat :=
  match e.instr with
  | .pgpass _ _ _ _ _ w _ _ =>
    if e.step = 1 then some ((unpackTlb ((e.z.drop 2).headD VV.zero)).pa (flagPlace w e.yv).2) else none
  | _ => none

/-- A write on a page that has resolved and not performed: a queued write or an atomic of any strand, or the flag of another
`PGPASS` than operation `id` (R338). -/
def State.writePending (s : State) (id : Nat) (p : Nat × Nat) : Bool :=
  s.strands.any (fun st =>
    st.2.wq.any (fun q => q.pieces.any (fun x => x.tgt.inPage p)) ||
    st.2.open_.any (fun e => (e.resolved && (match e.instr with
      | .amo .. => true
      | .cas .. => true
      | _ => false) && e.rds.any (fun r => r.tgt.inPage p)) || (e.id != id && e.passFlag.any (inPage p))))

/-- A dispatched task whose write set touches a page, through a copy or a slot kept for a tile that it writes in full. -/
def State.taskPending (s : State) (p : Nat × Nat) : Bool :=
  s.tasks.any (fun t => t.dispatched && (writeOpnds t.rec_).any (fun i =>
    ((opnd t.rec_ i).tags t.bound.asid (opndWide t.rec_ (s.kvqWide t) i)).any (fun g =>
      (match s.tile t g with
       | some (_, x) => x.touches p
       | none => false) ||
        (s.wing t.wing).fills.any (fun f => f.zero && f.tag == g && f.pages.any (fun u => u.meets p)))))

/-- Put a writer set into word 1 of a leaf. -/
def withWs (w : W64) (ws : Nat) : W64 := (w &&& ~~~0x60#64) ||| BitVec.ofNat 64 (ws % 4 * 32)

/-- The page of a cached leaf is the one passed. -/
def Tlb.passWs (p : Nat × Nat) (ws : Nat) (t : Tlb) : Tlb := if t.page = p then { t with w1 := withWs t.w1 ws } else t

/-- Every cached translation of a page takes the new writer set, and no die keeps a leased copy of a line of its leaf entries,
from which a walk could read the old one (R338, R339). -/
def State.passCaches (s : State) (p : Nat × Nat) (run : List Nat) (ws : Nat) : State :=
  let f := Tlb.passWs p ws
  { s with
    cores := s.cores.map (fun c => (c.1, { c.2 with tlb := c.2.tlb.map f }))
    wings := s.wings.map (fun w => (w.1, { w.2 with
      tlb := w.2.tlb.map f
      slots := w.2.slots.map (fun x => (x.1, { x.2 with pages := x.2.pages.map f }))
      fills := w.2.fills.map (fun x => { x with pages := x.pages.map f }) }))
    dies := s.dies.map (fun d => (d.1, { d.2 with
      l2 := d.2.l2.filter (fun c => !(run.map (· / 256)).contains c.1)
      walk := d.2.walk.map (fun e => if run.contains e.pa then { e with w1 := withWs e.w1 ws } else e) })) }

/-- The checks of `PGPASS` before `Close`: its two leaves, a trap, or a wait. -/
def State.passCheck (s : State) (n : Nat) (pg fl fa : W64) : State × Except (Option Trap) (Tlb × Tlb) :=
  let bad (c : Cause) (x : Nat) (va : W64) : Except (Option Trap) (Tlb × Tlb) :=
    .error (some { cause := c, sub := x, slot := 2, eaddr := va })
  match s.xlate n pg .load with
  | (s1, .miss) => (s1, .error none)
  | (s1, .fault c x) => (s1, bad c x pg)
  | (s1, .ok pa p) =>
    match s1.xlate n fa .load with
    | (s2, .miss) => (s2, .error none)
    | (s2, .fault c x) => (s2, bad c x fa)
    | (s2, .ok fpa f) =>
      if paKind pa ≠ .mod ∨ !pteWr p.w0 then (s2, bad .xlate xPerm pg)
      else if paKind fpa ≠ .mod ∨ !pteWr f.w0 then (s2, bad .xlate xPerm fa)
      else if !wsAdmits (leafWs p.w1) (dieOf n) then (s2, bad .wrperm 0 pg)
      else if !wsAdmits (leafWs f.w1) (dieOf n) then (s2, bad .wrperm 0 fl)
      -- the flag write resolves here, and waits while another `PGPASS` has its page closed (R339)
      else if s2.closedAt fpa then (s2, .error none)
      else (s2, .ok (p, f))

/-- The changes at one stamp: the leaf entries, the cached translations, the flag (R338); `lines` are those that the
write-back wrote. -/
def State.passStamp (s : State) (n : Nat) (p f : Tlb) (fa : W64) (w ws : Nat) (add : Bool) (v : W64) (lines : List Nat) : State :=
  -- the flag's page is written: its D is set as any write sets it (R66)
  let sd := match (s.strand n).bound with
    | none => s
    | some b => (s.dirtyLeaf (b.space (dieOf n)) f fa).1
  let fpa := f.pa fa
  let old := leNat (sd.readBytes fpa w)
  let new := if add then old + v.toNat else v.toNat
  let leaf : List (Nat × Byte) := p.run.flatMap (fun pa =>
    let w0 := word64 (sd.readBytes pa 8) 0
    let w1 := word64 (sd.readBytes (pa + 8) 8) 0
    if pteV w0 && pteLf w0 then atOffsets (pa + 8) (leBytes 8 (withWs w1 ws).toNat) else [])
  let bytes := leaf ++ atOffsets fpa (leBytes w (new % 2 ^ (8 * w)))
  let s2 := match (sd.strand n).bound with
    | none => sd
    | some b => sd.logBytes b.lid (dieOf n) bytes
  let ts := s2.storeStamp (s2.pts n) ((lines ++ bytes.map (fun (b : Nat × Byte) => b.1 / 256)).eraseDups)
  ((s2.storeAt ts bytes).passCaches p.page p.run ws).setPts n ts

def State.openPage (s : State) (id : Nat) : State :=
  { s with cur8 := { s.cur8 with closed := s.cur8.closed.filter (fun c => c.2.2 != id) } }

/-- The steps after `Close`: the page's writes are waited for, its dirty tiles written back, and everything changes at one
stamp; only the write-back can still trap (R340). -/
def State.passGo (s : State) (n : Nat) (w ws : Nat) (fa : W64) (add : Bool) (e : Entry) : State :=
  let p := unpackTlb ((e.z.drop 1).headD VV.zero)
  let f := unpackTlb ((e.z.drop 2).headD VV.zero)
  if s.writePending e.id p.page || s.taskPending p.page then s
  else
    -- lines of the page that the write-back writes: rows, and scales that a task has written (R294)
    let lines := ((s.copiesOf (fun x => x.dirty && x.touches p.page)).flatMap (fun k =>
      let x := s.slotOf k.1 k.2
      (x.lines (List.range 64) ++ x.own.map Prod.fst).filter (fun l => inPage p.page (256 * l)))).eraseDups
    match s.writeBackAll (fun x => x.touches p.page) with
    | (s2, some (c, k, va)) => (s2.openPage e.id).trapEntry n e { cause := c, sub := k, slot := 2, eaddr := va }
    | (s2, none) => ((s2.passStamp n p f fa w ws add e.zv lines).openPage e.id).finishC n e []

/-- One clock of `PGPASS`: step 0 checks, waits for earlier accesses, and closes the page; step 1 is the rest. -/
def pgpassGo (w : Bool) (ws : Nat) (add : Bool) (e : Entry) (s : State) : State :=
  let n := s.cur
  let (fw, fa) := flagPlace w e.yv
  if e.step = 1 then s.passGo n fw ws fa add e
  else
    match s.passCheck n e.xv e.yv fa with
    | (s1, .error none) => s1
    | (s1, .error (some t)) => s1.trapEntry n e t
    | (s1, .ok (p, f)) =>
      if !(s1.strand n).performedBefore e.seq e.slot || s1.closedAt p.page.1 then s1
      else ({ s1 with cur8 := { s1.cur8 with closed := s1.cur8.closed ++ [(p.page.1, p.page.2, e.id)] } }).modEntry n e.id
        (fun x => { x with step := 1, z := x.z.take 1 ++ [packTlb p, packTlb f] })

/-- `PGPASS`. -/
def execPgpass (d a b : BitVec 6) (p q w : Bool) (t : BitVec 2) (c : Bool) (s : State) : Result :=
  s.runWaitC (.pgpass d a b p q w t c) (fun x k => if k = 0 then x.av else (flagPlace w x.bv).2) noTrap (pgpassGo w t.toNat c)

end Sys2Proof.Machine
end

