-- ==== Sys2Proof/Machine/Fabric.lean ====
section
/-! DEFINITION. The fabric interface and the commit agent: arriving requests (R350, R353, R354), acknowledgements and
resending (R355), links (R344), identity tables and windows (R347, R348, R351), takeover (R357, R358); and the agents at
the host ports (R246, R247), the clock advance of pts (R232) and the patrol scrubber (R235). -/

namespace Sys2Proof.Machine

def State.setFabric (s : State) (f : Fabric) : State := { s with fabric := f }
def Fabric.setSrc (f : Fabric) (dst : Nat) (p : PairSrc) : Fabric := { f with src := mset f.src dst p }
def Fabric.setDst (f : Fabric) (src : Nat) (p : PairDst) : Fabric := { f with dst := mset f.dst src p }
def Fabric.tell (f : Fabric) (l : List Nat) : Fabric := { f with reports := f.reports ++ [l] }

/-- All bytes of a range lie in module memory. -/
def inModule (pa len : Nat) : Bool := decide (pa + len ≤ moduleEnd)

/-! ### The target side (R350, R354) -/

/-- Send the cumulative acknowledgement of a pair: to its source, or into this module's inbox in the pair (m, m). -/
def State.sendAck (s : State) (src : Nat) : State :=
  let p := s.fabric.pairDst src
  let c := (p.expected + 2 ^ 32 - 1) % 2 ^ 32
  -- a refusal is repeated while the source may not have heard of it: 4,096 numbers at most are unacknowledged (R353, R354)
  let refs := p.refusals.filter (fun r => decide ((c + 2 ^ 32 - r) % 2 ^ 32 < 4096))
  let s1 := s.setFabric (s.fabric.setDst src { p with unackedN := 0, owed := 0, refusals := refs })
  if some src = s.fabric.own then { s1 with inbox := s1.inbox ++ [.ackReceived src c refs] }
  else s1.sendOver src (fun h => .ack h src c refs)

/-- The number under which a unit's returns arrive (log entry 14). -/
def Waiter.unit : Waiter → Nat × Nat
  | .op n id => (n, id)
  | .fill w id => (2048 + w, id)
  | .stream n q => (4096 + n, q)
  | .task uid => (0, uid)
  | .itin uid => (0, uid)
  | .front lid => (0, lid)
  | .prep uid => (6144, uid)

/-- Return a value for request `seqno` of module `src`. -/
def State.sendData (s : State) (src seqno : Nat) (bs : List Byte) : State :=
  if some src = s.fabric.own then
    match (s.fabric.pairSrc src).unacked.find? (fun k => k.seqno == seqno) with
    | none => s
    | some k => { s with inbox := s.inbox ++ [.loadReturn k.who.unit.1 k.who.unit.2 bs false] }
  else s.sendOver src (fun h => .data h src seqno bs)

/-- The elements of `k` bytes of a payload, in order. -/
def rowElems (k : Nat) : Nat → List (Nat × Byte) → List (List (Nat × Byte))
  | 0, _ => []
  | _, [] => []
  | f + 1, b :: r => (b :: r).take k :: rowElems k f ((b :: r).drop k)

/-- Bytes that a reduce write leaves: each element added to the one there, in order (R48, R327). -/
def State.reduced (s : State) (fmt rm : Nat) (rng : W64) (pa : Nat) (bytes : List (Nat × Byte)) : List (Nat × Byte) :=
  let k := fmtBits fmt / 8
  ((rowElems k bytes.length bytes).foldl (fun (a : List (Nat × Byte) × W64) e =>
    let g := if rm = 4 ∧ fmt ≠ 4 then srngNext a.2 else a.2
    let y := leNat (e.map (fun b => (s.readBytes (pa + b.1) 1).headD 0))
    let z := leBytes k (redElem fmt rm false (srngDraw g) y (leNat (e.map Prod.snd))).1
    (a.1 ++ (e.zip z).map (fun p => (pa + p.1.1, p.2)), g)) ([], rng)).1

/-- Write by the commit agent (R243). -/
def State.commitStore (s : State) (bytes : List (Nat × Byte)) : State :=
  let (s1, ts) := s.store s.fabric.commitPts bytes
  s1.setFabric { s1.fabric with commitPts := ts }

/-- The bytes a request touches lie in module memory. -/
def pktInside (kind : PktKind) (pa : Nat) (bytes : List (Nat × Byte)) : Bool :=
  match kind with
  | .load len => inModule pa len
  | .atomic op => inModule pa (if op = 9 then 4 else 8)
  | .add => inModule pa 8
  | _ => bytes.all (fun b => inModule (pa + b.1) 1)

/-- Bytes of a payload with offsets from `o` on, below `o + n`, as a value. -/
def payloadNat (bytes : List (Nat × Byte)) (o n : Nat) : Nat :=
  leNat ((List.range n).map (fun j => ((bytes.find? (fun b => b.1 == o + j)).map Prod.snd).getD 0))

/-- Lines keep their marks or take one, by damaged data written (R313, R373). -/
def State.markLines (s : State) (l : List Nat) : State := l.foldl State.mark s

/-- Replace the last byte of a row's payload, of which `bits` low bits are the row's, by its mixture with the byte in memory
(R70, R327). -/
def State.mixLast (s : State) (pa bits : Nat) (bytes : List (Nat × Byte)) : List (Nat × Byte) :=
  if bits = 0 then bytes
  else match bytes.getLast? with
    | none => []
    | some (o, b) => bytes.dropLast ++ [(o, mixByte ((s.readBytes (pa + o) 1).headD 0) b (BitVec.ofNat 8 (2 ^ bits - 1)))]

/-- Reads at the homes of lines by an agent with program timestamp `pts` (R231). -/
def State.readHomes (s : State) (pts : W64) (lines : List Nat) : State × W64 :=
  lines.foldl (fun (a : State × W64) l => a.1.readHome a.2 l) (s, pts)

/-- The effect of a request that is not refused: one SEQ access of the commit agent (R243, R244, R327). A read of a
marked line returns one byte more (R371, log entry 14). -/
def State.commitEffect (s : State) (src seqno : Nat) (kind : PktKind) (pa : Nat) (bytes : List (Nat × Byte)) : State :=
  let tagged (m : Bool) (l : List Byte) : List Byte := if m then l ++ [1] else l
  let at_ (l : List (Nat × Byte)) : List (Nat × Byte) := l.map (fun b => (pa + b.1, b.2))
  let lines := (bytes.map (fun b => (pa + b.1) / 256)).eraseDups
  match kind with
  | .store => s.commitStore (at_ bytes)
  | .mcst _ => s.commitStore (at_ bytes)
  | .row bits dmg =>
    let t := s.commitStore (at_ (s.mixLast pa bits bytes))
    if dmg then t.markLines lines else t
  | .reduce fmt rm rng dmg =>
    -- a sum of damaged data is damaged
    (s.commitStore (s.reduced fmt rm rng pa bytes)).markLines (if dmg then lines else lines.filter s.marked)
  | .add =>
    let (s1, ts, _, _, _) := s.atomicAt s.fabric.commitPts 0 pa 8 1 0
    s1.setFabric { s1.fabric with commitPts := ts }
  | .load len =>
    let ls := linesOf pa len
    let (s1, p) := s.readHomes s.fabric.commitPts ls
    (s1.setFabric { s1.fabric with commitPts := p }).sendData src seqno (tagged (ls.any s1.marked) (s1.readBytes pa len))
  | .atomic op =>
    let w := if op = 9 then 4 else 8
    let b := BitVec.ofNat 64 (payloadNat bytes 0 w)
    let x := BitVec.ofNat 64 (payloadNat bytes 8 8)
    let (s1, ts, old, m, _) := s.atomicAt s.fabric.commitPts op pa w b x
    (s1.setFabric { s1.fabric with commitPts := ts }).sendData src seqno (tagged m (leBytes w old.toNat))

/-- The packet is refused by the entry of its source (R350). -/
def Fabric.refuses (f : Fabric) (src part : Nat) : Bool :=
  let w := f.entry src
  !idV w || !idEn w || (idPart w != 0 && idPart w != part)

/-- Whether a value's return acknowledges the packet, so that no acknowledgement is owed for it (R354). -/
def pktReturns (kind : Nat) : Bool := match pktKindOf kind with
  | some (.load _) => true
  | some (.atomic _) => true
  | _ => false

/-- Commit or refuse the packet whose number is the expected one; an acknowledgement leaves after every 64 commits, those of
loads and atomics included. None where its address lies outside module memory. -/
def State.commitNext (s : State) (src : Nat) (h : HeldPkt) : Option State :=
  let p := s.fabric.pairDst src
  let next := (h.seqno + 1) % 2 ^ 32
  let counted (owes : Bool) (ref : List Nat) : PairDst :=
    { p with expected := next, unackedN := p.unackedN + 1, owed := p.owed + (if owes then 1 else 0)
             since := if owes && p.owed == 0 then s.clk else p.since, refusals := p.refusals ++ ref }
  let ackIf (t : State) : State := if 64 ≤ (t.fabric.pairDst src).unackedN then t.sendAck src else t
  if s.fabric.refuses src h.part then
    some (ackIf (s.setFabric (s.fabric.setDst src (counted true [h.seqno]))))
  else
    match pktKindOf h.kind with
    | none => some (ackIf (s.setFabric (s.fabric.setDst src (counted true []))))
    | some kind =>
      let bytes := pktBytes h.data
      if !pktInside kind h.pa bytes then none
      else
        let s1 := s.setFabric (s.fabric.setDst src (counted (!pktReturns h.kind) []))
        some (ackIf (s1.commitEffect src h.seqno kind h.pa bytes))

/-- A packet's write touches a page that a `PGPASS` has closed: the commit agent does not resolve it until the page is open
(R338). -/
def State.commitWaits (s : State) (src : Nat) (h : HeldPkt) : Bool :=
  !s.fabric.refuses src h.part && (match pktKindOf h.kind with
    | none => false
    | some (.load _) => false
    | some _ => s.closedAt h.pa || (pktBytes h.data).any (fun b => s.closedAt (h.pa + b.1)))

/-- The packet as it comes back to the commit agent: what it forwards has been forwarded. -/
def HeldPkt.again (h : HeldPkt) (src dst : Nat) : Instr :=
  let kind := match pktKindOf h.kind with
    | some (.mcst _) => (PktKind.mcst []).code
    | _ => h.kind
  .requestPacketArrival src dst h.seqno h.epoch h.part kind h.pa h.data

/-- Held packets that are now next are committed in turn (R354). A held packet whose epoch has meanwhile changed is
discarded (R350); one whose page is closed comes back behind the inputs that wait (R338). -/
def State.drainHeld (s : State) (src : Nat) : Nat → Option State
  | 0 => some s
  | f + 1 =>
    let p := s.fabric.pairDst src
    match p.held.find? (fun h => h.seqno == p.expected) with
    | none => some s
    | some h =>
      let s1 := s.setFabric { s.fabric.setDst src { p with held := p.held.filter (fun x => x.seqno != h.seqno) } with
        reorder := s.fabric.reorder - 1 }
      if h.epoch ≠ idEpoch (s.fabric.entry src) then some s1
      else if s1.commitWaits src h then some { s1 with inbox := s1.inbox ++ [h.again src (s.fabric.own.getD 0)] }
      else
        match s1.commitNext src h with
        | none => none
        | some s2 => s2.drainHeld src f

/-- A multicast goes on to the next target of its chain, with that target's number (R278, R356). -/
def State.forwardChain (s : State) (src epoch part kind pa : Nat) (data : List Byte) : State :=
  match pktKindOf kind with
  | some (.mcst ((l, q) :: rest)) =>
    if some l = s.fabric.own then
      { s with inbox := s.inbox ++ [.requestPacketArrival src l q epoch part (PktKind.mcst rest).code pa data] }
    else s.sendOver l (fun h => .packet h src l q epoch part (.mcst rest) pa (pktBytes data))
  | _ => s

/-- The kind of an arriving packet of the response class: an acknowledgement, a refusal or a returned value of other modules. What
this module is sent of these arrives as `ACK_RECEIVED` and `LOAD_RETURN` (R344, log entry 14). -/
def ofResponse (kind : Nat) : Bool := kind % 8 == 7

/-- `REQUEST_PACKET_ARRIVAL`: Table of R354, after the epoch check of R350. A packet for another module, of either class, goes on
over the hop that this module's table names (R345). A multicast that is accepted is forwarded. A packet whose page is closed comes back behind
the inputs that wait, which the order of its pair's numbers allows (R338). -/
def execRequestPacketArrival (src dst seq epoch part kind pa : Nat) (data : List (BitVec 8)) (s : State) : Result :=
  if ofResponse kind then
    .next (if some dst = s.fabric.own then s else s.sendOver dst (fun h => .response h src dst seq kind data))
  else if some dst ≠ s.fabric.own then
    (match pktKindOf kind with
     | none => .next s
     | some k => .next (s.sendOver dst (fun h => .packet h src dst seq epoch part k pa (pktBytes data))))
  else if epoch ≠ idEpoch (s.fabric.entry src) then .next s
  else
    let p := s.fabric.pairDst src
    let h : HeldPkt := { seqno := seq % 2 ^ 32, epoch := epoch, part := part, kind := kind, pa := pa, data := data }
    let d := (seq + 2 ^ 32 - p.expected % 2 ^ 32) % 2 ^ 32
    if d = 0 then
      if s.commitWaits src h then .next { s with inbox := s.inbox ++ [.requestPacketArrival src dst seq epoch part kind pa data] }
      else
      match (s.commitNext src h).bind (fun t => t.drainHeld src 4096) with
      | none => .fault .reservedAddress
      | some t => .next (t.forwardChain src epoch part kind pa data)
    else if d < 4096 then
      if p.held.any (fun x => x.seqno == h.seqno) ∨ 16384 ≤ s.fabric.reorder then .next s
      else .next ((s.setFabric { s.fabric.setDst src { p with held := p.held ++ [h] } with
        reorder := s.fabric.reorder + 1 }).forwardChain src epoch part kind pa data)
    else if 2 ^ 31 ≤ d then .next (s.sendAck src)
    else .next s

/-- `ACK_TIMER`: the acknowledgement owed to a pair leaves (R354). -/
def execAckTimer (src : Nat) (s : State) : Result :=
  .next (if (s.fabric.pairDst src).owed = 0 then s else s.sendAck src)

/-! ### The source side (R350, R355) -/

/-- A strand's record of its posted writes after an acknowledgement: what was refused stays until it is reported. -/
def Strand.settlePosted (st : Strand) (dst : Nat) (seqs refused : List Nat) : Strand :=
  { st with
    posted := (st.posted.map (fun p =>
      if p.dst = dst ∧ refused.contains p.seqno ∧ seqs.contains p.seqno then { p with refused := true } else p)).filter
        (fun p => p.refused || !(p.dst == dst && seqs.contains p.seqno)) }

/-- The end of one retained packet of a task, or the refusal of a request that waits for a value. -/
def State.settlePacket (s : State) (k : Packet) (refused : Bool) : State :=
  match k.who with
  | .task uid =>
    let s1 := s.modTask uid (fun x => { x with pend := x.pend - 1 })
    if refused && (s1.task? uid).any Task.dispatched then
      s1.faultTask uid { cause := .peer, sub := peerRefused, eaddr := k.va }
    else s1
  | .op n id => if refused && k.kind.returns then s.returnTo n id [] true else s
  | .fill w id => if refused && k.kind.returns then s.returnToFill w id [] true else s
  | .stream n q => if refused && k.kind.returns then s.returnToStream n q [] true else s
  | .itin _ => s
  | .front _ => s
  | .prep u => if refused && k.kind.returns then s.returnToPrep u [] true else s

/-- A cumulative acknowledgement of `c` covers a packet (R354). -/
def Packet.covered (c : Nat) (k : Packet) : Bool := decide ((c + 2 ^ 32 - k.seqno) % 2 ^ 32 < 2 ^ 31)

/-- `ACK_RECEIVED`: every retained packet up to `c` leaves the retention buffer and gives back its unit of the allowance;
a refusal is reported to its issuer (R350, R352, R355). -/
def execAckReceived (dst c : Nat) (refusals : List Nat) (s : State) : Result :=
  let p := s.fabric.pairSrc dst
  let gone := p.unacked.filter (Packet.covered c)
  if gone.isEmpty then .next s
  else
    let refused (k : Packet) : Bool := refusals.contains k.seqno
    let f := s.fabric.setSrc dst
      { p with unacked := p.unacked.filter (fun k => !k.covered c), advanced := s.clk, reported := false }
    let s1 := s.setFabric { f with
      awaits := f.awaits.filter (fun w => !gone.any (fun k => k.kind.returns && refused k && k.who.same w)) }
    let seqs := gone.map Packet.seqno
    let s2 := { s1 with
      strands := s1.strands.map (fun (q : Nat × Strand) => (q.1, q.2.settlePosted dst seqs refusals))
      saved := s1.saved.map (fun g =>
        { g with strands := g.strands.map (fun (q : Nat × Strand) => (q.1, q.2.settlePosted dst seqs refusals)) }) }
    .next (gone.foldl (fun s k => s.settlePacket k (refused k)) s2)

/-- Send every retained packet of a pair again, in sequence order (R355, R358). -/
def State.resendAll (s : State) (dst : Nat) : State :=
  let p := s.fabric.pairSrc dst
  let s1 := s.setFabric (s.fabric.setSrc dst { p with unacked := p.unacked.map (fun k => { k with sent := true }) })
  p.unacked.foldl (fun s k => s.emit dst k.seqno k.part k.kind k.pa k.bytes k.who) s1

/-- A pair has waited `n` clocks for an acknowledgement, and its number is not held (R355, R357). -/
def State.pairStale (s : State) (dst n : Nat) : Bool :=
  let p := s.fabric.pairSrc dst
  !p.outstanding.isEmpty && !idHold (s.fabric.entry dst) && decide (p.advanced + n ≤ s.clk)

/-- `RETENTION_RESEND`. -/
def execRetentionResend (dst : Nat) (s : State) : Result := .next (if s.pairStale dst 65536 then s.resendAll dst else s)

/-- `DESTINATION_FAILURE_REPORT`: the Curator is told once. -/
def execDestinationFailureReport (dst : Nat) (s : State) : Result :=
  let p := s.fabric.pairSrc dst
  if s.pairStale dst (2 ^ 24) && !p.reported then
    .next (s.setFabric ((s.fabric.setSrc dst { p with reported := true }).tell [1, dst]))
  else .next s

/-! ### Links (R344) -/

/-- `LINK_RETRAIN_FAIL`: the link carries nothing further; the Curator is told. -/
def execLinkRetrainFail (glob : Bool) (idx : Nat) (s : State) : Result :=
  if s.fabric.failedLinks.contains (glob, idx) then .next s
  else
    .next (s.setFabric ({ s.fabric with failedLinks := s.fabric.failedLinks ++ [(glob, idx)] }.tell
      [2, if glob then 1 else 0, idx]))

/-- `FLIT_CRC_RETRY`: the link layer resends the flit; only latency changes. -/
def execFlitCrcRetry (_glob : Bool) (_idx : Nat) (s : State) : Result := .next s

/-! ### Identity tables and windows (R347, R348, R351) -/

/-- `IDENTITY_SHADOW_WRITE`. -/
def execIdentityShadowWrite (idx : Nat) (w : BitVec 32) (s : State) : Result :=
  if idx < 2 ^ 15 then .next (s.setFabric { s.fabric with shadow := mset s.fabric.shadow idx w }) else .next s

/-- Pairs that leave the takeover hold send what they retain, from the oldest (R357, R358). -/
def State.releaseHolds (s : State) (old : Fabric) : State :=
  s.fabric.src.foldl (fun (s : State) (p : Nat × PairSrc) =>
    if idHold (old.entry p.1) && !idHold (s.fabric.entry p.1) && !p.2.unacked.isEmpty then
      (s.setFabric (s.fabric.setSrc p.1 { s.fabric.pairSrc p.1 with advanced := s.clk })).resendAll p.1
    else s) s

/-- When an entry is first enabled, both numbers of its pairs are 0 (R353). -/
def Fabric.enableNew (f : Fabric) : Fabric :=
  (f.active.filter (fun p => idEn p.2 && !f.enabled.contains p.1)).foldl (fun (f : Fabric) p =>
    let g := (f.setSrc p.1 { f.pairSrc p.1 with next := 0 }).setDst p.1 { f.pairDst p.1 with expected := 0 }
    { g with enabled := p.1 :: g.enabled }) f

/-- `IDENTITY_SWAP`: all copies swap banks, with the module's own number where it is given; the new shadow bank becomes a
copy of the new active one (R348). -/
def execIdentitySwap (own : Option Nat) (s : State) : Result :=
  let f := s.fabric
  .next ((s.setFabric ({ f with active := f.shadow, own := own <|> f.own } : Fabric).enableNew).releaseHolds f)

/-- `WINDOW_REGISTER_WRITE`: later accesses use the new value (R351). -/
def execWindowRegisterWrite (w : Nat) (w0 w8 : BitVec 64) (s : State) : Result :=
  if w < 64 then .next (s.setFabric { s.fabric with windows := mset s.fabric.windows w (w0, w8) }) else .next s

/-! ### Spare takeover (R357, R358) -/

def setHold (m : AMap W32) (l : Nat) : AMap W32 := mset m l (mget m l 0 ||| 0x20000000#32)

/-- `TAKEOVER_HOLD`: step 1. -/
def execTakeoverHold (lmn : Nat) (s : State) : Result :=
  .next (s.setFabric { s.fabric with active := setHold s.fabric.active lmn, shadow := setHold s.fabric.shadow lmn })

/-- `TAKEOVER_REPORT`: step 2. -/
def execTakeoverReport (lmn : Nat) (s : State) : Result :=
  let p := s.fabric.pairSrc lmn
  .next (s.setFabric (s.fabric.tell
    [3, lmn, ((p.unacked.head?).map Packet.seqno).getD p.next, (s.fabric.pairDst lmn).expected]))

/-- `SPARE_SETUP`: step 3, in the spare. `seqs` lists (X, Ao, Ei) for every peer X. -/
def execSpareSetup (lmn : Nat) (entries : List (Nat × BitVec 32)) (seqs : List (Nat × Nat × Nat))
    (image : List (Nat × BitVec 8)) (s : State) : Result :=
  if !image.all (fun b => inModule b.1 1) then .fault .reservedAddress
  else
    let s1 := s.commitStore image
    let f := s1.fabric
    let put (m : AMap W32) : AMap W32 := entries.foldl (fun m e => mset m e.1 e.2) m
    let f0 := ({ f with active := put f.active, shadow := put f.shadow, own := some lmn } : Fabric).enableNew
    .next (s1.setFabric (seqs.foldl (fun (f : Fabric) x =>
      (f.setDst x.1 { f.pairDst x.1 with expected := x.2.1 % 2 ^ 32 }).setSrc x.1
        { f.pairSrc x.1 with next := x.2.2 % 2 ^ 32 }) f0))

/-! ### Host agents (R246, R247) -/

/-- The CXL port whose host-line home is that of a host line (R230). -/
def hostPort (line : Nat) : Nat := line % 4

/-- A store of a host port's agent (R231). -/
def State.portStore (s : State) (port : Nat) (bytes : List (Nat × Byte)) : State :=
  let (s1, ts) := s.store (mget s.portPts port 0) bytes
  { s1 with portPts := mset s1.portPts port ts }

def State.out (s : State) (o : Out) : State := s.setFabric { s.fabric with sent := s.fabric.sent ++ [o] }

/-- `HOST_SNOOP_WRITE`: a host write that reaches the module as a snoop is a store, line by line, of the agent of the port where
the line's home is (R230, R246). -/
def execHostSnoopWrite (_port pa : Nat) (data : List (BitVec 8)) (s : State) : Result :=
  if data.isEmpty then .next s
  else if paKind pa ≠ .host ∨ paKind (pa + data.length - 1) ≠ .host then .fault .reservedAddress
  else
    .next ((linesOf pa data.length).foldl (fun s l =>
      s.portStore (hostPort l) ((atOffsets pa data).filter (fun b => b.1 / 256 == l))) s)

/-- `HOST_SNOOP_READ`: modified copies are recalled and the bytes are answered (R246). -/
def execHostSnoopRead (port pa len : Nat) (s : State) : Result :=
  if len = 0 then .next s
  else if paKind pa ≠ .host ∨ paKind (pa + len - 1) ≠ .host then .fault .reservedAddress
  else
    let s1 := (linesOf pa len).foldl State.recall s
    .next (s1.out (.hostData port (s1.readBytes pa len)))

/-- Input `i` waits: it goes behind every other input but those of its own sort, whose order stands. -/
def State.waitOutside (s : State) (i : Instr) (same : Instr → Bool) : State :=
  { s with inbox := s.inbox.filter (fun x => !same x) ++ i :: s.inbox.filter same }

/-- An access of a host port. -/
def ofPort (port : Nat) (i : Instr) : Bool :=
  match i with
  | .hostMemAccess p .. => p == port
  | _ => false

/-- `HOST_MEM_ACCESS`: one SEQ access of the port's agent at the home, and then its completion (R247). A write waits while a
`PGPASS` has its page closed (R338). -/
def execHostMemAccess (port : Nat) (wr : Bool) (pa len : Nat) (data : List (BitVec 8)) (s : State) : Result :=
  if !inModule pa (if wr then data.length else len) then .fault .reservedAddress
  else if wr && (atOffsets pa data).any (fun b => s.closedAt b.1) then
    .next (s.waitOutside (.hostMemAccess port wr pa len data) (ofPort port))
  else if wr then .next ((s.portStore port (atOffsets pa data)).out (.hostDone port))
  else
    let (s1, p) := s.readHomes (mget s.portPts port 0) (if len = 0 then [] else linesOf pa len)
    .next (({ s1 with portPts := mset s1.portPts port p }).out (.hostData port (s1.readBytes pa len)))

/-! ### Clock advance of pts, patrol scrub -/

/-- `PTS_TICK`: the pts of every agent rises by 1 (R225, R232). -/
def execPtsTick (s : State) : Result :=
  let s1 := { s with
    strands := s.strands.map (fun (p : Nat × Strand) => (p.1, { p.2 with ctl := { p.2.ctl with pts := p.2.ctl.pts + 1 } }))
    tasks := s.tasks.map (fun t => if t.isDone then t else { t with fork := t.fork + 1 })
    frontPts := s.frontPts + 1
    portPts := (List.range 4).foldl (fun m i => mset m i (mget s.portPts i 0 + 1)) s.portPts
    fabric := { s.fabric with commitPts := s.fabric.commitPts + 1 } }
  .next ((List.range 8).foldl (fun s d => s.modDie d (fun x => { x with walkPts := x.walkPts + 1 })) s1)

/-- `PATROL_SCRUB`: a scrub write changes neither data nor stamps (R235); a correctable error is not visible in memory
as the model holds it. -/
def execPatrolScrub (_line : Nat) (s : State) : Result := .next s

end Sys2Proof.Machine
end

