-- ==== Sys2Proof/Machine/Place.lean ====
section
/-! DEFINITION. Launching and placing work (R80 to R98): contexts and queues, the launch front-end, the Placement Table
and its command port, preparation and start of a group, and the end of groups and launches (R388 to R393). -/

namespace Sys2Proof.Machine

/-! ### Accesses of the launch front-end and of dispatch -/

def State.curator (s : State) (f : Curator → Curator) : State := { s with cur8 := f s.cur8 }

/-- Put an event into the Curator's log. -/
def State.note (s : State) (code x : Nat) : State := s.curator (fun c => { c with log := c.log ++ [code + 8 * x] })

/-- One SEQ read inside a line, by the front-end's agent: bytes and mark (R225, R231). -/
def State.frontRead (s : State) (pa len : Nat) : State × List Byte × Bool :=
  let (s1, p) := s.readHome s.frontPts (pa / 256)
  ({ s1 with frontPts := p }, s1.readBytes pa len, s1.marked (pa / 256))

/-- One SEQ write by the front-end's agent. -/
def State.frontStore (s : State) (bytes : List (Nat × Byte)) : State :=
  let (s1, ts) := s.store s.frontPts bytes
  { s1 with frontPts := ts }

/-- Translate for the front-end: the walk, then the checks that name no die, then D for a write (R59, R64, R66, R85). -/
def State.frontXlate (s : State) (sp : Space) (va : W64) (wr : Bool) : State × Except (Cause × Nat) Nat :=
  match s.walk sp va false with
  | (s1, .fault c x) => (s1, .error (c, x))
  | (s1, .leaf t) =>
    if paKind (t.pa va) = .reserved then (s1, .error (.xlate, xBadpa))
    else if wr && !pteWr t.w0 then (s1, .error (.xlate, xPerm))
    else if wr && !pteD t.w0 then
      (match s1.walk sp va true with
       | (s2, .fault c x) => (s2, .error (c, x))
       | (s2, .leaf u) => (s2, .ok (u.pa va)))
    else (s1, .ok (t.pa va))

/-- Read inside a line at a virtual address: the bytes, or the failure; a damaged line is MEMUE (R382). -/
def State.frontGet (s : State) (sp : Space) (va : W64) (len : Nat) : State × Except (Cause × Nat) (List Byte) :=
  match s.frontXlate sp va false with
  | (s1, .error e) => (s1, .error e)
  | (s1, .ok pa) =>
    if !paHome pa then (s1, .error (.xlate, xBadpa))
    else
      match s1.frontRead pa len with
      | (s2, bs, m) => if m then (s2, .error (.memue, 0)) else (s2, .ok bs)

/-- Write inside a line at a virtual address; true when it was made. -/
def State.frontPut (s : State) (sp : Space) (va : W64) (bs : List Byte) : State × Bool :=
  match s.frontXlate sp va true with
  | (s1, .error _) => (s1, false)
  | (s1, .ok pa) => if paHome pa then (s1.frontStore (atOffsets pa bs), true) else (s1, false)

/-- A write at a virtual address waits: a `PGPASS` has closed the page (R338). -/
def State.frontClosed (s : State) (sp : Space) (va : W64) : Bool :=
  match (s.frontXlate sp va true).2 with
  | .ok pa => s.closedAt pa
  | .error _ => false

/-- Read the context record at a physical address and keep its words (R81); the mark of a damaged line is ignored (DESIGN
CHOICE, log entry 86). -/
def State.readCtx (s : State) (pa : Nat) : State × List W64 :=
  let (s1, bs, _) := s.frontRead pa 64
  let ws := (List.range 8).map (word64 bs)
  ({ s1 with contexts := s1.contexts.filter (fun c => c.pa != pa) ++ [⟨pa, ws⟩] }, ws)

/-- The address space of a context record, used as written (R85). -/
def ctxSpace (w : List W64) (die : Nat) : Space := ⟨ctxRoot w, ctxAsid w, ctxTenant w, ctxPart w, die⟩

/-! ### Registering (R80, R83, R100) -/

/-- `CONTEXT_REGISTER`; it stops on an address that is in no memory or not aligned (DESIGN CHOICE, log entries 58 and 85). -/
def execContextRegister (pa : Nat) (s : State) : Result :=
  if pa % 64 ≠ 0 ∨ !inModule pa 64 then .fault .reservedAddress
  else if s.contexts.any (fun c => c.pa == pa) then .next s
  else .next { s with contexts := s.contexts ++ [⟨pa, []⟩] }

def State.modQueue (s : State) (num : Nat) (f : LaunchQueue → LaunchQueue) : State :=
  match mget? s.lqueues num with
  | none => s
  | some q => { s with lqueues := mset s.lqueues num (f q) }

/-- `TICKET_SET`: the count applies from the next charge. -/
def execTicketSet (num tickets : Nat) (s : State) : Result := .next (s.modQueue num (fun q => { q with tickets := tickets }))

/-! ### The launch front-end (R85 to R88) -/

/-- Header of a launch queue (Table 4-2). -/
structure QHead where
  resv : Nat
  tail : Nat
  head : Nat
  logsz : Nat
  deriving DecidableEq, Repr

/-- Read the context record and the header of a queue; a failed read stops the queue and is reported (R81, R85). -/
def State.queueHead (s : State) (q : LaunchQueue) : State × Option (List W64 × QHead) :=
  let (s1, cw) := s.readCtx q.ctx
  match s1.frontGet (ctxSpace cw 0) q.qbase 32 with
  | (s2, .error _) => ((s2.modQueue q.num (fun x => { x with failed := true })).note 1 q.num, none)
  | (s2, .ok bs) =>
    (s2, some (cw, ⟨(word64 bs 0).toNat, (word64 bs 1).toNat, (word64 bs 2).toNat, (word64 bs 3).toNat % 32⟩))

/-- The queue can no longer be read (R85). -/
def State.failQueue (s : State) (q : LaunchQueue) : State := (s.modQueue q.num (fun x => { x with failed := true })).note 1 q.num

/-- Records that the front-end rejects (R88), but for the context. -/
def recordBad (r : List W64) : Bool :=
  let w := recWord r 7
  let level := bitsN w 7 5
  let dkind := bitsN w 4 3
  bitsN w 1 0 != 0 || decide (4 < level) || dkind == 3 || bitsN w 63 40 == 0 || decide (256 < bitsN w 31 23) ||
    recWord r 0 % 64 != 0 || (bitsN w 39 32 != 0 && recWord r 5 % 64 != 0) || (level == 3 && dkind == 0) ||
    (level == 4 && dkind != 0)

/-- The handle of an accepted record: the lowest that is free. The spec says only that the table gives one (R85; DESIGN
CHOICE, log entry 73). -/
def State.freeHandle (s : State) : Option Nat := (List.range 4096).find? (fun h => (mget? s.launches h).isNone)

/-- Address of slot `n` of a queue (R83). -/
def LaunchQueue.slotVa (q : LaunchQueue) (logsz n : Nat) : W64 := q.qbase + BitVec.ofNat 64 (64 + 64 * (n % 2 ^ logsz))

/-- Whether slot `n` is skipped (R86). -/
def LaunchQueue.skipped (q : LaunchQueue) (n : Nat) : Bool := q.skips.contains (BitVec.ofNat 64 n)

/-- `LAUNCH_ACCEPT`: the record at HEAD is copied, checked and given a handle; HEAD moves on. A store of HEAD or TAIL that
fails stops the queue as a failed read does (DESIGN CHOICE, log entry 87). -/
def execLaunchAccept (num : Nat) (s : State) : Result :=
  match mget? s.lqueues num, s.freeHandle with
  | some q, some lid =>
    if q.failed || s.cur8.recovery then .next s
    else
      (match s.queueHead q with
       | (s1, none) => .next s1
       | (s1, some (cw, h)) =>
         if 16 < h.logsz ∨ h.tail ≤ h.head ∨ q.skipped h.head ∨ s1.frontClosed (ctxSpace cw 0) (q.qbase + 16) then .next s1
         else
           match s1.frontGet (ctxSpace cw 0) (q.slotVa h.logsz h.head) 64 with
           | (s2, .error _) => .next (s2.failQueue q)
           | (s2, .ok bs) =>
             match s2.frontPut (ctxSpace cw 0) (q.qbase + 16) (leBytes 8 (h.head + 1)) with
             | (s3, false) => .next (s3.failQueue q)
             | (s3, true) =>
               let r := (List.range 8).map (word64 bs)
               let l : Launch :=
                 { lid := lid, qnum := num, rec_ := r, rejected := ctxBad cw || recordBad r, cancelled := false
                   pts := s3.frontPts, ff := none, rstLost := bitN (recWord r 7) 2 && ctxWlsize cw == 0, started := false
                   plive := false, refusedW := false, uerr := false, uecnt := 0, uepa := 0, relaunch := 0, log := []
                   recordStage := 0, endClk := s3.clk }
               .next { s3 with launches := mset s3.launches lid l, nextQueue := (num + 1) % 1024 })
  | _, _ => .next s

/-- A skip waits at its queue (R86). -/
def State.holdSkip (s : State) (num n : Nat) : State :=
  s.modQueue num (fun x => { x with waitSkips := x.waitSkips ++ [BitVec.ofNat 64 n] })

/-- Skip slot `n` of a queue, which must equal TAIL and lie below RESV; a refused skip is reported. A skip waits while 16
skipped slots are held, while the queue cannot be read, and while its header's page is closed (R85, R86, R338). -/
def State.skipSlot (s : State) (q : LaunchQueue) (n : Nat) : State :=
  if q.failed then s.holdSkip q.num n
  else
    match s.queueHead q with
    | (s1, none) => s1.holdSkip q.num n
    | (s1, some (cw, h)) =>
      if n ≠ h.tail ∨ h.resv ≤ n then s1.note 3 (q.num + 1024 * n)
      else if 16 ≤ q.skips.length ∨ s1.frontClosed (ctxSpace cw 0) (q.qbase + 8) then s1.holdSkip q.num n
      else
        match s1.frontPut (ctxSpace cw 0) (q.qbase + 8) (leBytes 8 (n + 1)) with
        | (s2, false) => (s2.failQueue q).holdSkip q.num n
        | (s2, true) => s2.modQueue q.num (fun x => { x with skips := x.skips ++ [BitVec.ofNat 64 n] })

/-- The skips that wait at a queue are checked again, in order (R86). -/
def State.retrySkips (s : State) (num : Nat) : State :=
  match mget? s.lqueues num with
  | none => s
  | some q =>
    q.waitSkips.foldl (fun (s : State) k => match mget? s.lqueues num with
      | none => s
      | some q' => s.skipSlot q' k.toNat) (s.modQueue num (fun x => { x with waitSkips := [] }))

/-- `SKIP`. -/
def execSkip (num slot : Nat) (s : State) : Result :=
  match mget? s.lqueues num with
  | none => .next s
  | some q => .next (s.skipSlot q slot)

/-- The skips that wait at a queue with room for one more are checked again (R86, R338). -/
def State.recheckSkips (s : State) (q : LaunchQueue) : State :=
  if q.waitSkips.isEmpty ∨ 16 ≤ q.skips.length then s else s.retrySkips q.num

/-- `SKIP_DISCARD`: HEAD passes a skipped slot; the skips that waited are checked again, also where HEAD stands at no skipped slot
and a skip waits for its header's page (R86, R338). -/
def execSkipDiscard (num : Nat) (s : State) : Result :=
  match mget? s.lqueues num with
  | none => .next s
  | some q =>
    if q.failed then .next s
    else
      match s.queueHead q with
      | (s1, none) => .next s1
      | (s1, some (cw, h)) =>
        if h.tail ≤ h.head ∨ !q.skipped h.head ∨ s1.frontClosed (ctxSpace cw 0) (q.qbase + 16) then .next (s1.recheckSkips q)
        else
          match s1.frontPut (ctxSpace cw 0) (q.qbase + 16) (leBytes 8 (h.head + 1)) with
          | (s2, false) => .next (s2.failQueue q)
          | (s2, true) =>
            .next ((s2.modQueue num (fun x => { x with
              skips := x.skips.filter (fun k => k != BitVec.ofNat 64 h.head) })).retrySkips num)

/-- `QUEUE_REGISTER`: a queue registered again is read again (R85); slots already skipped stay recorded, and the skips that
waited are checked. -/
def execQueueRegister (num qbase ctx tickets : Nat) (s : State) : Result :=
  if 1024 ≤ num then .next s
  else
    let old := mget? s.lqueues num
    let q : LaunchQueue :=
      { num := num, qbase := BitVec.ofNat 64 qbase, ctx := ctx, tickets := tickets, failed := false
        skips := (old.map LaunchQueue.skips).getD [], waitSkips := (old.map LaunchQueue.waitSkips).getD [] }
    .next ({ s with lqueues := mset s.lqueues num q }.retrySkips num)

/-! ### Units (R90, R91) -/

/-- The strands of a unit; at level strand those that SMASK names. -/
def unitStrands (level unit smask : Nat) : List Nat :=
  match level with
  | 0 => ((List.range 4).filter (fun p => bitN smask p)).map (fun p => 4 * unit + p)
  | 1 => (List.range 4).map (fun p => 4 * unit + p)
  | 2 => (List.range 32).map (fun p => 32 * unit + p)
  | 3 => (List.range 256).map (fun p => 256 * unit + p)
  | _ => List.range 2048

/-- Units of each level (Table 4-5). -/
def unitCount (level : Nat) : Nat :=
  match level with
  | 0 => 512 | 1 => 512 | 2 => 64 | 3 => 8 | 4 => 1 | _ => 0

def BindRec.strands (b : BindRec) : List Nat := unitStrands b.level b.unit b.smask

/-- The (group, strands) that a record starts: one group, or at level strand one for each strand. -/
def BindRec.groups (b : BindRec) : List (Nat × List Nat) :=
  if b.level = 0 then b.strands.zipIdx.map (fun p => (b.grp + p.2, [p.1])) else [(b.grp, b.strands)]

/-- Groups that a record names. -/
def groupCount (level smask : Nat) : Nat := if level = 0 then (unitStrands 0 0 smask).length else 1

def launchLevel (l : Launch) : Nat := bitsN (recWord l.rec_ 7) 7 5
def launchGroups (l : Launch) : Nat := bitsN (recWord l.rec_ 7) 63 40

/-- The context of a launch, by its record's address. -/
def State.ctxPaOf (s : State) (lid : Nat) : Option Nat :=
  ((mget? s.launches lid).bind (fun l => mget? s.lqueues l.qnum)).map LaunchQueue.ctx

/-- Launch that holds or has reserved a strand. -/
def State.lidAt (s : State) (n : Nat) : Option Nat :=
  ((s.strand n).bound.map Bound.lid) <|>
    ((s.placement.find? (fun p => p.2.strands.contains n)).map (fun p => p.2.lid))

def State.groupAt (s : State) (lid grp : Nat) : Option Group := s.groups.find? (fun g => g.lid == lid && g.grp == grp)

def State.modGroup (s : State) (lid grp : Nat) (f : Group → Group) : State :=
  { s with groups := s.groups.map (fun g => if g.lid = lid ∧ g.grp = grp then f g else g) }

/-! ### The command port (R92, R93) -/

/-- Every group of a launch has completed: the launch is complete (R391), and a cancel finds nothing (R97). -/
def State.allEnded (s : State) (lid : Nat) (l : Launch) : Bool :=
  decide (launchGroups l ≤ (s.groups.filter (fun g => g.lid == lid && (match g.phase with
    | .ended _ => true
    | _ => false))).length)

/-- Refusal cause of a bind record, 0 when it is accepted (R92, Table 4-10). `start` and `w` are its two words. Of LEVEL 5 to
7, for which Table 4-5 gives no units, every UNIT counts as out of range (DESIGN CHOICE, log entry 76). -/
def State.bindCause (s : State) (start w : Nat) : Nat :=
  let level := bitsN w 62 60
  let lid := bitsN w 59 48
  let grp := bitsN w 47 24
  let smask := bitsN w 23 20
  let unit := bitsN w 19 11
  let res := bitN w 10
  let inRange := decide (unit < unitCount level)
  let ns := unitStrands level unit smask
  let cnt := groupCount level smask
  let formBad := !bitN w 63 || bitsN w 9 0 != 0 || (level != 0 && smask != 15) || !inRange
  let l := (mget? s.launches lid).filter (fun l => !l.rejected && !l.cancelled && !s.allEnded lid l)
  if 2048 ≤ s.placement.length then 1
  else if start < s.clk + 2048 then 2
  else if inRange && ns.any (fun n => (s.lidAt n).isSome) then 3
  else
    match l with
    | none => 7
    | some l =>
      let dk := bitsN (recWord l.rec_ 7) 4 3
      let dawn := dieIsDawn (dieOf ((unitStrands level unit 15).headD 0))
      let avail (g : Nat) : Bool :=
        if res then s.saved.any (fun x => x.lid == lid && x.grp == g) else (s.groupAt lid g).isNone
      let foreign := (coreStrands unit).any (fun n => match s.lidAt n with
        | none => false
        | some m => s.ctxPaOf m != s.ctxPaOf lid)
      if inRange && (level != launchLevel l || (dk == 1 && !dawn) || (dk == 2 && dawn)) then 4
      else if smask = 0 ∨ launchGroups l ≤ grp + cnt - 1 then 5
      else if !((List.range cnt).all (fun i => avail (grp + i))) then 5
      else if inRange && level == 0 && foreign then 6
      else if formBad then 7
      else 0

/-- The result word of Table 4-10. -/
def resultWord (acc : Bool) (cause entry : Nat) : W64 :=
  BitVec.ofNat 64 (2 ^ 63 + (if acc then 2 ^ 62 else 0) + cause % 8 * 2 ^ 56 + entry % 4096)

def State.answer (s : State) (acc : Bool) (cause entry : Nat) : State :=
  s.curator (fun c => { c with result := resultWord acc cause entry })

/-- An accepted record takes the lowest free entry and reserves its unit. -/
def State.placeRec (s : State) (start w : Nat) : State :=
  let entry := ((List.range 2048).find? (fun e => (mget? s.placement e).isNone)).getD 0
  let b : BindRec :=
    { start := start, level := bitsN w 62 60, lid := bitsN w 59 48, grp := bitsN w 47 24, smask := bitsN w 23 20
      unit := bitsN w 19 11, res := bitN w 10, uid := s.opId, prepared := false }
  let s1 := { s with placement := mset s.placement entry b, opId := s.opId + 1 }
  let s2 := b.groups.foldl (fun (s : State) g =>
    if b.res then s.modGroup b.lid g.1 (fun x => { x with phase := .pending entry })
    else { s with groups := s.groups ++
      [{ lid := b.lid, grp := g.1, strands := [], phase := .pending entry, faulted := false, fault := none }] }) s1
  s2.answer true 0 entry

/-- Remove every pending record of a launch: the number removed (R93, R97). -/
def State.dropRecords (s : State) (lid : Nat) : State × Nat :=
  let k := (s.placement.filter (fun p => p.2.lid == lid)).length
  ({ s with
     placement := s.placement.filter (fun p => p.2.lid != lid)
     groups := (s.groups.map (fun g => match g.phase with
       | .pending _ => if g.lid = lid ∧ s.saved.any (fun x => x.lid == lid && x.grp == g.grp) then { g with phase := .saved } else g
       | _ => g)).filter (fun g => match g.phase with
         | .pending _ => g.lid != lid
         | _ => true) }, k)

/-- One command of the command port, answered in its clock (R93). A cancel acts from the next clock. -/
def State.command (s : State) (w0 w8 w16 w24 : W64) : State :=
  let op := bitsN w0.toNat 63 62
  let lid := bitsN w0.toNat 11 0
  if bitsN w0.toNat 61 12 ≠ 0 ∨ w8 ≠ 0 then s.answer false 7 0
  else if op = 1 then
    (if lid ≠ 0 then s.answer false 7 0
     else
       let c := s.bindCause w16.toNat w24.toNat
       if c = 0 then s.placeRec w16.toNat w24.toNat else s.answer false c 0)
  else if op = 2 then
    (match mget? s.launches lid with
     | none => s.answer true 0 0
     | some l =>
       if l.rejected || s.allEnded lid l then s.answer true 0 0
       else
         let (s1, k) := s.dropRecords lid
         let s2 := (s1.modLaunch lid (fun x => { x with cancelled := true })).answer true 0 k
         { s2 with agenda := s2.agenda ++ [.kill lid] })
  else s.answer false 7 0

/-- `BIND`. -/
def execBind (w0 w8 w16 w24 : BitVec 64) (s : State) : Result := .next (s.command w0 w8 w16 w24)
/-- `CANCEL`. -/
def execCancel (w0 w8 w16 w24 : BitVec 64) (s : State) : Result := .next (s.command w0 w8 w16 w24)

/-! ### Preparation (R94, R395) -/

/-- Whether a core holds bound strands of the launch's context. -/
def State.coreHolds (s : State) (core lid : Nat) : Bool :=
  (coreStrands core).any (fun n => match (s.strand n).bound with
    | none => false
    | some b => s.ctxPaOf b.lid == s.ctxPaOf lid)

/-- What a strand takes from its launch, its context and its place (R95). -/
def boundOf (l : Launch) (cw : List W64) (grp pos : Nat) : Bound :=
  { lid := l.lid, grp := grp, pos := pos, groups := launchGroups l, qnum := l.qnum, asid := ctxAsid cw
    tenant := ctxTenant cw, part := ctxPart cw, root := ctxRoot cw, ttbase := ctxTtbase cw, ttcount := ctxTtcount cw }

/-- Address of codebook image `b` of a launch (Table 4-3). -/
def imageVa (l : Launch) (b : Nat) : W64 := (l.rec_.drop 5).headD 0 + BitVec.ofNat 64 (2112 * b)

/-- The banks that CBMASK names (Table 4-3). -/
def imageBanks (l : Launch) : List Nat := (List.range 8).filter (fun b => bitN (bitsN (recWord l.rec_ 7) 39 32) b)

/-- The reads of the images, planned and checked as `CBLD` checks them (R94, R280). -/
def State.planImages (s : State) (l : Launch) (b : Bound) (w : Nat) : Plan :=
  ((imageBanks l).foldl (fun (p : FillPlan) k =>
    (cbPieces (imageVa l k)).foldl (fun p x => p.read b w x.1 x.2) p) { plan := { st := s } }).plan

/-- Read from memory what lies there (R231). -/
def State.readHere (s : State) : List Rd → State × List Rd
  | [] => (s, [])
  | r :: t =>
    let x : State × Rd := match r.got, r.tgt with
      | none, .mem pa => let (s1, bs, m) := s.frontRead pa r.len
                         (s1, { r with got := some (bs, m) })
      | _, _ => (s, r)
    let (s2, l) := x.1.readHere t
    (s2, x.2 :: l)

/-- An image as loaded: a marked line, then a malformed image, is the trap of `CBLD` (R280). -/
def imageCopy (rds : List Rd) (ea : W64) : Except Trap BankCopy :=
  match (cbPieces ea).find? (fun p => (bytesAt rds p.1 p.2).2) with
  | some p => .error (poisonAt 0 p.1)
  | none =>
    match copyOfImage (bytesAt rds ea 2112).1 with
    | none => .error { cause := .fmtmis, eaddr := ea }
    | some c => .ok c

/-- Each image loaded into an empty bank as `CBLD` retires it (R75, R94). -/
def loadBanks (l : Launch) (rds : List Rd) : Except Trap (AMap Bank) :=
  (imageBanks l).foldl (fun (a : Except Trap (AMap Bank)) b =>
    match a, imageCopy rds (imageVa l b) with
    | .error t, _ => .error t
    | .ok _, .error t => .error t
    | .ok m, .ok c => .ok (mset m b (Bank.reset.retire c))) (.ok [])

/-- Clear what a core gives a new owner; the park area and the line copies only change owner with the context (R293, R395,
Table 17-2). -/
def Core.cleared (c : Core) (ctx : Option Nat) (banks : AMap Bank) : Core :=
  { c with
    banks := banks, join := 0, joinPts := [], sems := [], muts := [], upds := [], gang := .reset
    park := if c.ctx = ctx then c.park else []
    l1 := if c.ctx = ctx then c.l1 else []
    parkGranted := c.parkGranted && decide (c.ctx = ctx), ctx := ctx }

/-- Free the park slots of a core (R394 step 6). -/
def State.freePark (s : State) (c : Nat) : State :=
  if (s.core c).parkGranted then
    (s.modWing (c / 8) (fun g => { g with slots := g.slots.filter (fun k => !((parkKeys c).contains k.1 && k.2.parks)) })).modCore c
      (fun k => { k with parkGranted := false, park := [] })
  else s

/-- Core `c` takes a new owner; what tasks had captured there stays with them, and the park slots of another context go. -/
def State.clearCore (s : State) (c : Nat) (ctx : Option Nat) (banks : AMap Bank) : State :=
  let s1 := if (s.core c).ctx = ctx then s else s.freePark c
  { (s1.modCore c (fun k => k.cleared ctx banks)) with
    tasks := s1.tasks.map (fun (t : Task) => { t with caps := t.caps.map (fun p => if p.1 = c then (512, p.2) else p) }) }

/-- The join bits, semaphores and mutexes of a core as another image of it holds them. -/
def Core.keepShared (k old : Core) : Core :=
  { k with join := old.join, joinPts := old.joinPts, sems := old.sems, muts := old.muts, upds := old.upds }

/-- A saved group of level strand of the context stands (R379). -/
def State.savedStrand (s : State) (ctx : Option Nat) : Bool :=
  s.saved.any (fun g => s.ctxPaOf g.lid == ctx && (mget? s.launches g.lid).any (fun l => launchLevel l == 0))

/-- Core `c` for a fresh group: cleared, but the join bits, semaphores and mutexes of saved strands of the same context stay with
the core (R379, Table 4-6, Table 17-2; log entry 26). -/
def State.freshCore (s : State) (level c : Nat) (ctx : Option Nat) (banks : AMap Bank) : State :=
  let old := s.core c
  let s1 := s.clearCore c ctx banks
  if level = 0 ∧ old.ctx = ctx ∧ s.savedStrand ctx then s1.modCore c (fun k => k.keepShared old) else s1

def State.modRec (s : State) (e : Nat) (f : BindRec → BindRec) : State :=
  match mget? s.placement e with
  | none => s
  | some b => { s with placement := mset s.placement e (f b) }

/-- The planned reads of record `b` at entry `e` go on: window reads one at a time, then memory; then the banks are made
(R94). -/
def State.readImages (s : State) (e : Nat) (b : BindRec) (l : Launch) (part : Nat) (rds : List Rd) : State :=
  match s.windowReads (.prep b.uid) part rds [] with
  | (s1, rs, false) => s1.modRec e (fun x => { x with planned := true, rds := rs })
  | (s1, rs, true) =>
    let (s2, rs') := s1.readHere rs
    match loadBanks l rs' with
    | .error t => s2.modRec e (fun x => { x with prepared := true, rds := [], fault := some t })
    | .ok m => s2.modRec e (fun x => { x with prepared := true, rds := [], banks := m })

/-- Prepare the unit of entry `e` (R94): the context record is read, and each codebook image once. Which clock is open: the
model begins in the clock of the acceptance (DESIGN CHOICE, log entry 74). What goes wrong is kept for START. For RES = 1 the saved context is
restored at START instead (R381). -/
def State.prepare (s : State) (e : Nat) : State :=
  match mget? s.placement e with
  | none => s
  | some b =>
    if b.prepared then s
    else
      match mget? s.launches b.lid with
      | none => s
      | some l =>
        if b.planned then s.readImages e b l (ctxPart (s.launchCtx l)) b.rds
        else
          let (s1, cw) := s.readCtx ((s.ctxPaOf b.lid).getD 0)
          if b.res then s1.modRec e (fun x => { x with prepared := true })
          else
            let p := s1.planImages l (boundOf l cw b.grp 0) (wingOf (b.strands.headD 0))
            match p.verdict with
            | some t => p.st.modRec e (fun x => { x with prepared := true, fault := some t })
            | none => if p.miss then p.st else p.st.readImages e b l (ctxPart cw) p.rds

/-- `GROUP_PREPARE`. -/
def execGroupPrepare (entry : Nat) (s : State) : Result := .next (s.prepare entry)

/-! ### Start (R95) -/

/-- Signed line offset of a strand position (Table 4-3). -/
def lineOff (r : List W64) (p : Nat) : Int := sIntN 16 (recWord r 1 / 2 ^ (16 * p) % 2 ^ 16)

/-- The start state of strand `n` at position `pos` of group `grp` (Table 4-6). -/
def startStrand (l : Launch) (cw : List W64) (n grp pos : Nat) : Strand :=
  let r := l.rec_
  let w7 := recWord r 7
  let stksz := bitsN w7 22 8
  let one (x : W64) : List (QCell SV) := [.full ⟨x, false⟩]
  let sp : W64 := if stksz = 0 then 0 else (r.drop 3).headD 0 + BitVec.ofNat 64 ((n + 1) * stksz * 4096)
  { Strand.reset with
    regs := { Regs.reset with
      sq := [(0, one ((r.drop 2).headD 0)), (1, one (BitVec.ofNat 64 grp)), (2, one (BitVec.ofNat 64 pos)),
             (3, one (BitVec.ofNat 64 (launchGroups l)))]
      sp := [(31, ⟨sp, false⟩)] }
    ctl := { Ctl.reset with
      trapBase := (r.drop 4).headD 0
      srng := 0x9E3779B97F4A7C15#64 ^^^ BitVec.ofNat 64 pos
      splim := BitVec.ofNat 17 (256 * bitsN w7 31 23)
      pts := l.pts }
    front := { Front.reset with pc := lineAt ((r.drop 0).headD 0) (lineOff r (posInCore n)) }
    bound := some (boundOf l cw grp pos)
    running := true }

/-- A strand's first fetch is not held back by its translation: the walk of its line is made at START, and a fault of it
is met in that clock (R95). -/
def State.warmFetch (s : State) (n : Nat) : State :=
  let st := s.strand n
  match st.bound with
  | none => s
  | some b =>
    let a := lineOf st.front.pc
    if !canonical a || (s.core (coreOf n)).tlb.any (fun t => t.hits b.asid a) then s
    else
      match s.walk ⟨b.root, b.asid, b.tenant, b.part, dieOf n⟩ a false with
      | (s1, .leaf t) =>
        (s1.modWing (wingOf n) (fun g => { g with tlb := tlbPut 4096 g.tlb t })).modCore (coreOf n)
          (fun k => { k with tlb := tlbPut 64 k.tlb t })
      | (s1, .fault c x) =>
        s1.modWing (wingOf n) (fun g => { g with missFaults := g.missFaults ++ [⟨b.asid, va57 a / 4096, c, x, s.clk - 1⟩] })

/-- Start one group on its strands (R95). -/
def State.startGroup (s : State) (l : Launch) (cw : List W64) (grp : Nat) (ns : List Nat) : State :=
  let s1 := ns.zipIdx.foldl (fun (s : State) p => s.setStrand p.1 (startStrand l cw p.1 grp p.2)) s
  let s2 := ns.foldl State.warmFetch s1
  (s2.modGroup l.lid grp (fun x => { x with phase := .running, strands := ns })).modLaunch l.lid
    (fun x => { x with started := true })

/-- A group that could not be prepared completes FAULTED in the clock of START (R94, R391). -/
def State.failGroup (s : State) (lid grp : Nat) (t : Trap) : State :=
  ((s.recordFault lid ⟨grp, 0, 0, t.eaddr, t.causeCode, t.sub, s.clk⟩).modGroup lid grp
    (fun x => { x with phase := .ended 2, strands := [] })).modLaunch lid (fun l => { l with endClk := s.clk })

/-- The cores of a record's unit that hold no strand of its launch's context: they change owner at START (R73, R94). -/
def State.newCores (s : State) (b : BindRec) : List Nat :=
  ((b.strands.map coreOf).eraseDups).filter (fun c => !s.coreHolds c b.lid)

/-- Carry out a due record that starts fresh groups (R92, R94, R95): cores that change owner are cleared and take the images,
or the groups end where the images could not be had. A record whose images are still being read waits (log entry 27). -/
def State.startEntry (s : State) (e : Nat) : State :=
  match mget? s.placement e with
  | none => s
  | some b0 =>
    if s.clk < b0.start ∨ b0.res then s
    else
      let s1 := s.prepare e
      match mget? s1.placement e, mget? s1.launches b0.lid with
      | some b, some l =>
        if !b.prepared then s1
        else
          let s2 := { s1 with placement := mdel s1.placement e }
          let cs := s1.newCores b
          match if cs.isEmpty then none else b.fault with
          | some t => b.groups.foldl (fun s g => s.failGroup b.lid g.1 t) s2
          | none =>
            let s3 := cs.foldl (fun s c => s.freshCore b.level c (s1.ctxPaOf b.lid) b.banks) s2
            b.groups.foldl (fun s g => s.startGroup l (s1.launchCtx l) g.1 g.2) s3
      | _, _ => s1

/-- `GROUP_START`. -/
def execGroupStart (entry : Nat) (s : State) : Result := .next (s.startEntry entry)

/-! ### The end of a group (R388 to R390, R393) -/

/-- Every task of a group is over (R388). -/
def State.groupTasksDone (s : State) (lid grp : Nat) : Bool :=
  s.tasks.all (fun t => !(t.bound.lid == lid && t.bound.grp == grp) || t.isDone)

/-- The undo of R99 for the launch of a killed group has still to be made. -/
def State.undoOwed (s : State) (lid : Nat) : Bool :=
  (mget? s.launches lid).any (fun l => l.cancelled && l.restartable && !l.log.isEmpty)

/-- R388: the group completes now. -/
def State.groupEnds (s : State) (g : Group) : Bool :=
  let killed := decide (g.phase = .killed)
  let halted := decide (g.phase = .running) && g.strands.all (fun n => (s.strand n).halted)
  let posted := g.strands.all (fun n => (s.strand n).posted.all (fun p => p.acked || p.refused) && (s.strand n).wq.isEmpty)
  (killed || halted) && s.groupTasksDone g.lid g.grp && posted && !(killed && s.undoOwed g.lid)

/-- The first tagged plain register of a strand: file and number as FADDR gives them (R390). -/
def Strand.liveTag (st : Strand) : Option Nat :=
  ((List.range 7).map (· + 24) ++ [31]).findSome? (fun i => if (st.regs.sP i).t then some i else none) <|>
    (List.range 8).findSome? (fun i => if (st.regs.vP (24 + i)).t != 0 then some (256 + 24 + i) else none) <|>
    (List.range 7).findSome? (fun i => if (st.regs.kP (1 + i)).t != 0 then some (512 + 1 + i) else none)

/-- The fault of a group that halted with a tag live: strand of lowest position (R390). -/
def State.liveFault (s : State) (g : Group) : Option FirstFault :=
  g.strands.zipIdx.findSome? (fun p => (s.strand p.1).liveTag.map (fun a =>
    ⟨g.grp, p.2, ((s.strand p.1).front.haltedPc).getD 0, BitVec.ofNat 64 a, Cause.poison.code, 1, s.clk⟩))

/-- Nothing outside the strand waits for it any more: wait lists, the wing's replay queue and fills, shootdowns, pattern
reads under way. -/
def State.forgetStrand (s : State) (n : Nat) : State :=
  let mine (w : Waiter) : Bool := match w with
    | .op m _ => m == n
    | .stream m _ => m == n
    | _ => false
  let s1 := s.modCore (coreOf n) (fun c => { c with
    sems := c.sems.map (fun x => (x.1, { x.2 with waits := x.2.waits.filter (fun w => w.1 != n) }))
    muts := c.muts.map (fun x => (x.1, { x.2 with waits := x.2.waits.filter (fun w => w.1 != n)
                                                  tries := x.2.tries.filter (fun w => w.1 != n) }))
    gang := { c.gang with arrived := mdel c.gang.arrived (posInCore n) } })
  let s2 := s1.modWing (wingOf n) (fun g => { g with
    replay := g.replay.filter (fun p => !mine p.who)
    fills := g.fills.map (fun f => { f with waiters := f.waiters.filter (fun w => !mine w) }) })
  let s3 := s2.curator (fun c => { c with shootdowns := c.shootdowns.filter (fun q => q.n != n) })
  let f := s3.fabric
  { s3 with
    fabric := { f with
      awaits := f.awaits.filter (fun w => match w with
        | .stream m _ => m != n
        | _ => true)
      src := f.src.map (fun p => (p.1, { p.2 with unacked := p.2.unacked.map (fun k => match k.who with
      | .stream m _ => if m = n then { k with who := .itin 0 } else k
      | _ => k) })) }
    inbox := s3.inbox.filter (fun i => match i with
      | .loadReturn m _ _ _ => m != 4096 + n
      | _ => true) }

/-- Tear one strand down (R393): links, streams, wait lists, replay entries; its mutexes are free at the end of the next clock's
updates (R329, R332); its unit is free. -/
def State.freeStrand (s : State) (n : Nat) : State :=
  let core := coreOf n
  let p := posInCore n
  let s1 := s.modCore core (fun c => { c with upds := c.upds ++ (c.held p).map (fun m => (p, Upd.unlock m p (s.pts n))) })
  let s2 := (s1.forgetStrand n).modCore core (fun c => { c with
    gang := { c.gang with away := c.gang.away.filter (fun q => q != p) } })
  (s2.stopStrand n).modStrand n (fun st => { st with
    frame := [], links := [], streams := [], wq := [], posted := [], winReqs := [], bound := none, halted := false
    front := { st.front with waitC := none, held := none, trapping := none, latch := none, pairs := [] } })

/-- A core in gang mode whose strands are all free leaves it. -/
def State.freeGang (s : State) (core : Nat) : State :=
  if (coreStrands core).all (fun n => (s.strand n).bound.isNone) then s.modCore core (fun c => { c with gang := .reset }) else s

/-- The front-end's later accesses come after those of a launch's group, or of all its groups (R383, R392). -/
def State.afterGroups (s : State) (lid : Nat) (grp : Option Nat) : State :=
  let mine (b : Bound) : Bool := b.lid == lid && grp.all (fun g => b.grp == g)
  let p := s.strands.foldl (fun p x => if x.2.bound.any mine then wmax p x.2.ctl.pts else p) s.frontPts
  let q := s.tasks.foldl (fun p t => if mine t.bound then wmax p t.fork else p) p
  { s with frontPts := wmax q (((mget? s.launches lid).map Launch.taskPts).getD 0) }

def State.teardown (s : State) (g : Group) : State :=
  let s1 := g.strands.foldl (fun s n => s.freeStrand n) s
  ((g.strands.map coreOf).eraseDups).foldl (fun s c => s.freeGang c) s1

/-- `GROUP_COMPLETE`: status (Table 4-4, R389, R390), what the launch's record needs of it, and teardown. -/
def execGroupComplete (lid grp : Nat) (s : State) : Result :=
  match s.groupAt lid grp with
  | none => .next s
  | some g =>
    if !s.groupEnds g then .next s
    else
      let killed := decide (g.phase = .killed)
      let live := if killed then none else s.liveFault g
      let status := if killed then (if g.faulted then 2 else 1) else if live.isSome then 2 else 0
      let refused := g.strands.any (fun n => (s.strand n).posted.any (fun p => p.refused))
      let s1 := match if killed then g.fault.filter (fun _ => g.faulted) else live with
        | some f => s.recordFault lid { f with clk := s.clk }
        | none => s
      let s2 := s1.modLaunch lid (fun l => { l with
        plive := l.plive || live.isSome, refusedW := l.refusedW || refused, endClk := s.clk })
      .next (((s2.afterGroups lid (some grp)).teardown g).modGroup lid grp (fun x => { x with phase := .ended status, strands := [] }))

/-! ### Killing a launch; undoing its writes (R97, R99, R383) -/

/-- Undo the write log in descending entry order by full-line SEQ stores; a restore clears the mark unless PMARK is set. -/
def State.undoLog (s : State) (lid : Nat) : State :=
  match mget? s.launches lid with
  | none => s
  | some l =>
    let s1 := l.log.reverse.foldl (fun (s : State) e =>
      let t := s.frontStore (atOffsets (256 * e.1) e.2.1)
      if e.2.2.2 then t.mark e.1 else t) s
    s1.modLaunch lid (fun x => { x with log := [] })

/-- Kill every group of a launch that has started and not completed. -/
def State.killLaunch (s : State) (lid : Nat) (faulted : Bool) : State :=
  (s.groups.filter (fun g => g.lid == lid && (match g.phase with
    | .running => true
    | .saving => true
    | .saved => true
    | _ => false))).foldl (fun s g => s.killGroup lid g.grp faulted) s

/-- The end of the clock of a cancel: it takes effect from the next clock, in which the groups not yet complete are killed; a launch
whose last group has completed meanwhile is not cancelled (R97, R388). -/
def State.killTurn (s : State) (lid : Nat) : State :=
  match mget? s.launches lid with
  | none => s
  | some l =>
    if s.allEnded lid l then s.modLaunch lid (fun x => { x with cancelled := false })
    else (s.killLaunch lid false).modLaunch lid (fun x => { x with endClk := s.clk + 1 })

/-- A cancel of this clock has not yet taken effect (R97). -/
def State.cancelWaits (s : State) (lid : Nat) : Bool := s.agenda.contains (.kill lid)

/-- Nothing of a cancelled launch can still write: its strands' queues are empty and its tasks are over. -/
def State.writesOver (s : State) (lid : Nat) : Bool :=
  s.strands.all (fun p => !(p.2.bound.any (fun b => b.lid == lid)) || (!p.2.running && p.2.wq.isEmpty)) &&
    s.tasks.all (fun t => t.bound.lid != lid || t.isDone)

/-- The undo of a cancelled restartable launch, after its last write and before any of its groups completes; it waits while a
`PGPASS` has one of its pages closed (R99, R338, R388). -/
def State.undoCancelled (s : State) : State :=
  s.launches.foldl (fun (s : State) (l : Nat × Launch) =>
    if s.undoOwed l.1 && !s.cancelWaits l.1 && s.writesOver l.1 && !l.2.log.any (fun e => s.closedAt (256 * e.1)) then (s.afterGroups l.1 none).undoLog l.1 else s) s

/-! ### The completion record (R391, R392) -/

/-- The launch completes: rejected, or every group has ended; a cancelled one, or one that met its fourth error, once no
group is left and its undo has been made (R99, R391). -/
def State.launchEnds (s : State) (l : Launch) : Bool :=
  l.rejected || (if l.cancelled then
    !s.cancelWaits l.lid && !s.undoOwed l.lid && s.groups.all (fun g => g.lid != l.lid || (match g.phase with
      | .ended _ => true
      | _ => false)) && s.placement.all (fun p => p.2.lid != l.lid)
  else s.allEnded l.lid l)

/-- Groups of a launch that ended with a status. -/
def State.endedWith (s : State) (lid st : Nat) : Nat := (s.groups.filter (fun g => g.lid == lid && decide (g.phase = .ended st))).length

/-- The words of Table 17-1. -/
def State.completionWords (s : State) (l : Launch) (asid : Nat) : List W64 :=
  let nd := s.endedWith l.lid 0
  let nf := s.endedWith l.lid 2
  let nc := if l.rejected then 0 else launchGroups l - nd - nf
  let st := if l.rejected then 3 else if nf ≠ 0 ∨ l.ff.isSome then 2 else if nc ≠ 0 then 1 else 0
  let wbloss := s.wings.any (fun w => w.2.slots.any (fun x => x.2.v && x.2.wbf && x.2.tag.asid == asid))
  let b (x : Bool) (i : Nat) : Nat := if x then 2 ^ i else 0
  let f := l.ff.getD ⟨0, 0, 0, 0, 0, 0, 0⟩
  [BitVec.ofNat 64 (2 ^ 63 + l.lid * 2 ^ 48 + st * 2 ^ 40 + f.cause % 256 * 2 ^ 32 + f.sub % 256 * 2 ^ 24 + b l.rstLost 23 +
     b wbloss 22 + b l.plive 21 + b l.refusedW 20 + b l.uerr 19 + l.relaunch % 4),
   BitVec.ofNat 64 (f.grp * 2 ^ 40 + f.pos * 2 ^ 29), f.pc, f.addr,
   BitVec.ofNat 64 (nd * 2 ^ 40 + nc * 2 ^ 16),
   BitVec.ofNat 64 (nf * 2 ^ 40 + Nat.min l.uecnt 255 * 2 ^ 32),
   BitVec.ofNat 64 (l.uepa % 2 ^ 52), BitVec.ofNat 64 l.endClk]

/-- The handle is free. -/
def State.freeLaunch (s : State) (lid : Nat) : State :=
  { s with launches := mdel s.launches lid, groups := s.groups.filter (fun g => g.lid != lid) }

/-- The record through a window: words 8 to 56 as one posted store, word 0 once it is acknowledged (R243, R273, R392). -/
def State.recordByWindow (s : State) (l : Launch) (part w dst pa : Nat) (bs : List Byte) : State :=
  let out := (s.fabric.pairSrc dst).outstanding.any (fun k => k.who == .front l.lid)
  let send (o n : Nat) : State :=
    let (s1, ok) := s.askAllow w (.front l.lid) 1
    if ok && s1.fabric.roomFor dst then
      ((s1.request dst part .store pa (atOffsets o ((bs.drop o).take n)) (.front l.lid) (some w)).1).modLaunch l.lid
        (fun x => { x with recordStage := x.recordStage + 1 })
    else s1
  match l.recordStage with
  | 0 => send 8 56
  | 1 => if out then s else (send 0 8)
  | _ => if out then s else s.freeLaunch l.lid

/-- `LAUNCH_COMPLETE`: the record is written, word 0 last, and the handle is freed; without a record the Curator logs the
completion (R391, R392). -/
def execLaunchComplete (lid : Nat) (s : State) : Result :=
  match mget? s.launches lid with
  | none => .next s
  | some l =>
    if !s.launchEnds l then .next s
    else
      let cw := s.launchCtx l
      let va : W64 := (l.rec_.drop 6).headD 0 &&& ~~~63#64
      let none_ (s : State) : Result := .next ((s.note 2 lid).freeLaunch lid)
      if (l.rec_.drop 6).headD 0 = 0 then none_ s
      else
        match s.frontXlate (ctxSpace cw 0) va true with
        | (s1, .error _) => none_ s1
        | (s1, .ok pa) =>
          let bs := (s1.completionWords l (ctxAsid cw)).flatMap (fun w => leBytes 8 w.toNat)
          match s1.target (ctxPart cw) pa with
          | .error _ => none_ s1
          | .ok (.window w dst q) => .next (s1.recordByWindow l (ctxPart cw) w dst q bs)
          | .ok (.mem q) =>
            if s1.closedAt q then .next s1 else
            let s2 := (List.range 7).foldl (fun (s : State) i =>
              s.frontStore (atOffsets (q + 8 * (i + 1)) ((bs.drop (8 * (i + 1))).take 8))) s1
            .next ((s2.frontStore (atOffsets q (bs.take 8))).freeLaunch lid)

end Sys2Proof.Machine
end

