-- ==== Sys2Proof/Machine/Block.lean ====
section
/-! DEFINITION. The save area as bytes: replay entries (R370, Table 16-5), strand and core blocks (R380, Table 16-7), and what the
external debugger writes into the block of a stopped strand (R387). Table 16-7 gives the parts of a block their places; the
places of fields inside a part are the model's (DESIGN CHOICE, log entry 84). -/

namespace Sys2Proof.Machine

/-! ### Fields -/

/-- A little-endian field of a block: offset, bytes, its value, and what a write by the external debugger does. -/
structure Field (α : Type) where
  off : Nat
  size : Nat
  get : α → Nat
  put : Nat → α → α := fun _ x => x

/-- The byte at an offset; bytes that no field fills are reserved and read as zero here. -/
def fieldByte {α : Type} (fs : List (Field α)) (x : α) (o : Nat) : Byte :=
  match fs.find? (fun f => decide (f.off ≤ o ∧ o < f.off + f.size)) with
  | none => 0
  | some f => BitVec.ofNat 8 (f.get x >>> (8 * (o - f.off)))

/-- Bytes written into one field. -/
def Field.write {α : Type} (f : Field α) (edits : List (Nat × Byte)) (x : α) : α :=
  let hit := edits.filter (fun e => decide (f.off ≤ e.1 ∧ e.1 < f.off + f.size))
  if hit.isEmpty then x
  else f.put (leNat (hit.foldl (fun l e => l.set (e.1 - f.off) e.2) (leBytes f.size (f.get x)))) x

/-! ### Replay entries (Table 16-5) -/

/-- The word of an instruction, 0 for what has none. -/
def slotWord (i : Instr) : Nat := ((encode i).map (fun p => p.2.toNat)).getD 0

/-- STEP: a `LAUNCH` that has claimed its slot, an `ERET` or `RPLY` whose entries have their reservations (Table 16-5). -/
def Entry.stepField (e : Entry) : Nat :=
  match e.instr with
  | .launch .. => if 4 ≤ e.step then 1 else 0
  | .rply => if e.step = 0 then 0 else 1
  | .eret => if e.step = 0 then 0 else 1
  | _ => 0

/-- SLIP: the reservation is withdrawn; DONE: the access has performed, and its result is in Z. -/
def Entry.flagField (e : Entry) : Nat :=
  slotWord e.instr * 2 ^ 32 + e.slot % 4 * 2 ^ 30 + (if e.frame then 2 ^ 29 else 0) + (if e.placed then 0 else 2 ^ 28) +
    (if e.done then 2 ^ 27 else 0) + e.stepField * 2 ^ 20

/-- AUX: the slot that a `LAUNCH` has claimed. -/
def Entry.auxField (e : Entry) : Nat := if e.stepField = 1 ∧ e.slot = 2 then e.aux.toNat else 0

/-- An entry's fields: the debugger may change its PC, operands and tags. -/
def entryFields : List (Field Entry) :=
  let z (e : Entry) : VV := e.z.headD VV.zero
  let setZ (x : VV) (e : Entry) : Entry := { e with z := x :: e.z.drop 1 }
  [⟨0, 8, fun e => e.pc.toNat, fun v e => { e with pc := BitVec.ofNat 64 v }⟩,
   ⟨8, 8, Entry.flagField, fun _ e => e⟩,
   ⟨16, 8, fun e => ((e.ext.map (fun im => slotWord (.ext 0 im))).getD 0) * 2 ^ 32, fun _ e => e⟩,
   ⟨24, 8, Entry.auxField, fun _ e => e⟩,
   ⟨32, 8, fun e => e.x.t.toNat, fun v e => { e with x := ⟨e.x.v, BitVec.ofNat 64 v⟩ }⟩,
   ⟨40, 8, fun e => e.y.t.toNat, fun v e => { e with y := ⟨e.y.v, BitVec.ofNat 64 v⟩ }⟩,
   ⟨48, 8, fun e => (z e).t.toNat, fun v e => setZ ⟨(z e).v, BitVec.ofNat 64 v⟩ e⟩,
   ⟨64, 256, fun e => e.x.v.toNat, fun v e => { e with x := ⟨BitVec.ofNat 2048 v, e.x.t⟩ }⟩,
   ⟨320, 256, fun e => e.y.v.toNat, fun v e => { e with y := ⟨BitVec.ofNat 2048 v, e.y.t⟩ }⟩,
   ⟨576, 256, fun e => (z e).v.toNat, fun v e => setZ ⟨BitVec.ofNat 2048 v, (z e).t⟩ e⟩]

/-- The replay entries of a saved strand: live entries first (Table 16-7). -/
def Strand.replay (st : Strand) : List Entry := st.open_ ++ st.frame

def setAt {α : Type} (l : List α) (i : Nat) (f : α → α) : List α := l.zipIdx.map (fun p => if p.2 = i then f p.1 else p.1)

/-- Change replay entry `i`. -/
def Strand.modReplay (st : Strand) (i : Nat) (f : Entry → Entry) : Strand :=
  if i < st.open_.length then { st with open_ := setAt st.open_ i f }
  else { st with frame := setAt st.frame (i - st.open_.length) f }

/-- The fields of replay entry `i`, which stand only while there is such an entry. -/
def replayFields (i : Nat) : List (Field Strand) :=
  entryFields.map (fun f =>
    { off := 0x8000 + 1024 * i + f.off, size := f.size
      get := fun st => ((st.replay.drop i).head?.map f.get).getD 0
      put := fun v st => st.modReplay i (f.put v) })

/-! ### The strand block (Table 16-7) -/

/-- A 64-bit word of the header. -/
def headWord (i : Nat) (get : Strand → W64) (put : W64 → Strand → Strand := fun _ x => x) : Field Strand :=
  ⟨8 * i, 8, fun st => (get st).toNat, fun v st => put (BitVec.ofNat 64 v) st⟩

def Strand.setCtl (st : Strand) (f : Ctl → Ctl) : Strand := { st with ctl := f st.ctl }

/-- EPC. After the stop of a `BRK`, which stands at its own bundle and slot, the strand goes on where the debugger moves EPC to
(R160, R387; log entry 84). -/
def Strand.moveEpc (v : W64) (st : Strand) : Strand :=
  let st1 := st.setCtl (fun c => { c with epc := v })
  if st.front.firstSlot = 2 ∧ st.front.pc = st.ctl.epc then { st1 with front := { st1.front with pc := v, firstSlot := 0 } } else st1

/-- ECAUSE, as Table 16-3 packs it. -/
def Ctl.putEcause (v : W64) (c : Ctl) : Ctl :=
  { c with fx := v.getLsbD 23, rq := v.getLsbD 22, eslot := v.extractLsb' 20 2, sub := v.extractLsb' 8 8, cause := v.extractLsb' 0 8 }

/-- STATUS, but for the gang bit, which is the core's; the debugger may change PINLOST and EXL. -/
def Ctl.status (c : Ctl) : W64 := bit64 c.pinLost 7 ||| bit64 c.preq 6 ||| bit64 c.leftGang 5 ||| bit64 c.exl 3

def headFields : List (Field Strand) :=
  let ctl (g : Ctl → W64) (p : W64 → Ctl → Ctl := fun _ x => x) (i : Nat) : Field Strand :=
    headWord i (fun st => g st.ctl) (fun v st => st.setCtl (p v))
  [headWord 0 (fun st => st.front.pc) (fun v st => { st with front := { st.front with pc := v, fellOff := false } }),
   headWord 1 (fun st => BitVec.ofNat 64 st.front.firstSlot)
     (fun v st => { st with front := { st.front with firstSlot := v.toNat % 4 } }),
   ctl (fun c => c.svcause.setWidth 64) (fun _ x => x) 2,
   headWord 3 (fun st => st.ctl.epc) Strand.moveEpc,
   ctl Ctl.ecause Ctl.putEcause 4,
   ctl Ctl.einfo (fun v c => { c with einfo := v }) 5,
   ctl Ctl.eaddr (fun v c => { c with eaddr := v }) 6,
   headWord 7 (fun st => BitVec.ofNat 64 st.frame.length),
   headWord 8 (fun st => BitVec.ofNat 64 st.open_.length),
   ctl Ctl.status (fun v c => { c with pinLost := v.getLsbD 7, exl := v.getLsbD 3 }) 9,
   ctl Ctl.trapBase (fun v c => { c with trapBase := v }) 10,
   ctl (fun c => c.dbgctl.setWidth 64) (fun v c => { c with dbgctl := v.setWidth 2 }) 11,
   ctl Ctl.srng (fun v c => { c with srng := v }) 12,
   ctl (fun c => c.quant.setWidth 64) (fun v c => { c with quant := v.setWidth 16 }) 13,
   ctl Ctl.pts (fun v c => { c with pts := v }) 14,
   ctl (fun c => c.splim.setWidth 64) (fun v c => { c with splim := v.setWidth 17 }) 15] ++
  (List.range 64).map (fun i =>
    ⟨128 + i, 1, fun st => (laneFlags st.ctl.flags i).toNat, fun v st => st.setCtl (fun c => { c with
      flags := flagsOfList ((List.range 64).map (fun j => if j = i then v % 128 else (laneFlags c.flags j).toNat)) })⟩)

def Strand.setRegs (st : Strand) (f : Regs → Regs) : Strand := { st with regs := f st.regs }

/-- k0 to k7: value and tags. -/
def predFields (i : Nat) : List (Field Strand) :=
  [⟨192 + 16 * i, 8, fun st => (st.regs.kP i).v.toNat,
    fun v st => st.setRegs (fun r => r.setKP i ⟨BitVec.ofNat 64 v, (r.kP i).t⟩)⟩,
   ⟨200 + 16 * i, 8, fun st => (st.regs.kP i).t.toNat,
    fun v st => st.setRegs (fun r => r.setKP i ⟨(r.kP i).v, BitVec.ofNat 64 v⟩)⟩]

/-- What a queue cell holds; a hole nothing. -/
def QCell.held {α : Type} : QCell α → Option α
  | .full x => some x
  | .hole _ => none
  | .late _ x => some x
  | .linked x _ => some x

def QCell.edit {α : Type} (f : α → α) : QCell α → QCell α
  | .full x => .full (f x)
  | .hole id => .hole id
  | .late id x => .late id (f x)
  | .linked x p => .linked (f x) p

/-- The bits of a list of truths, the first lowest. -/
def bitsOf (l : List Bool) : Nat := l.foldr (fun b a => 2 * a + if b then 1 else 0) 0

/-- A queue of depth `cap` with its count set. -/
def qResize {α : Type} (z : α) (cap n : Nat) (q : List (QCell α)) : List (QCell α) :=
  (q ++ List.replicate cap (QCell.full z)).take (Nat.min cap n)

/-- Places of the holes of a queue. -/
def holeMap {α : Type} (q : List (QCell α)) : Nat := bitsOf (q.map (fun c => c.held.isNone))

/-- The replay entry that a hole names. -/
def holeName {α : Type} (es : List Entry) (c : QCell α) : Nat :=
  match c with
  | .hole id => es.findIdx (fun e => e.id == id)
  | _ => 0

/-- s0 to s31, 64 bytes each: entries, count, holes, tags, and the entry that each hole names. -/
def scalarFields (r : Nat) : List (Field Strand) :=
  let o := 0x400 + 64 * r
  let cell (st : Strand) (j : Nat) : SV := (((st.regs.sQ r).drop j).head?.bind QCell.held).getD SV.zero
  let upd (st : Strand) (j : Nat) (f : SV → SV) : Strand :=
    st.setRegs (fun g => g.setSQ r (setAt (g.sQ r) j (QCell.edit f)))
  if r < 24 then
    (List.range 4).map (fun j => ⟨o + 8 * j, 8, fun st => (cell st j).v.toNat, fun v st => upd st j (fun x => ⟨BitVec.ofNat 64 v, x.t⟩)⟩) ++
    [⟨o + 32, 1, fun st => (st.regs.sQ r).length, fun v st => st.setRegs (fun g =>
        g.setSQ r (qResize SV.zero 4 v (g.sQ r)))⟩,
     ⟨o + 33, 1, fun st => holeMap (st.regs.sQ r), fun _ st => st⟩,
     ⟨o + 34, 1, fun st => bitsOf ((List.range 4).map (fun j => (cell st j).t)),
      fun v st => (List.range 4).foldl (fun s j => upd s j (fun x => ⟨x.v, bitN v j⟩)) st⟩] ++
    (List.range 4).map (fun j => ⟨o + 36 + j, 1, fun st => (((st.regs.sQ r).drop j).head?.map (holeName st.replay)).getD 0, fun _ st => st⟩)
  else
    [⟨o, 8, fun st => (st.regs.sP r).v.toNat, fun v st => st.setRegs (fun g => g.setSP r ⟨BitVec.ofNat 64 v, (g.sP r).t⟩)⟩,
     ⟨o + 34, 1, fun st => bitsOf [(st.regs.sP r).t], fun v st => st.setRegs (fun g => g.setSP r ⟨(g.sP r).v, bitN v 0⟩)⟩]

/-- v0 to v31: two entries of 256 bytes for each queue, then the plain registers, then 64 bytes for each of counts, holes and
tags. -/
def vectorFields (r : Nat) : List (Field Strand) :=
  let m := 0xC00 + 14336 + 64 * r
  let cell (st : Strand) (j : Nat) : VV := (((st.regs.vQ r).drop j).head?.bind QCell.held).getD VV.zero
  let upd (st : Strand) (j : Nat) (f : VV → VV) : Strand :=
    st.setRegs (fun g => g.setVQ r (setAt (g.vQ r) j (QCell.edit f)))
  if r < 24 then
    (List.range 2).flatMap (fun j =>
      [⟨0xC00 + 512 * r + 256 * j, 256, fun st => (cell st j).v.toNat, fun v st => upd st j (fun x => ⟨BitVec.ofNat 2048 v, x.t⟩)⟩,
       ⟨m + 8 * j, 8, fun st => (cell st j).t.toNat, fun v st => upd st j (fun x => ⟨x.v, BitVec.ofNat 64 v⟩)⟩,
       ⟨m + 18 + j, 1, fun st => (((st.regs.vQ r).drop j).head?.map (holeName st.replay)).getD 0, fun _ st => st⟩]) ++
    [⟨m + 16, 1, fun st => (st.regs.vQ r).length, fun v st => st.setRegs (fun g =>
        g.setVQ r (qResize VV.zero 2 v (g.vQ r)))⟩,
     ⟨m + 17, 1, fun st => holeMap (st.regs.vQ r), fun _ st => st⟩]
  else
    [⟨0xC00 + 12288 + 256 * (r - 24), 256, fun st => (st.regs.vP r).v.toNat,
      fun v st => st.setRegs (fun g => g.setVP r ⟨BitVec.ofNat 2048 v, (g.vP r).t⟩)⟩,
     ⟨m, 8, fun st => (st.regs.vP r).t.toNat, fun v st => st.setRegs (fun g => g.setVP r ⟨(g.vP r).v, BitVec.ofNat 64 v⟩)⟩]

/-- q0 to q15, 128 bytes each: descriptor, chain word, the predicates its MASK stages captured, position, length, scale. -/
def streamFields (q : Nat) : List (Field Strand) :=
  let o := 0x4C00 + 128 * q
  let word (i : Nat) (g : Stream → Nat) (p : W64 → Stream → Stream) : Field Strand :=
    ⟨o + 8 * i, 8, fun st => ((mget? st.streams q).map g).getD 0, fun v st => { st with
      streams := match mget? st.streams q with
        | none => st.streams
        | some y => mset st.streams q (p (BitVec.ofNat 64 v) y) }⟩
  let masked (y : Stream) (j : Nat) : Nat :=
    let x := y.chain.toNat / 2 ^ (12 * j) % 2 ^ 12
    if x / 256 = 4 then (mget y.preds (x % 8) PV.zero).v.toNat else 0
  (List.range 8).map (fun i => word i (fun y => ((y.desc.drop i).headD 0).toNat) (fun v y => { y with desc := y.desc.set i v })) ++
  [word 8 (fun y => y.chain.toNat) (fun v y => { y with chain := v })] ++
  (List.range 4).map (fun j => word (9 + j) (fun y => masked y j) (fun _ y => y)) ++
  [word 13 Stream.pos (fun v y => { y with pos := v.toNat }),
   word 14 Stream.length (fun _ y => y),
   word 15 (fun y => y.scale.toNat) (fun v y => { y with scale := v.setWidth 32 })]

/-- tc0 to tc7 with fault records and flags, 32 bytes each; then the link descriptors of v0 to v23. -/
def counterFields (i : Nat) : List (Field Strand) :=
  let word (j : Nat) (g : Tc → Nat) (p : Nat → Tc → Tc) : Field Strand :=
    ⟨0x5400 + 32 * i + 8 * j, 8, fun st => ((mget? st.tcs i).map g).getD 0, fun v st => { st with
      tcs := mset st.tcs i (p v (mget st.tcs i ⟨0, 0, 0, 0, 0⟩)) }⟩
  [word 0 (fun c => c.count.toNat) (fun v c => { c with count := BitVec.ofNat 64 v }),
   word 1 (fun c => c.fault.toNat) (fun v c => { c with fault := BitVec.ofNat 64 v }),
   word 2 (fun c => c.addr.toNat) (fun v c => { c with addr := BitVec.ofNat 64 v }),
   word 3 (fun c => c.flags.toNat) (fun v c => { c with flags := BitVec.ofNat 7 v })]
def linkField (r : Nat) : Field Strand :=
  ⟨0x5500 + 8 * r, 8, fun st => ((mget? st.links r).map (fun l =>
    2 ^ 63 + (if l.broken then 2 ^ 62 else 0) + l.peer * 2 ^ 8 + l.reg)).getD 0, fun _ st => st⟩

/-- The spill bank as bytes. -/
def Strand.spillByte (st : Strand) (o : Nat) : Byte := BitVec.ofNat 8 ((mget st.spill (o / 4) (0, false)).1.toNat >>> (8 * (o % 4)))
def Strand.pokeSpill (st : Strand) (o : Nat) (b : Byte) : Strand :=
  let x := mget st.spill (o / 4) (0, false)
  let w := leNat ((leBytes 4 x.1.toNat).set (o % 4) b)
  { st with spill := mset st.spill (o / 4) (BitVec.ofNat 32 w, x.2) }

/-- Every field of a strand block below the spill bank. -/
def strandFields : List (Field Strand) :=
  headFields ++ (List.range 8).flatMap predFields ++ (List.range 32).flatMap scalarFields ++
    (List.range 32).flatMap vectorFields ++ (List.range 16).flatMap streamFields ++ (List.range 8).flatMap counterFields ++
    (List.range 24).map linkField ++ (List.range 24).flatMap replayFields

/-- Byte `o` of a strand block. -/
def Strand.blockByte (st : Strand) (o : Nat) : Byte :=
  if o < 0x10000 then fieldByte strandFields st o else if o < 0x20000 then st.spillByte (o - 0x10000) else 0

/-- Bytes that the external debugger writes into the block of a stopped strand (R387). -/
def Strand.poke (st : Strand) (edits : List (Nat × Byte)) : Strand :=
  let lo := edits.filter (fun e => decide (e.1 < 0x10000))
  let hi := edits.filter (fun e => decide (0x10000 ≤ e.1 ∧ e.1 < 0x20000))
  let st1 := if lo.isEmpty then st else strandFields.foldl (fun s f => f.write lo s) st
  hi.foldl (fun s e => s.pokeSpill (e.1 - 0x10000) e.2) st1

/-! ### The core block and the area (Table 16-7) -/

/-- Gang state, join bits, semaphores (32 bytes each: count, then who waits), mutexes (32 bytes each: holder, then who waits). -/
def coreFields : List (Field Core) :=
  let waiter (l : List Nat) (j : Nat) : Nat := ((l.drop j).head?.map (· + 1)).getD 0
  [⟨0, 8, fun c => bitsOf (c.gang.on :: (List.range 4).map (fun p => (mget? c.gang.arrived p).isSome)), fun _ c => c⟩,
   ⟨8, 8, fun c => c.join.toNat, fun _ c => c⟩] ++
  (List.range 16).flatMap (fun i =>
    let sem (c : Core) : Sem := mget c.sems i ⟨0, [], 0⟩
    let mux (c : Core) : Mutex := mget c.muts i ⟨none, [], [], 0⟩
    [⟨16 + 16 * i, 8, fun c => (sem c).count, fun _ c => c⟩,
     ⟨24 + 16 * i, 4, fun c => packN 8 ((List.range 4).map (waiter ((sem c).waits.map (fun w => w.1 % 4)))), fun _ c => c⟩,
     ⟨272 + 16 * i, 8, fun c => ((mux c).holder.map (· + 1)).getD 0, fun _ c => c⟩,
     ⟨280 + 16 * i, 4, fun c => packN 8 ((List.range 4).map (waiter ((mux c).waits.map (fun w => w.1 % 4)))), fun _ c => c⟩])

/-- The image of a copy of a bank, with the bank's generation in its reserved bytes 8 and 9 (R74, Table 16-7). -/
def Bank.savedImage (b : Bank) (c : Nat) : List Byte :=
  let l := imageOfCopy (if c = 0 then b.current else if b.cur then b.c0 else b.c1)
  l.take 8 ++ leBytes 8 b.gen.toNat ++ l.drop 16

/-- Byte `o` of a core block. -/
def Core.blockByte (c : Core) (o : Nat) : Byte :=
  if o < 0x400 then fieldByte coreFields c o
  else if o < 0x400 + 16 * 2112 then
    let k := (o - 0x400) / 2112
    (((c.bank (k / 2)).savedImage (k % 2)).drop ((o - 0x400) % 2112)).headD 0
  else if 0x8800 ≤ o ∧ o < 0x8840 then
    BitVec.ofNat 8 (bitsOf ((List.range 8).map (fun j => (mget? c.park (8 * (o - 0x8800) + j)).isSome)))
  else if 0x10000 ≤ o ∧ o < 0x30000 then
    BitVec.ofNat 8 ((mget c.park ((o - 0x10000) / 256) VV.zero).v.toNat >>> (8 * ((o - 0x10000) % 256)))
  else 0

/-- Byte `o` of a group's save area: strand blocks by position, 128 KiB each, then core blocks in order, 192 KiB each (R380). -/
def SavedGroup.byte (g : SavedGroup) (o : Nat) : Byte :=
  let k := g.strands.length
  if o < 0x20000 * k then ((mget? g.strands (o / 0x20000)).map (fun st => st.blockByte (o % 0x20000))).getD 0
  else ((mget? g.cores ((o - 0x20000 * k) / 0x30000)).map (fun c => c.blockByte ((o - 0x20000 * k) % 0x30000))).getD 0

end Sys2Proof.Machine
end

