-- ==== Sys2Proof/Machine/Saves.lean ====
section
/-! DEFINITION. Pre-emption and saves (R374 to R380, R425), resume (R381), stops for the external debugger (R386, R387).
A saved strand keeps its whole image; live entries are its open operations, marked to be checked again. Machine/Block.lean gives
the image as the bytes of its block. -/

namespace Sys2Proof.Machine

/-! ### Stopping a strand (R375, R376) -/

/-- Clock ts of a strand: it issues nothing more; a `YIELD` that has not completed counts as completed (R375). -/
def Strand.beginSave (st : Strand) : Strand :=
  if st.halted then st
  else
    let isY (e : Entry) : Bool := decide (e.instr = .yield)
    let wait := match st.front.waitC with
      | some id => if st.open_.any (fun e => e.id == id && isY e) then none else some id
      | none => none
    { st with open_ := st.open_.filter (fun e => !isY e), front := { st.front with stopped := true, waitC := wait } }

/-- An operation with a fixed write-back clock that has not yet completed, and that nothing of open length holds up: no
earlier open writer of its register or user of its stream, no read of its own (R376 step 1). -/
def Strand.ending (st : Strand) (e : Entry) : Bool :=
  fixedClock e.instr && !e.slip && !st.blockedEntry e && (match e.instr with
    | .sbind .. => e.step != 0
    | .schain .. => !st.streamBefore e
    | .spos .. => !st.streamBefore e
    | _ => true)

/-- Operations with a fixed write-back clock have completed, pushes through links have committed, and no `PGPASS` has its page
closed (R340, R376 steps 1, 4). -/
def Strand.settledForSave (st : Strand) : Bool :=
  st.flights.isEmpty && st.linkPend.isEmpty && st.open_.all (fun e => !st.ending e) && !st.passing

/-- Where a save resumes: number, PC and first slot of the oldest bundle with a slot neither issued nor entered (R376). -/
def Strand.resumeAt (st : Strand) : Nat × W64 × Nat :=
  match st.front.pairs with
  | p :: _ => (p.seq, p.pc, if p.from_ = 2 then 2 else 1)
  | [] =>
    match st.front.latch with
    | some b => (b.seq, b.pc, if b.aDone ∧ b.from_ = 0 then 1 else b.from_)
    | none => (st.front.seq, st.front.pc, st.front.firstSlot)

/-- An open operation as a live entry: its checks are made again, it keeps its reservation and its captures (R75, R370). A waiting slot-C
operation leaves its wait list and arrives again at resume, and a `TENQ` finds its queue again there (R304, R376, R381). An entry
that a `RPLY` or `ERET` had begun to complete is live from now on (R425). -/
def Entry.toLive (e : Entry) : Entry :=
  if e.slot = 2 then
    let x := { e with frame := false, live := true }
    (match e.instr with
     | .semwait .. => { x with step := 0 }
     | .mxlock .. => { x with step := 0 }
     | .mxtry .. => { x with step := 0 }
     | .tlbinv .. => { x with step := 0 }
     | .tenq .. => { x with step := Nat.min 1 x.step }
     | _ => x)
  else { e with frame := false, slip := true, placed := true, live := true }

/-- The image of a strand at step 3 of R376: live entries in program order, resume PC, slot and marks. A slot A that had
completed ahead of its turn stands for good, its bundle marked. -/
def Strand.image (st0 : Strand) : Strand :=
  let (seq, pc, slot) := st0.resumeAt
  let done := st0.past
  let st := Strand.settle { st0 with front := { st0.front with pairs := [] } }
  let st := { st with front := st0.front }
  let ws := st.wq.map (fun w => { w.toEntry with frame := false, placed := true, live := true })
  let es := (st.open_.map Entry.toLive ++ ws).foldl (fun l e => insertEntry e l) []
  let marks := st.marksAfter seq ((es ++ done).filter (fun e => decide (seq < e.seq) && e.slot != 2))
  { st with
    open_ := es, wq := []
    streams := st.streams.map (fun q => (q.1, { q.2 with rds := [] }))
    front := { st.front with
      pc := pc, fellOff := st.front.fellOff && st.front.pairs.isEmpty && st.front.latch.isNone
      firstSlot := slot, latch := none, pairs := [], held := none
      marks := marks.map (fun m => (st.front.seq + m.1, m.2)), stalled := false, trapped := false, yielded := false
      stopped := !st.running } }

/-- Capture a strand where it stands, for cause `c`: a trap that waits is recorded as taken (R376); then its image replaces it. In
a gang, what it holds of a long word that has not issued is settled first (R117, R377). -/
def State.capture (s : State) (n : Nat) (c : Cause) : State :=
  let s0 := if (s.core (coreOf n)).gang.on then s.gangHeld n else s
  let s1 := match (s0.strand n).front.trapping with
    | some (seq, pc, t) => s0.enterTrap n seq pc t
    | none => s0
  let st := s1.strand n
  if st.bound.isNone then s1
  else (s1.forgetStrand n).modStrand n (fun st => st.image.setCtl (fun x => { x with svcause := BitVec.ofNat 8 c.code }))

/-! ### Pre-emption (R374, R375) -/

/-- `PREEMPT_REQUEST`: PREQ and DLINE of every strand of the group, in one clock. -/
def execPreemptRequest (lid grp len : Nat) (s : State) : Result :=
  match s.groupAt lid grp with
  | none => .next s
  | some g =>
    if g.phase ≠ .running then .next s
    else .next (g.strands.foldl (fun s n => s.modStrand n (fun st => { st with
      ctl := { st.ctl with preq := true, dline := BitVec.ofNat 32 len, t0 := s.clk } })) s)

/-- A group's save is due: its deadline has come, or every strand has yielded or halted. -/
def State.saveDue (s : State) (g : Group) : Bool :=
  let ss := g.strands.map s.strand
  decide (g.phase = .saving) ||
    (decide (g.phase = .running) && ss.any (fun st => st.ctl.preq) && !ss.all (fun st => st.halted) &&
      (ss.any (fun st => st.ctl.preq && decide (st.ctl.t0 + st.ctl.dline.toNat ≤ s.clk)) ||
        ss.all (fun st => st.halted || st.front.yielded)))

/-- Links name their peers by position while a group is saved (R380). -/
def Strand.mapPeers (st : Strand) (f : Nat → Nat) : Strand :=
  let dst (d : Dest) : Dest := match d with
    | .lk r p q => .lk r (f p) q
    | x => x
  { st with
    links := st.links.map (fun l => (l.1, { l.2 with peer := f l.2.peer }))
    open_ := st.open_.map (fun e => { e with dests := e.dests.map dst })
    frame := st.frame.map (fun e => { e with dests := e.dests.map dst }) }

/-- The bank copies that a strand's replay entries have captured (Table 3-9). -/
def Strand.capsHeld (st : Strand) : List (Nat × Nat) := (st.open_ ++ st.frame).flatMap Entry.caps

/-- Store the group: strand images by position, core images in order, and its units are free (R376 step 4, R379). -/
def State.storeGroup (s : State) (g : Group) (svcause : Cause) : State :=
  let posOf (n : Nat) : Nat := (g.strands.zipIdx.find? (fun p => p.1 == n)).map Prod.snd |>.getD 0
  let cores := (g.strands.map coreOf).eraseDups
  let img : SavedGroup :=
    { lid := g.lid, grp := g.grp
      strands := g.strands.zipIdx.map (fun p => (p.2, (s.strand p.1).mapPeers posOf))
      cores := cores.zipIdx.map (fun p => (p.2, s.core p.1)), svcause := svcause }
  let s1 := g.strands.foldl (fun s n => (s.releaseBanks (coreOf n) (s.strand n).capsHeld).setStrand n Strand.reset) s
  let s2 := cores.foldl (fun s c => s.freeGang c) s1
  { s2 with saved := s2.saved ++ [img] }.modGroup g.lid g.grp (fun x => { x with phase := .saved, strands := [] })

/-- `FORCED_SAVE`: begins at the deadline; then, in each clock behind its traps, it goes on until every strand has settled (R363,
R375, R376). -/
def execForcedSave (lid grp : Nat) (s : State) : Result :=
  match s.groupAt lid grp with
  | none => .next s
  | some g =>
    if !s.saveDue g then .next s
    else if g.phase = .running then
      .next (g.strands.foldl (fun s n => s.modStrand n Strand.beginSave) (s.modGroup lid grp (fun x => { x with phase := .saving })))
    else if g.strands.all (fun n => (s.strand n).settledForSave) then
      let s2 := g.strands.foldl (fun s n => s.capture n .preempt) s
      match s2.groupAt lid grp with
      | some h => if h.phase = .saving then .next (s2.storeGroup g .preempt) else .next s2
      | none => .next s2
    else .next s

/-! ### Resume (R379, R381) -/

/-- The banks of a core block, with no reader yet (Table 3-9). -/
def Core.savedBanks (img : Core) : AMap Bank := img.banks.map (fun b => (b.1, b.2.unread))

/-- Restore a core block of a group of level core or above. -/
def Core.restored (c img : Core) (ctx : Option Nat) : Core :=
  { c.cleared ctx img.savedBanks with
    join := img.join, joinPts := img.joinPts, sems := img.sems, muts := img.muts, gang := img.gang, park := img.park
    parkGranted := false }

/-- The park area of a resumed core takes its slots again, where they can be had (R277, R293). -/
def State.restorePark (s : State) (c : Nat) (img : Core) : State :=
  if img.parkGranted then (s.grantPark c).1.modCore c (fun k => { k with park := img.park }) else s

/-- Restore the core of a strand-level group: banks and park area only where the core holds no strand of the context. Join bits,
semaphores and mutexes stay with a core that the context still owns (R379, Table 17-2). -/
def State.restoreCore (s : State) (level lid c : Nat) (img : Core) : State :=
  let ctx := s.ctxPaOf lid
  if level ≠ 0 then ((s.clearCore c ctx []).modCore c (fun k => k.restored img ctx)).restorePark c img
  else if s.coreHolds c lid then s
  else
    let old := s.core c
    ((s.clearCore c ctx img.savedBanks).modCore c (fun k =>
      let k1 := { k with park := img.park, parkGranted := false }
      if old.ctx = ctx then k1.keepShared old else k1)).restorePark c img

/-- The captures of a resumed group's tasks: let go where they stood, and once the cores are restored counted on the core of
the strand that enqueued them (R75, R378). -/
def State.letGoTasks (s : State) (lid grp : Nat) : State :=
  s.tasks.foldl (fun (s : State) t => if t.bound.lid = lid ∧ t.bound.grp = grp then
    (t.caps.filter (fun c => decide (c.1 < 512))).foldl (fun s c => s.releaseBanks c.1 [c.2]) s else s) s
def State.holdTasks (s : State) (lid grp : Nat) (strandAt : Nat → Nat) : State :=
  let s1 := s.tasks.foldl (fun (s : State) t => if t.bound.lid = lid ∧ t.bound.grp = grp then
    s.recaptureBanks (coreOf (strandAt t.bound.pos)) (t.caps.map Prod.snd) else s) s
  { s1 with tasks := s1.tasks.map (fun (t : Task) =>
      if t.bound.lid = lid ∧ t.bound.grp = grp then
        { t with strand := strandAt t.bound.pos, caps := t.caps.map (fun c => (coreOf (strandAt t.bound.pos), c.2)) }
      else t) }

/-- A restored strand: PREQ and DLINE are cleared (R374), and the strand issues from START on. -/
def Strand.resumed (img : Strand) (b : Bound) (peers : Nat → Nat) (clk : Nat) : Strand :=
  { img.mapPeers peers with
    bound := some b
    ctl := { img.ctl with preq := false, dline := 0, t0 := 0 }
    front := { img.front with wake := clk } }

/-- Resume one group on its strands; a record whose group's image is gone frees its unit (log entry 77). -/
def State.resumeGroup (s : State) (level : Nat) (l : Launch) (cw : List W64) (grp : Nat) (ns : List Nat) : State :=
  match s.saved.find? (fun x => x.lid == l.lid && x.grp == grp) with
  | none => s
  | some sv =>
    let cores := (ns.map coreOf).eraseDups
    let s1 := cores.zipIdx.foldl (fun (s : State) p => match mget? sv.cores p.2 with
      | some c => s.restoreCore level l.lid p.1 c
      | none => s) (s.letGoTasks l.lid grp)
    let at_ (p : Nat) : Nat := (ns.drop p).headD 0
    let s2 := ns.zipIdx.foldl (fun (s : State) p => match mget? sv.strands p.2 with
      | some st => (s.setStrand p.1 (st.resumed (boundOf l cw grp p.2) at_ s.clk)).recaptureBanks (coreOf p.1) st.capsHeld
      | none => s) s1
    let s3 := { s2 with saved := s2.saved.filter (fun x => !(x.lid == l.lid && x.grp == grp)) }.holdTasks l.lid grp at_
    (ns.foldl State.warmFetch s3).modGroup l.lid grp (fun x => { x with phase := .running, strands := ns })

/-- `GROUP_RESUME`: a due record with RES = 1. -/
def execGroupResume (entry : Nat) (s : State) : Result :=
  match mget? s.placement entry with
  | none => .next s
  | some b =>
    if s.clk < b.start ∨ !b.res then .next s
    else
      let s1 := s.prepare entry
      match mget? s1.launches b.lid with
      | none => .next s1
      | some l =>
        let s2 := { s1 with placement := mdel s1.placement entry }
        .next (b.groups.foldl (fun s g => s.resumeGroup b.level l (s1.launchCtx l) g.1 g.2) s2)

/-! ### Debug (R386, R387) -/

/-- Pushes through links into or out of strand `n` are under way. -/
def State.pushing (s : State) (n : Nat) : Bool :=
  s.strands.any (fun p => p.2.linkPend.any (fun q => p.1 == n || q.peer == n) ||
    p.2.flights.any (fun f => f.wbs.any (fun w => match w with
      | .lk _ peer _ _ => p.1 == n || peer == n
      | _ => false)))

/-- `DEBUG_STOP`: a forced save of one strand with LEN = 0, which stays bound; its image stays in place. -/
def execDebugStop (n : Nat) (s : State) : Result :=
  let st := s.strand n
  if st.bound.isNone || !st.running || st.halted then .next s
  else
    if !st.front.stopped then .next (s.modStrand n Strand.beginSave)
    else if st.settledForSave && !s.pushing n then
      let s2 := s.capture n .debug
      .next (if (s2.strand n).running then
        s2.modStrand n (fun x => { x with running := false, front := { x.front with stopped := true } }) else s2)
    else .next s

/-- `DEBUG_RESUME`: the strand goes on in place, after what the external debugger has written into its block
(R387). -/
def execDebugResume (r : Resumption) (s : State) : Result :=
  let st := s.strand r.strand
  if st.bound.isNone || st.running || !st.front.stopped then .next s
  else .next (s.modStrand r.strand (fun x =>
    let y := x.poke r.edits
    { y with running := true, front := { y.front with stopped := false, wake := s.clk } }))

/-- `CURATOR_DBGCTL_WRITE`. -/
def execCuratorDbgctlWrite (n : Nat) (v : BitVec 64) (s : State) : Result :=
  .next (s.modStrand n (fun st => { st with ctl := { st.ctl with dbgctl := v.setWidth 2 } }))

end Sys2Proof.Machine
end

