-- ==== Sys2Proof/Machine/Upkeep.lean ====
section
/-! DEFINITION. Upkeep of the module: page walks (R66, R76, R77), shootdowns (R78, R163), page migration (R301), context
teardown (R394), uncorrectable errors (R383, R385), boot and attestation (R397 to R399), ageing, power and coolant (R400
to R402). -/

namespace Sys2Proof.Machine

/-! ### Walks -/

/-- A leaf serves an open miss: its page lies in the leaf, whose D is set where the miss wants it (R66, R77). -/
def Miss.servedBy (m : Miss) (t : Tlb) : Bool :=
  t.hits m.asid ((BitVec.ofNat 57 (4096 * m.page)).signExtend 64) && (!m.wantD || pteD t.w0)

/-- `WALK_COMPLETE`: the walk for an open miss ends; its translation is installed and serves every open miss that it covers, or
its fault is delivered to the accesses that retry in the next clock (R66, R77, R79; log entry 69). -/
def execWalkComplete (wing asid va : Nat) (s : State) : Result :=
  match (s.wing wing).misses.find? (fun m => m.asid == asid && m.page == va % 2 ^ 57 / 4096) with
  | none => .next s
  | some m =>
    let s0 := s.modWing wing (fun g => { g with
      misses := g.misses.filter (fun x => !(x.asid == m.asid && x.page == m.page))
      missFaults := g.missFaults.filter (fun f => decide (s.clk ≤ f.clk + 1)) })
    -- bit 56 extends to the left, so that the address is canonical (R58)
    let a := (BitVec.ofNat 57 (4096 * m.page)).signExtend 64
    match s0.walk ⟨m.root, m.asid, m.tenant, 0, wing / 8⟩ a m.wantD with
    | (s1, .leaf t) =>
      -- the cores of the wing see the bits that this walk has set
      let s2 := s1.modWing wing (fun g => { g with
        tlb := tlbPut 4096 g.tlb t, misses := g.misses.filter (fun x => !x.servedBy t) })
      .next ((List.range 8).foldl (fun s i => s.modCore (8 * wing + i) (fun c => { c with
        tlb := c.tlb.map (fun e => if e.asid = t.asid ∧ e.base = t.base ∧ e.level = t.level then t else e) })) s2)
    | (s1, .fault c x) =>
      .next (s1.modWing wing (fun g => { g with missFaults := g.missFaults ++ [⟨m.asid, m.page, c, x, s.clk⟩] }))

/-! ### Shootdown (R78, R163) -/

/-- A region of `size` bytes at `a` overlaps the pages of [base, base + len), which runs past the top to 0 (R163). -/
def Shoot.covers (q : Shoot) (a size : Nat) : Bool :=
  let lo := q.base / 4096
  let hi := (q.base + q.len - 1) / 4096
  let p0 := a / 4096
  let p1 := (a + size - 1) / 4096
  decide (p0 ≤ hi ∧ lo ≤ p1) || decide (p0 + 2 ^ 45 ≤ hi ∧ lo ≤ p1 + 2 ^ 45)

def Shoot.drops (q : Shoot) (t : Tlb) : Bool := t.asid == q.asid && q.covers t.base t.size

/-- Drop every TLB, miss-table and walk-cache entry that could hold an old entry; of the walk caches, all of the ASID. The
dies' leased copies of lines written since go too: a walk must not read an old entry out of one (R66, R78). -/
def State.dropTranslations (s : State) (q : Shoot) : State :=
  { s with
    cores := s.cores.map (fun (c : Nat × Core) => (c.1, { c.2 with tlb := c.2.tlb.filter (fun t => !q.drops t) }))
    wings := s.wings.map (fun (w : Nat × Wing) => (w.1, { w.2 with
      tlb := w.2.tlb.filter (fun t => !q.drops t)
      misses := w.2.misses.filter (fun m => !(m.asid == q.asid && q.covers (4096 * m.page) 4096)) }))
    dies := s.dies.map (fun (d : Nat × Die) => (d.1, { d.2 with
      walk := d.2.walk.filter (fun e => e.asid != q.asid)
      l2 := d.2.l2.filter (fun c => !(c.2.asid == q.asid && c.2.wts != (s.home c.1).wts)) })) }

/-- The page of a `PGPASS` that has closed it, and the page of its flag: both leaves were translated and not yet used (R338). -/
def Entry.passPlaces (e : Entry) : List W64 :=
  match e.instr with
  | .pgpass .. => if e.step = 1 then [e.xv, e.yv] else []
  | _ => []

/-- An access that translated by an old entry has not performed: reads and writes under way of strands and their streams, of
fills, tasks and dispatch, with numbers below `k` (R78). -/
def State.oldAccess (s : State) (q : Shoot) (k : Nat) : Bool :=
  let hit (va : W64) (n : Nat) : Bool := q.covers (va57 va) (Nat.max 1 n)
  let due (r : Rd) : Bool := r.got.isNone && hit r.va r.len
  s.strands.any (fun p => (s.asidOf p.1 == q.asid) &&
    (p.2.open_.any (fun e => decide (e.id < k) && ((!e.slip && e.rds.any due) || e.passPlaces.any (fun a => hit a 8))) ||
     p.2.streams.any (fun y => decide (y.2.planned < k) && y.2.rds.any due) ||
     p.2.wq.any (fun w => decide (w.id < k) && w.pieces.any (fun x => hit x.va 256)))) ||
  s.placement.any (fun p => decide (p.2.uid < k) && !p.2.prepared && p.2.rds.any due &&
    (mget? s.launches p.2.lid).any (fun l => ctxAsid (s.launchCtx l) == q.asid)) ||
  s.wings.any (fun w => w.2.fills.any (fun f => f.tag.asid == q.asid && decide (f.id < k) && !f.done && f.rds.any (fun r => hit r.va r.len))) ||
  s.tasks.any (fun t => t.bound.asid == q.asid && t.out.any (fun o => hit o.va 256))

/-! ### Page migration (R301) -/

/-- A copy touches the page that held an address. -/
def Slot.onPage (x : Slot) (asid va : Nat) : Bool := x.pages.any (fun t => t.hits asid (BitVec.ofNat 64 va))

/-- Remove a copy: its pins are broken, and the strands of each core that pinned it receive PINLOST. -/
def State.evict (s : State) (w k : Nat) : State :=
  let x := s.slotOf w k
  let s1 := s.freeSlot w k
  ((List.range 8).filter (fun c => x.pins.getLsbD c)).foldl (fun s c =>
    (coreStrands (8 * w + c)).foldl (fun s n => s.modStrand n (fun st => { st with ctl := { st.ctl with pinLost := true } })) s) s1

/-- Steps 2 to 4 of R301: dirty copies touching the page are written back to the old frame, then every copy is unpinned and
invalidated, then PINLOST. -/
def State.movePage (s : State) (asid va : Nat) : State :=
  let f (x : Slot) : Bool := x.onPage asid va
  let s1 := (s.copiesOf (fun x => f x && x.dirty)).foldl (fun s p => s.writeBackLazy p.1 p.2) s
  (s1.copiesOf f).foldl (fun s p => s.evict p.1 p.2) s1

/-- The translations that the module holds: in TLBs, with tile copies, with fills under way. -/
def State.leavesHeld (s : State) : List Tlb :=
  s.cores.flatMap (fun c => c.2.tlb) ++ s.wings.flatMap (fun w => w.2.tlb ++
    w.2.slots.flatMap (fun x => x.2.pages) ++ w.2.fills.flatMap Fill.pages)

/-- Base and length of the page of an address as it is held anywhere, the largest where its size has changed; 4 KiB, the
smallest page, where nothing holds it (R61). -/
def State.pageSpan (s : State) (asid va : Nat) : Nat × Nat :=
  (s.leavesHeld.filter (fun t => t.hits asid (BitVec.ofNat 64 va))).foldl (fun b t => if b.2 < t.size then (t.base, t.size) else b)
    (va % 2 ^ 57 / 4096 * 4096, 4096)

/-- `PAGE_MIGRATE`: the Curator first runs the shootdown of the whole page, behind those that reached it before; the tiles go
once it completes (R78, R301). -/
def execPageMigrate (asid va : Nat) (s : State) : Result :=
  let (base, len) := s.pageSpan asid va
  .next (s.curator (fun c => { c with shootdowns := c.shootdowns ++
    [{ n := 4096, id := 0, asid := asid, base := base, len := len, dropped := none, move := some va }] }))

/-- `SHOOTDOWN`: the Curator carries out the request that reached it first: drops, then ends it once no old access is
left; its `TLBINV` completes, or the tiles of its page go (R78, R163, R301). -/
def execShootdown (s : State) : Result :=
  match s.cur8.shootdowns with
  | [] => .next s
  | q :: r =>
    match q.dropped with
    | none =>
      .next ((s.dropTranslations q).curator (fun c => { c with shootdowns := { q with dropped := some s.opId } :: r }))
    | some k =>
      if s.oldAccess q k then .next s
      else
        let s1 := s.curator (fun c => { c with shootdowns := r })
        .next (match q.move, s1.entry? q.n q.id with
          | some va, _ => s1.movePage q.asid va
          | none, some e => s1.finishC q.n e []
          | none, none => s1)

/-! ### Context teardown (R394) -/

/-- No cache keeps a copy of a line read for the ASID: its next owner could read it within the old lease (R82, R395). -/
def State.forgetLines (s : State) (asid : Nat) : State :=
  { s with
    cores := s.cores.map (fun (c : Nat × Core) => (c.1, { c.2 with l1 := c.2.l1.filter (fun l => l.2.asid != asid) }))
    dies := s.dies.map (fun (d : Nat × Die) => (d.1, { d.2 with l2 := d.2.l2.filter (fun l => l.2.asid != asid) })) }

/-- Detach one task queue, its header written with SEQ stores (R304, R394 step 3). -/
def State.detachQueue (s : State) (q : TaskQueue) : State :=
  let s1 := s.writeHeader q q.stop
  { s1 with tqueues := s1.tqueues.filter (fun x => x.qpa != q.qpa), tasks := s1.tasks.filter (fun t => t.qpa != q.qpa) }

/-- `CONTEXT_TEARDOWN`: the six steps of R394, once every launch of the context has completed. -/
def execContextTeardown (asid : Nat) (s : State) : Result :=
  let ofCtx (l : Launch) : Bool := ctxAsid (s.launchCtx l) == asid
  if s.launches.any (fun l => ofCtx l.2) then .next s
  else
    let mine (x : Slot) : Bool := x.tag.asid == asid
    -- 1: write back; WBF copies are discarded, which the Curator logs (R294)
    let s1 := (s.copiesOf (fun x => mine x && x.dirty && !x.wbf)).foldl (fun s p => s.writeBackLazy p.1 p.2) s
    let lost := !(s1.copiesOf (fun x => mine x && x.wbf)).isEmpty
    let s2 := (s1.copiesOf mine).foldl (fun s p => s.freeSlot p.1 p.2) (if lost then s1.note 4 asid else s1)
    -- 2: pins went with the copies; engine claims of the context's queues, and what the engines know of the context (R318)
    let qs := s2.tqueues.filter (fun q => q.asid == asid)
    let s3 := { s2 with wings := s2.wings.map (fun (w : Nat × Wing) => (w.1, { w.2 with
      engines := w.2.engines.map (fun (e : Nat × Engine) => (e.1, { e.2 with
        claim := if qs.any (fun q => e.2.claim == some q.qpa) then none else e.2.claim
        ctx := if e.2.ctx = some asid then none else e.2.ctx })) })) }
    -- 3: task queues
    let s4 := qs.foldl (fun s q => s.detachQueue q) s3
    -- 4: catalogue entries; 5: translations
    let s5 := { s4 with catalogue := s4.catalogue.filter (fun e => e.tag.asid != asid) }
    let s6 := (s5.dropTranslations { n := 0, id := 0, asid := asid, base := 0, len := 2 ^ 57, dropped := none }).forgetLines asid
    -- 6: cores and park slots
    let pas := (s6.contexts.filter (fun c => ctxAsid c.words == asid)).map Context.pa
    let cs := (s6.cores.filter (fun c => c.2.ctx.any (fun a => pas.contains a))).map Prod.fst
    let s7 := cs.foldl (fun s c => (s.freePark c).modCore c (fun k => { k with ctx := none })) s6
    .next { s7 with contexts := s7.contexts.filter (fun c => !pas.contains c.pa) }

/-! ### Uncorrectable errors (R382, R383, R385) -/

/-- The killed attempt of a launch leaves the machine: its pending records are gone, its groups killed, saved ones too, its
strands torn down and its tasks over. Its groups leave for a relaunch; else each one that had started is FAULTED (R383, R391,
log entry 83). -/
def State.endAttempt (s : State) (lid : Nat) (again : Bool) : State :=
  let s1 := (s.dropRecords lid).1.killLaunch lid false
  let s2 := (s1.groups.filter (fun g => g.lid == lid)).foldl (fun s g => s.teardown g) s1
  let ts := s2.tasks.filter (fun t => t.bound.lid == lid && !t.isDone)
  -- a task already dispatched stops after the rows it has written, without a counter to raise (R97, R314)
  let s3 := ts.foldl (fun s t => (s.releaseTask t).modTask t.uid (fun x => { x with
    caps := [], bound := { x.bound with lid := 4096 }, out := [], ops := [], wrote := []
    ran := x.ran || x.dispatched })) s2
  { s3 with groups := if again then s3.groups.filter (fun g => g.lid != lid)
                      else s3.groups.map (fun (g : Group) => if g.lid = lid then { g with phase := .ended 2, strands := [] } else g) }

/-- The lowest of the groups of a launch that have started: the fault of its fourth error is that of all of them (R391). -/
def State.lowestGroup (s : State) (lid : Nat) : Nat :=
  (((s.groups.filter (fun g => g.lid == lid)).map Group.grp).min?).getD 0

/-- What an uncorrectable error leaves: its line is marked, or the value, row or entry that holds it is tagged (R371, R382). -/
def State.damage (s : State) (e : MemErr) : State :=
  let strand (n : Nat) (f : Strand → Strand) : State := if n < 2048 then s.modStrand n f else s
  match e.place with
  | .line => if paHome e.pa then s.mark (e.pa / 256) else s
  | .scalar n r i => strand n (fun st => st.setRegs (fun g =>
      if r < 24 then g.setSQ r (setAt (g.sQ r) i (QCell.edit (fun x => ⟨x.v, true⟩))) else g.setSP r ⟨(g.sP r).v, true⟩))
  | .vector n r i lane => strand n (fun st => st.setRegs (fun g =>
      let bad (x : VV) : VV := ⟨x.v, x.t ||| (1#64 <<< lane)⟩
      if r < 24 then g.setVQ r (setAt (g.vQ r) i (QCell.edit bad)) else g.setVP r (bad (g.vP r))))
  | .pred n k bit => strand n (fun st => st.setRegs (fun g => g.setKP k ⟨(g.kP k).v, (g.kP k).t ||| (1#64 <<< bit)⟩))
  | .spill n w => strand n (fun st => { st with spill := mset st.spill w ((mget st.spill w (0, false)).1, true) })
  | .park c e lane => s.modCore c (fun k => { k with
      park := k.park.map (fun x => if x.1 = e then (e, ⟨x.2.v, x.2.t ||| (1#64 <<< lane)⟩) else x) })
  | .row w k r => s.modWing w (fun g => { g with
      slots := g.slots.map (fun x => if x.1 = k then (k, { x.2 with prow := x.2.prow ||| (1#64 <<< r) }) else x) })
  | .engine w e r => s.modWing w (fun g => { g with
      engines := g.engines.map (fun x => if x.1 = e then (e, { x.2 with rowPoison := x.2.rowPoison ||| (1#256 <<< r) }) else x) })
  | .l1 c l => s.modCore c (fun k => { k with l1 := k.l1.map (fun x => if x.1 = l then (l, { x.2 with mark := true }) else x) })
  | .l2 d l => s.modDie d (fun k => { k with l2 := k.l2.map (fun x => if x.1 = l then (l, { x.2 with mark := true }) else x) })

/-- `MEMUE_UNDO`: an uncorrectable error met a launch, at a physical address and a place: what holds it is marked or tagged, the
record notes it; a restartable launch is killed, undone and relaunched, and completes FAULTED at the fourth error (R382, R383,
R385). -/
def execMemueUndo (lid : Nat) (err : MemErr) (s : State) : Result :=
  let s0 := s.damage err
  match mget? s0.launches lid with
  | none => .next s0
  | some l =>
    let s1 := s0.modLaunch lid (fun x => { x with
      uerr := true, uecnt := Nat.min 255 (x.uecnt + 1), uepa := if x.uerr then x.uepa else err.pa })
    if !l.restartable ∨ l.rejected ∨ l.cancelled then .next s1
    else
      let again := decide (l.relaunch < 3)
      let s2 := ((s1.afterGroups lid none).endAttempt lid again).undoLog lid
      if again then
        .next (s2.modLaunch lid (fun x => { x with relaunch := x.relaunch + 1, started := false, ff := none, plive := false }))
      else
        .next ((s2.modLaunch lid (fun x => { x with cancelled := true, ff := none, endClk := s.clk })).recordFault lid
          ⟨s2.lowestGroup lid, 0, 0, 0, Cause.memue.code, 0, s.clk⟩)

/-! ### Boot (R397, R398) -/

/-- A record in the boot flash (Table 17-3). -/
structure BootRec where
  kind : Nat
  ver : Nat
  minver : Nat
  keyid : List Byte
  digest : List Byte
  payload : List Byte
  head : List Byte
  sig : List Byte
  /-- Fields of the header are as Table 17-3 asks, and the digest is that of the payload. -/
  formed : Bool

def bootRec (r : List Byte) : BootRec :=
  let w (i : Nat) : Nat := (word64 r i).toNat
  let pay := r.drop 1376
  { kind := bitsN (w 0) 31 16, ver := bitsN (w 1) 63 32, minver := bitsN (w 1) 31 0, keyid := (r.drop 24).take 8
    digest := (r.drop 32).take 64, payload := pay, head := r.take 96, sig := (r.drop 96).take 1280
    formed := bitsN (w 0) 63 32 == 0x52434647 && decide (1 ≤ bitsN (w 0) 31 16 ∧ bitsN (w 0) 31 16 ≤ 5) &&
      bitsN (w 0) 15 0 == 0 && decide (bitsN (w 1) 31 0 ≤ bitsN (w 1) 63 32) && decide (w 2 ≤ 2 ^ 28) &&
      w 2 == pay.length && (r.drop 32).take 64 == Config.shake256 pay }

/-- KEYID of a public key. -/
def keyIdOf (k : List Byte) : List Byte := (Config.shake256 k).take 8

/-- What the ROM has found so far. -/
structure Boot where
  floors : AMap Nat
  owners : List (List Byte)
  loaded : List (List Byte)
  revKeys : List (List Byte)
  revDigests : List (List Byte)
  certified : Bool
  failed : Bool
  firmware : Bool
  rostar : Bool
  reports : List (List Byte)

/-- The payload of a record has the form its kind asks (Table 17-5); of kinds 1 to 3 none is stated. -/
def BootRec.payloadOk (r : BootRec) : Bool :=
  let nk := (word64 r.payload 0).toNat
  let nd := (word64 r.payload 1).toNat
  match r.kind with
  | 4 => r.payload.length == 1824 && (r.payload.drop 1809).all (fun b => b == 0)
  | 5 => decide (nk ≤ 256) && decide (nd ≤ 4096) && r.payload.length == 16 + 8 * nk + 64 * nd
  | _ => true

/-- The KEYIDs and digests that a revocation lists. -/
def BootRec.revokedKeys (r : BootRec) : List (List Byte) :=
  (List.range (word64 r.payload 0).toNat).map (fun i => (r.payload.drop (16 + 8 * i)).take 8)
def BootRec.revokedDigests (r : BootRec) : List (List Byte) :=
  let nk := (word64 r.payload 0).toNat
  (List.range (word64 r.payload 1).toNat).map (fun i => (r.payload.drop (16 + 8 * nk + 64 * i)).take 64)

/-- Keys that may sign a record of a kind: the root key, and owner keys for kind 2. -/
def Boot.keysFor (b : Boot) (kind : Nat) : List (List Byte) := Config.rootKey :: (if kind = 2 then b.owners else [])

/-- A record passes its checks (R397, R398). -/
def Boot.accepts (b : Boot) (r : BootRec) : Bool :=
  r.formed && r.payloadOk && decide (mget b.floors r.kind 0 ≤ r.ver) && !b.revKeys.contains r.keyid &&
    !b.revDigests.contains r.digest &&
    (b.keysFor r.kind).any (fun k => keyIdOf k == r.keyid && Config.falconVerify k r.head r.sig) &&
    (match r.kind with
     | 4 => (r.payload.drop 16).take 1793 == Config.falconPublic (Config.shake256 Config.deviceSeed)
     | 5 => !r.revokedKeys.contains (keyIdOf Config.rootKey)
     | _ => true)

/-- One record: refused, ignored, or loaded. -/
def Boot.take (b : Boot) (raw : List Byte) : Boot :=
  let r := bootRec raw
  if r.kind = 4 ∧ b.certified then b
  else if !b.accepts r then
    { b with failed := b.failed || !(r.kind == 4 || r.kind == 5), reports := b.reports ++ [r.head] }
  else
    { b with
      floors := mset b.floors r.kind (Nat.max (mget b.floors r.kind 0) r.minver)
      loaded := b.loaded ++ [r.digest]
      owners := if r.kind = 3 then b.owners ++ (Config.enrolledKeys r.payload).take 4 else b.owners
      revKeys := if r.kind = 5 then b.revKeys ++ r.revokedKeys else b.revKeys
      revDigests := if r.kind = 5 then b.revDigests ++ r.revokedDigests else b.revDigests
      certified := b.certified || r.kind == 4
      firmware := b.firmware || r.kind == 1
      rostar := b.rostar || r.kind == 2 }

/-- The order of the ROM: revocations, then module configuration, then the others as they stand in flash (R398, log
entry 9). -/
def bootOrder (flash : List (List Byte)) : List (List Byte) :=
  let k (r : List Byte) : Nat := (bootRec r).kind
  flash.filter (fun r => k r == 5) ++ flash.filter (fun r => k r == 3) ++ flash.filter (fun r => k r != 5 && k r != 3)

/-- `MODULE_RESET`: the module is as at reset, with memory as it stands; the ROM reads the flash. A record of kinds 1 to 3
that fails, or no firmware to load, means recovery mode, in which no launch is accepted (R397). -/
def execModuleReset (s : State) : Result :=
  let b := (bootOrder s.cur8.flash).foldl Boot.take
    { floors := s.cur8.floors, owners := [], loaded := [], revKeys := [], revDigests := [], certified := false
      failed := false, firmware := false, rostar := false, reports := [] }
  let c : Curator := { Curator.reset with
    flash := s.cur8.flash, floors := b.floors, ownerKeys := b.owners, loaded := b.loaded, certified := b.certified
    recovery := b.failed || !b.firmware || !b.rostar }
  .next { State.reset with
    mem := s.mem, marks := s.marks, cur8 := c, opId := s.opId, freeCtr := s.freeCtr
    fabric := { Fabric.reset with sent := b.reports.map Out.mailbox } }

/-! ### Attestation (R399) -/

/-- `ATTESTATION_REQUEST`: a 32-byte nonce is answered by a signed report of the fields in R399's order (log entry 10). -/
def execAttestationRequest (nonce : List (BitVec 8)) (s : State) : Result :=
  if nonce.length ≠ 32 then .next s
  else
    let seed := Config.shake256 Config.deviceSeed
    let report := nonce ++ keyIdOf (Config.falconPublic seed) ++ leBytes 8 s.fabric.ownNum ++ s.cur8.loaded.flatten ++
      Config.shake256 Config.rostarPolicy ++ leBytes 8 s.clk
    .next (s.out (.mailbox (report ++ Config.falconSign seed report)))

/-! ### Ageing, power, coolant (R400 to R402) -/

/-- Strands of a monitored unit: wings 0 to 63, then dies as 64 to 71. -/
def unitHas (u n : Nat) : Bool := if u < 64 then wingOf n == u else dieOf n == u - 64

/-- Groups resident in a withdrawn unit are pre-empted with LEN = 2^20 (R400). -/
def State.preemptUnit (s : State) (u : Nat) : State :=
  let gs := s.groups.filter (fun g => decide (g.phase = .running) && g.strands.any (unitHas u))
  gs.foldl (fun s g => g.strands.foldl (fun s n => s.modStrand n (fun st => { st with
    ctl := { st.ctl with preq := true, dline := BitVec.ofNat 32 (2 ^ 20), t0 := s.clk } })) s) s

/-- `MARGIN_SAMPLE`: for each unit whose margin lies below its threshold, the supply of its die rises by one step, or at
the top step the unit is withdrawn. -/
def execMarginSample (margins : List (Nat × Bool)) (s : State) : Result :=
  .next (margins.foldl (fun (s : State) m =>
    let d := if m.1 < 64 then m.1 / 8 else m.1 - 64
    if !m.2 ∨ 72 ≤ m.1 then s
    else if (s.die d).supply < Config.topSupply then s.modDie d (fun x => { x with supply := x.supply + 1 })
    else if s.cur8.withdrawn.contains m.1 then s
    else (s.curator (fun c => { c with withdrawn := c.withdrawn ++ [m.1] })).preemptUnit m.1) s)

/-- `POWER_SAMPLE`: above 7.2 kW docent grant clocks are withheld, up to 63 of every 64, how many being a free value; at or
below, none (R401). `draw` is in watts. -/
def execPowerSample (draw : Nat) (s : State) : Result :=
  let (k, s1) := s.draw
  let n := if 7200 < draw then Config.freeNat k % 64 else 0
  .next (((List.range 64).foldl (fun s w => s.modWing w (fun g => { g with withheld := n })) s1).curator
    (fun c => { c with throttle := draw }))

/-- `THERMAL_TRIP`: at 110 °C every clock stops; only the report through the mailbox leaves (R402). -/
def execThermalTrip (temp : Nat) (s : State) : Result :=
  if temp < 110 then .next s
  else .next ({ s.curator (fun c => { c with thermal := true }) with agenda := [], inbox := [] }.out
    (.mailbox (leBytes 8 temp)))

end Sys2Proof.Machine
end

