-- ==== Sys2Proof/Machine/Clock.lean ====
section
/-! DEFINITION. One clock of the module as a list of turns (log entry 3): records due, one input, saves, the strands'
issue, the other agents, the end of the clock. -/

namespace Sys2Proof.Machine

/-! ### Inputs -/

/-- Events: what happens beside the slots of bundles. Only these can stand in the inbox. -/
def isEvent (i : Instr) : Bool :=
  match i with
  | .codeFetch .. => true | .writeBack .. => true | .loadReturn .. => true | .writeQueuePerform .. => true
  | .trapEntry .. => true | .linkCommit .. => true | .streamPatternRead .. => true | .joinWaitSatisfy .. => true
  | .semaphoreGrant .. => true | .mutexGrant .. => true | .waitvReread .. => true | .twaitSatisfy .. => true
  | .fenceResolve .. => true | .strandHalted .. => true | .codebookWriterRetire .. => true | .tileFillComplete .. => true
  | .docentGrant .. => true | .taskComplete .. => true | .queueDetach .. => true
  | .mma .. => true | .mmas .. => true | .wpre .. => true | .wswp .. => true | .drain .. => true | .aclr .. => true
  | .tcpy .. => true | .tset .. => true | .txps .. => true | .tred .. => true | .itin .. => true | .twb .. => true
  | .kvq .. => true | .crs .. => true | .cag .. => true | .cbar .. => true
  | .ptsTick => true | .patrolScrub .. => true | .hostSnoopWrite .. => true | .hostMemAccess .. => true
  | .requestPacketArrival .. => true | .ackTimer .. => true | .ackReceived .. => true | .retentionResend .. => true
  | .destinationFailureReport .. => true | .linkRetrainFail .. => true | .contextRegister .. => true
  | .queueRegister .. => true | .ticketSet .. => true | .launchAccept .. => true | .skip .. => true
  | .skipDiscard .. => true | .bind .. => true | .cancel .. => true | .groupPrepare .. => true | .groupStart .. => true
  | .groupResume .. => true | .groupComplete .. => true | .launchComplete .. => true | .preemptRequest .. => true
  | .forcedSave .. => true | .debugStop .. => true | .debugResume .. => true | .shootdown => true
  | .pageMigrate .. => true | .contextTeardown .. => true | .memueUndo .. => true | .identityShadowWrite .. => true
  | .identitySwap .. => true | .windowRegisterWrite .. => true | .takeoverHold .. => true | .takeoverReport .. => true
  | .spareSetup .. => true | .moduleReset => true | .attestationRequest .. => true | .marginSample .. => true
  | .powerSample .. => true | .thermalTrip .. => true | .hostSnoopRead .. => true | .walkComplete .. => true
  | .flitCrcRetry .. => true | .curatorDbgctlWrite .. => true
  | _ => false

/-! ### The start of a clock -/

/-- Records of the Placement Table that are due, ascending (R92). -/
def State.dueRecords (s : State) : List Turn :=
  (s.placement.filter (fun p => decide (p.2.start ≤ s.clk))).map (fun p =>
    .ev (if p.2.res then .groupResume p.1 else .groupStart p.1))

/-- A clock begins: CLKCNT, the clock advance of pts, due records before the input, then the strands and the rest (R92,
R232). -/
def State.startClock (s : State) : State :=
  let s0 := s.noteWrites
  let s1 := { s0 with clk := s.clk + 1, clkOp := s.opId }
  let tickTurn : List Turn := if s1.clk % 1024 = 0 then [.ev .ptsTick] else []
  let input : List Turn := match s1.inbox with
    | i :: _ => if isEvent i then [.ev i] else []
    | [] => []
  { s1 with inbox := s1.inbox.drop 1, agenda := tickTurn ++ s1.dueRecords ++ input ++ [.early, .late, .close] }

/-- Saves that begin in this clock: their strands issue nothing in it (R375, R376). -/
def State.savesBegin (s : State) : List Turn :=
  (s.groups.filter (fun g => s.saveDue g && decide (g.phase = .running))).map (fun g => .ev (.forcedSave g.lid g.grp))

/-- Saves under way and stops for the debugger, which capture their strands behind every trap of the clock (R363). -/
def State.savesGo (s : State) : List Instr :=
  ((s.groups.filter (fun g => decide (g.phase = .saving))).map (fun g => .forcedSave g.lid g.grp)) ++
  (s.strands.filter (fun p => p.2.running && p.2.front.stopped && !p.2.front.yielded && !p.2.halted &&
    p.2.bound.any (fun b => (s.groupAt b.lid b.grp).all (fun g => decide (g.phase ≠ .saving))))).map
      (fun p => .debugStop p.1)

/-- The strands of a turn. -/
def Turn.members : Turn → List Nat
  | .strand n => [n]
  | .gang c => coreStrands c
  | _ => []

/-- Turn `t` pushes through a link into a queue of turn `u` (R333). -/
def State.feeds (s : State) (t u : Turn) : Bool :=
  t != u && t.members.any (fun n => (s.strand n).links.any (fun l => !l.2.broken && u.members.contains l.2.peer))

/-- Turns in their order, but one that pushes into another's queue after it; of turns that feed each other in a ring the first goes
first. -/
def State.orderTurns (s : State) : Nat → List Turn → List Turn
  | 0, l => l
  | f + 1, l =>
    match l.find? (fun t => l.all (fun u => !s.feeds t u)) <|> l.head? with
    | none => []
    | some t => t :: s.orderTurns f (l.erase t)

/-- The turns of the strands that run, by core: one for a core in gang mode. A strand reserves in its own queues before a link
does, so the receiver of a link goes before its sender (R333; log entries 3 and 79). -/
def State.strandTurns (s : State) : List Turn :=
  let ns := (s.strands.filter (fun p => p.2.running && !p.2.halted)).map Prod.fst
  let ts := ((ns.map coreOf).eraseDups).flatMap (fun c =>
    if (s.core c).gang.on then [Turn.gang c]
    else (coreStrands c).filterMap (fun n => if ns.contains n then some (.strand n) else none))
  if s.strands.any (fun p => !p.2.links.isEmpty) then s.orderTurns ts.length ts else ts

/-- The event by which a request released from a replay queue resolves (R290). -/
def releasedEvent (who : Waiter) : Option Instr :=
  match who with
  | .op n id => some (.loadReturn n id [] false)
  | .stream n q => some (.streamPatternRead n q)
  | _ => none

/-- Before the strands issue: the fills that complete are installed, then come this clock's lookups, first those of the requests
released in the last clock, in their order (R290, R292); then the saves that begin, and the strands. -/
def State.expandEarly (s : State) : State :=
  let rel := s.wings.flatMap (fun p => p.2.released.filterMap releasedEvent)
  let fills := s.wings.flatMap (fun p => (p.2.fills.filter (fun f => !f.done && f.placed)).map (fun f => Instr.tileFillComplete p.1 f.id))
  { s with
    wings := s.wings.map (fun p => (p.1, { p.2 with released := [] }))
    agenda := (fills ++ rel).map Turn.ev ++ s.savesBegin ++ s.strandTurns ++ s.agenda }

/-! ### The agents other than the strands' issue -/

/-- The requests of a wing that leave its replay queue in this clock resolve in the next (R290). -/
def State.resolvesLater (s : State) (n : Nat) (who : Waiter) : Bool := (s.wing (wingOf n)).released.contains who

/-- What one strand's operations do in this clock: write-backs, open operations in order, the write queue, bank writers,
streams. A write-back that an earlier one of the same register holds up comes in the clock after that one (R176); so does one
that would fall into the same clock, of which R176 says only that it must not come first (DESIGN CHOICE, log entry 67). A
strand that is stopped and saved in place does nothing. -/
def State.strandEvents (s : State) (n : Nat) (st : Strand) : List Instr :=
  if !st.running then st.wq.map (fun _ => .writeQueuePerform n)
  else
    (st.flights.filter (fun f => decide (f.due ≤ s.clk) && !f.wbs.any (fun w => st.blockedWB f.seq f.slot w))).map
      (fun f => .writeBack n f.id) ++
    (st.open_.filter (fun e => (e.slip || !st.blockedEntry e) && !s.resolvesLater n (.op n e.id))).filterMap (entryEvent n) ++
    st.wq.map (fun _ => .writeQueuePerform n) ++
    ((st.open_.filterMap (fun e => bankWritten e.instr)).eraseDups).map (fun b => .codebookWriterRetire (coreOf n) b) ++
    (st.streams.filter (fun q => (q.2.missing (s.core (coreOf n))).isSome && !s.resolvesLater n (.stream n q.1))).map
      (fun q => .streamPatternRead n q.1)

/-- Link pushes that are due. -/
def State.linkEvents (s : State) (n : Nat) (st : Strand) : List Instr :=
  (((st.linkPend.filter (fun p => decide (p.due ≤ s.clk))).map LinkPush.reg).eraseDups).map (fun r => .linkCommit n r)

/-- Insert a wing's miss into a list in order of arrival. -/
def insertMiss (x : Nat × Miss) : List (Nat × Miss) → List (Nat × Miss)
  | [] => [x]
  | y :: r => if x.2.clk < y.2.clk then x :: y :: r else y :: insertMiss x r

/-- The 64 walkers of a die serve its wings' misses in arrival order (R76, R77). -/
def State.walkEvents (s : State) (d : Nat) : List Instr :=
  let ms := (s.wings.filter (fun w => w.1 / 8 == d)).flatMap (fun w => w.2.misses.map (fun m => (w.1, m)))
  ((ms.foldl (fun l x => insertMiss x l) []).take 64).map (fun x => .walkComplete x.1 x.2.asid (4096 * x.2.page))

/-- A wing: the docent, itineraries and reductions that go on, completions. -/
def State.wingEvents (s : State) (w : Nat) : List Instr :=
  let ts := s.tasks.filter (fun t => t.wing == w && t.dispatched)
  let wanted := s.tasks.any (fun t => t.wing == w && (decide (t.phase = .queued) || decide (t.phase = .parked)))
  (if wanted then [.docentGrant w] else []) ++
  ((ts.filter (fun t => t.ran && t.kind == 11 && !t.ops.isEmpty)).take 1).map (fun t => .itin t.uid) ++
  (ts.filter (fun t => t.ran && t.kind == 16 && t.out.isEmpty && !t.ops.isEmpty)).map (fun t => .cbar t.uid) ++
  (ts.filter (fun t => t.ran)).map (fun t => .taskComplete t.uid)

/-- A die's collective engine sends one packet. -/
def State.dieEvents (s : State) (d : Nat) : List Instr :=
  ((s.tasks.filter (fun t => t.wing / 8 == d && t.dispatched && t.ran && isCollective t.kind && !t.out.isEmpty)).take 1).map
    (fun t => taskEvent t.kind t.uid)

/-- Grants of a core's objects, before the updates of the clock (R329). -/
def coreEvents (c : Nat) (k : Core) : List Instr :=
  (k.sems.filter (fun x => !x.2.waits.isEmpty)).map (fun x => .semaphoreGrant c x.1) ++
  (k.muts.filter (fun x => !x.2.waits.isEmpty || !x.2.tries.isEmpty)).map (fun x => .mutexGrant c x.1)

/-- The fabric's timers (R354, R355). -/
def State.fabricEvents (s : State) : List Instr :=
  (s.fabric.dst.filter (fun p => p.2.owed != 0 && decide (p.2.since + 255 ≤ s.clk))).map (fun p => .ackTimer p.1) ++
  (s.fabric.src.filter (fun p => s.pairStale p.1 65536 && (s.clk - p.2.advanced) % 65536 == 0)).map (fun p => .retentionResend p.1) ++
  (s.fabric.src.filter (fun p => s.pairStale p.1 (2 ^ 24) && !p.2.reported)).map (fun p => .destinationFailureReport p.1)

/-- What the front-end finds at a queue (R85, R86): how many skipped slots HEAD passes, and whether a record is published
behind them; none when it cannot read the queue, which it then notes. -/
def State.queueState (s : State) (q : LaunchQueue) : Option (Nat × Bool) :=
  match s.queueHead q with
  | (_, none) => none
  | (s1, some (cw, h)) =>
    if 16 < h.logsz ∨ s1.frontClosed (ctxSpace cw 0) (q.qbase + 16) then some (0, false)
    else
      let k := ((List.range (Nat.min 16 (h.tail - h.head))).takeWhile (fun i => q.skipped (h.head + i))).length
      some (k, decide (h.head + k < h.tail))

/-- The front-end in one clock: every queue passes its skipped slots or checks the skips that wait for its page, a queue that cannot
be read stops, and one record is accepted, of the first queue that has one after the queue last served (R85, R86). -/
def State.frontEvents (s : State) : List Instr :=
  let qs := (s.lqueues.map Prod.snd).filter (fun q => !q.failed)
  let turn := qs.filter (fun q => decide (s.nextQueue ≤ q.num)) ++ qs.filter (fun q => decide (q.num < s.nextQueue))
  qs.flatMap (fun q => match s.queueState q with
    | none => [.launchAccept q.num]
    | some (k, _) => List.replicate (if q.waitSkips.isEmpty ∨ 16 ≤ q.skips.length then k else Nat.max 1 k) (.skipDiscard q.num)) ++
  ((turn.filter (fun q => match s.queueState q with
    | some (_, b) => b
    | none => false)).map (fun q => .launchAccept q.num)).take 1

/-- The Curator and dispatch. -/
def State.curatorEvents (s : State) : List Instr :=
  (if s.cur8.shootdowns.isEmpty then [] else [.shootdown]) ++
  (s.placement.filter (fun p => !p.2.prepared)).map (fun p => .groupPrepare p.1) ++
  (if s.cur8.recovery then [] else s.frontEvents) ++
  (s.launches.filter (fun l => s.launchEnds l.2)).map (fun l => .launchComplete l.1)

/-- A `TENQ` has attached the queue and is about to enqueue. -/
def State.enqueuing (s : State) (qpa : Nat) : Bool :=
  s.strands.any (fun p => p.2.open_.any (fun e => e.step == 2 && e.aux == BitVec.ofNat 64 qpa &&
    (match e.instr with
     | .tenq .. => true
     | _ => false)))

/-- Queues that may detach (R304). -/
def State.detachEvents (s : State) : List Instr :=
  (s.tqueues.filter (fun q => q.seqno == q.ret && !q.stop && !s.tasks.any (fun t => t.qpa == q.qpa) &&
    !s.enqueuing q.qpa)).map (fun q => .queueDetach q.qpa)

/-- Everything beside issue that happens in this clock, in the model's order (log entry 3). -/
def State.lateEvents (s : State) : List Instr :=
  s.strands.flatMap (fun p => s.strandEvents p.1 p.2) ++
  (List.range 8).flatMap s.walkEvents ++
  s.wings.flatMap (fun p => s.wingEvents p.1) ++
  (List.range 8).flatMap s.dieEvents ++
  s.detachEvents ++
  s.cores.flatMap (fun p => coreEvents p.1 p.2) ++
  s.strands.flatMap (fun p => s.linkEvents p.1 p.2) ++
  s.fabricEvents ++ s.curatorEvents ++
  (s.strands.filter (fun p => p.2.running && p.2.front.trapping.isSome && !p.2.front.stopped)).map (fun p => .trapEntry p.1) ++
  s.savesGo

def State.expandLate (s : State) : State := { s with agenda := s.lateEvents.map Turn.ev ++ s.agenda }

/-! ### The end of a clock -/

/-- A requester still waits. -/
def State.waits (s : State) (who : Waiter) : Bool :=
  match who with
  | .op n id => (s.entry? n id).isSome
  | .stream n q => (mget? (s.strand n).streams q).isSome
  | .task u => (s.task? u).any (fun t => !t.isDone)
  | _ => false

/-- Requests of a wing that nobody waits for leave: parked ones, and window copies kept for them (R290, R299). -/
def State.tidyWing (s : State) (w : Nat) : State :=
  let g := s.wing w
  let old := g.fills.filter (fun f => f.done && !f.waiters.any s.waits)
  let s1 := s.modWing w (fun g => { g with
    replay := g.replay.filter (fun p => match p.who with
      | .op _ _ => s.waits p.who
      | .stream _ _ => s.waits p.who
      | _ => true)
    fills := g.fills.filter (fun f => !(f.done && !f.waiters.any s.waits)) })
  old.foldl (fun s f => match (s.wing w).find f.tag with
    | some (k, x) => if x.once then s.freeSlot w k else s
    | none => s) s1

/-- The clock ends: victims of its misses, updates of the cores, links, the undo of cancelled launches; then the tasks dispatched
in this clock take effect, and the groups that complete end (R292, R329, R336, R388; log entry 3). -/
def State.endClock (s0 : State) : State :=
  let s := s0.placeFills
  let s1 := (s.cores.filter (fun c => !c.2.upds.isEmpty)).foldl (fun s c => s.closeCore c.1) s
  let s2 := (s1.strands.filter (fun p => !p.2.links.isEmpty)).foldl (fun s p => s.closeLinks p.1) s1
  let s3 := (s2.wings.filter (fun w => !w.2.replay.isEmpty || w.2.fills.any (fun f => f.done))).foldl (fun s w => s.tidyWing w.1) s2
  let s4 := s3.undoCancelled
  let runs := (s4.tasks.filter (fun t => t.dispatched && !t.ran)).map (fun t => Turn.ev (taskEvent t.kind t.uid))
  let ends := (s4.groups.filter s4.groupEnds).map (fun g => Turn.ev (.groupComplete g.lid g.grp))
  { s4 with agenda := runs ++ ends ++ s4.agenda }

/-! ### One turn -/

/-- Carry out one turn. -/
def runTurn (ex : Exec) (t : Turn) (s : State) : Result :=
  match t with
  | .ev i => ex i s
  | .strand n => strandTurn ex s n
  | .gang c => gangTurn ex s c
  | .early => .next s.expandEarly
  | .late => .next s.expandLate
  | .close => .next s.endClock
  | .kill lid => .next (s.killTurn lid)

/-- One step: the next turn of the clock, or the next clock. After a thermal stop only a module reset acts (R402). -/
def runStep (ex : Exec) (s : State) : Result :=
  if s.cur8.thermal then
    match s.inbox with
    | .moduleReset :: r => ex .moduleReset { s with inbox := r }
    | _ :: r => .next { s with inbox := r }
    | [] => .next s
  else
    match s.agenda with
    | t :: r => runTurn ex t { s with agenda := r }
    | [] => .next s.startClock

/-! ### Placing one instruction to be fetched -/

/-- A page of code for strand `n`: every page bit set that a fetch asks for, physical page 0 (R64, R76). -/
def fetchPage (pc : W64) : Tlb := ⟨0, 0, va57 pc / 4096 * 4096, 0xF03#64, 0, 0⟩

/-- Slot words of the one bundle: the word in the slot of its class, `NOP`s elsewhere. -/
def fetchWords (w : W32) : List W32 :=
  match tableClass w with
  | .a => [w, 0, 0]
  | .b => [0, w, 0]
  | .c => [0, 0, w]

/-- The code line: the link word names all four strands as owners, five bundles, the last line; then the slot words of
bundle 0, and `NOP`s (R104, Table 5-1). -/
def fetchLine (w : W32) : List Byte :=
  leBytes 4 0xF000000B ++ (fetchWords w).flatMap (fun x => leBytes 4 x.toNat) ++ List.replicate 48 0

/-- The strand that executes is bound and runs at its PC, on a line that holds the word (log entry 21). -/
def State.placeWord (s : State) (w : Nat) : State :=
  let n := s.cur
  let st := s.strand n
  let pc := lineOf st.front.pc
  let b : Bound := (st.bound).getD
    { lid := 0, grp := 0, pos := 0, groups := 1, qnum := 0, asid := 0, tenant := 1, part := 0, root := 0, ttbase := 0, ttcount := 0 }
  let s1 := s.setStrand n { st with
    bound := some { b with asid := 0 }, running := true, halted := false
    front := { st.front with
      pc := pc, fellOff := false, latch := none, pairs := [], held := none, trapping := none, wake := 0, waitC := none
      stopped := false, firstSlot := 0, marks := [], stepped := false } }
  let s2 := s1.modCore (coreOf n) (fun c => { c with tlb := fetchPage pc :: c.tlb })
  let pa := pc.toNat % 4096
  { s2 with mem := memSetAll s2.mem (atOffsets pa (fetchLine (BitVec.ofNat 32 w))), agenda := [.strand n] }

end Sys2Proof.Machine
end

