-- ==== Sys2Proof/Machine/Dispatch.lean ====
section
/-! DEFINITION. The meaning of every instruction and event, one arm each. -/

namespace Sys2Proof.Machine

/-- What one instruction or event does. -/
def exec (i : Instr) (s : State) : Host.Outcome State Fault Refusal :=
  match i with
  | .add d a b p q n k x => Sys2Proof.Machine.execAdd d a b p q n k x s
  | .sub d a b p q n k x => Sys2Proof.Machine.execSub d a b p q n k x s
  | .mul d a b p q n k x => Sys2Proof.Machine.execMul d a b p q n k x s
  | .mulh d a b p q n k x => Sys2Proof.Machine.execMulh d a b p q n k x s
  | .mulhu d a b p q n k x => Sys2Proof.Machine.execMulhu d a b p q n k x s
  | .div d a b p q n k x => Sys2Proof.Machine.execDiv d a b p q n k x s
  | .divu d a b p q n k x => Sys2Proof.Machine.execDivu d a b p q n k x s
  | .rem d a b p q n k x => Sys2Proof.Machine.execRem d a b p q n k x s
  | .remu d a b p q n k x => Sys2Proof.Machine.execRemu d a b p q n k x s
  | .and d a b p q n k x => Sys2Proof.Machine.execAnd d a b p q n k x s
  | .or d a b p q n k x => Sys2Proof.Machine.execOr d a b p q n k x s
  | .xor d a b p q n k x => Sys2Proof.Machine.execXor d a b p q n k x s
  | .andn d a b p q n k x => Sys2Proof.Machine.execAndn d a b p q n k x s
  | .shl d a b p q n k x => Sys2Proof.Machine.execShl d a b p q n k x s
  | .shr d a b p q n k x => Sys2Proof.Machine.execShr d a b p q n k x s
  | .sar d a b p q n k x => Sys2Proof.Machine.execSar d a b p q n k x s
  | .rot d a b p q n k x => Sys2Proof.Machine.execRot d a b p q n k x s
  | .min d a b p q n k x => Sys2Proof.Machine.execMin d a b p q n k x s
  | .max d a b p q n k x => Sys2Proof.Machine.execMax d a b p q n k x s
  | .minu d a b p q n k x => Sys2Proof.Machine.execMinu d a b p q n k x s
  | .maxu d a b p q n k x => Sys2Proof.Machine.execMaxu d a b p q n k x s
  | .clz d a p n k x => Sys2Proof.Machine.execClz d a p n k x s
  | .ctz d a p n k x => Sys2Proof.Machine.execCtz d a p n k x s
  | .popc d a p n k x => Sys2Proof.Machine.execPopc d a p n k x s
  | .bfx d a p sv l => Sys2Proof.Machine.execBfx d a p sv l s
  | .bfxu d a p sv l => Sys2Proof.Machine.execBfxu d a p sv l s
  | .bfi d a p sv l => Sys2Proof.Machine.execBfi d a p sv l s
  | .sext d a m p n k x => Sys2Proof.Machine.execSext d a m p n k x s
  | .zext d a m p n k x => Sys2Proof.Machine.execZext d a m p n k x s
  | .sel d a b p q n k x => Sys2Proof.Machine.execSel d a b p q n k x s
  | .mov d a p n k x => Sys2Proof.Machine.execMov d a p n k x s
  | .movi d im => Sys2Proof.Machine.execMovi d im s
  | .lea d a p im => Sys2Proof.Machine.execLea d a p im s
  | .cmp d a b p q u c => Sys2Proof.Machine.execCmp d a b p q u c s
  | .fadd d a b p q n k x => Sys2Proof.Machine.execFadd d a b p q n k x s
  | .fsub d a b p q n k x => Sys2Proof.Machine.execFsub d a b p q n k x s
  | .fmul d a b p q n k x => Sys2Proof.Machine.execFmul d a b p q n k x s
  | .fma d a b p q n k x => Sys2Proof.Machine.execFma d a b p q n k x s
  | .fdiv d a b p q n k x => Sys2Proof.Machine.execFdiv d a b p q n k x s
  | .fsqrt d a p n k x => Sys2Proof.Machine.execFsqrt d a p n k x s
  | .fmin d a b p q n k x => Sys2Proof.Machine.execFmin d a b p q n k x s
  | .fmax d a b p q n k x => Sys2Proof.Machine.execFmax d a b p q n k x s
  | .fcmp d a b p q n c => Sys2Proof.Machine.execFcmp d a b p q n c s
  | .fcvt d a p sv t r u => Sys2Proof.Machine.execFcvt d a p sv t r u s
  | .vadd d a b p q n k x => Sys2Proof.Machine.execVadd d a b p q n k x s
  | .vsub d a b p q n k x => Sys2Proof.Machine.execVsub d a b p q n k x s
  | .vmul d a b p q n k x => Sys2Proof.Machine.execVmul d a b p q n k x s
  | .vmulh d a b p q n k x => Sys2Proof.Machine.execVmulh d a b p q n k x s
  | .vmac d a b p q n k x => Sys2Proof.Machine.execVmac d a b p q n k x s
  | .vmac2 d a m l p n k x => Sys2Proof.Machine.execVmac2 d a m l p n k x s
  | .vdot4 d a b p q n k x => Sys2Proof.Machine.execVdot4 d a b p q n k x s
  | .vabs d a p n k x => Sys2Proof.Machine.execVabs d a p n k x s
  | .vneg d a p n k x => Sys2Proof.Machine.execVneg d a p n k x s
  | .vmin d a b p q n k x => Sys2Proof.Machine.execVmin d a b p q n k x s
  | .vmax d a b p q n k x => Sys2Proof.Machine.execVmax d a b p q n k x s
  | .vand d a b p q n k x => Sys2Proof.Machine.execVand d a b p q n k x s
  | .vor d a b p q n k x => Sys2Proof.Machine.execVor d a b p q n k x s
  | .vxor d a b p q n k x => Sys2Proof.Machine.execVxor d a b p q n k x s
  | .vshl d a b p q n k x => Sys2Proof.Machine.execVshl d a b p q n k x s
  | .vshr d a b p q n k x => Sys2Proof.Machine.execVshr d a b p q n k x s
  | .vsar d a b p q n k x => Sys2Proof.Machine.execVsar d a b p q n k x s
  | .vshrr d a w sv p n k x => Sys2Proof.Machine.execVshrr d a w sv p n k x s
  | .vsat d a u sv p n k x => Sys2Proof.Machine.execVsat d a u sv p n k x s
  | .vpack d a w t u h p n k x => Sys2Proof.Machine.execVpack d a w t u h p n k x s
  | .vunpk d a w u h p n k x => Sys2Proof.Machine.execVunpk d a w u h p n k x s
  | .vcmp y c a b p q u k x => Sys2Proof.Machine.execVcmp y c a b p q u k x s
  | .vsel d a b p q n k x => Sys2Proof.Machine.execVsel d a b p q n k x s
  | .vslide d a f p q v w e => Sys2Proof.Machine.execVslide d a f p q v w e s
  | .vbcast d a p n k x => Sys2Proof.Machine.execVbcast d a p n k x s
  | .vext d a p u l => Sys2Proof.Machine.execVext d a p u l s
  | .vins d a p l => Sys2Proof.Machine.execVins d a p l s
  | .vperm d a b p q n k x => Sys2Proof.Machine.execVperm d a b p q n k x s
  | .vcompr d a b p q n k x => Sys2Proof.Machine.execVcompr d a b p q n k x s
  | .vexpd d a b p q n k x => Sys2Proof.Machine.execVexpd d a b p q n k x s
  | .vred d a o t sv p n k x => Sys2Proof.Machine.execVred d a o t sv p n k x s
  | .vscan d a o t p n k x => Sys2Proof.Machine.execVscan d a o t p n k x s
  | .vpopc d a p n k x => Sys2Proof.Machine.execVpopc d a p n k x s
  | .vfadd d a b p q n k x => Sys2Proof.Machine.execVfadd d a b p q n k x s
  | .vfsub d a b p q n k x => Sys2Proof.Machine.execVfsub d a b p q n k x s
  | .vfmul d a b p q n k x => Sys2Proof.Machine.execVfmul d a b p q n k x s
  | .vfma d a b p q n k x => Sys2Proof.Machine.execVfma d a b p q n k x s
  | .vfnma d a b p q n k x => Sys2Proof.Machine.execVfnma d a b p q n k x s
  | .vfmin d a b p q n k x => Sys2Proof.Machine.execVfmin d a b p q n k x s
  | .vfmax d a b p q n k x => Sys2Proof.Machine.execVfmax d a b p q n k x s
  | .vfabs d a p n k x => Sys2Proof.Machine.execVfabs d a p n k x s
  | .vfneg d a p n k x => Sys2Proof.Machine.execVfneg d a p n k x s
  | .vfdiv d a b p q n k x => Sys2Proof.Machine.execVfdiv d a b p q n k x s
  | .vfsqrt d a p n k x => Sys2Proof.Machine.execVfsqrt d a p n k x s
  | .vfrcp d a p n k x => Sys2Proof.Machine.execVfrcp d a p n k x s
  | .vfrsq d a p n k x => Sys2Proof.Machine.execVfrsq d a p n k x s
  | .vfexp2 d a p n k x => Sys2Proof.Machine.execVfexp2 d a p n k x s
  | .vflog2 d a p n k x => Sys2Proof.Machine.execVflog2 d a p n k x s
  | .vfcmp y c a b p q n k x => Sys2Proof.Machine.execVfcmp y c a b p q n k x s
  | .vfclass d a p n k x => Sys2Proof.Machine.execVfclass d a p n k x s
  | .vfred d a o r sv p n k x => Sys2Proof.Machine.execVfred d a o r sv p n k x s
  | .vfdot2 d a b p q n k x => Sys2Proof.Machine.execVfdot2 d a b p q n k x s
  | .vcvt d a p sv t r u => Sys2Proof.Machine.execVcvt d a p sv t r u s
  | .vcvti d a r t u p n k x => Sys2Proof.Machine.execVcvti d a r t u p n k x s
  | .vcvtf d a r u p n k x => Sys2Proof.Machine.execVcvtf d a r u p n k x s
  | .vscale d a b p q n k x => Sys2Proof.Machine.execVscale d a b p q n k x s
  | .vcbx d a b t p n k x => Sys2Proof.Machine.execVcbx d a b t p n k x s
  | .vqnt d a b w p n h => Sys2Proof.Machine.execVqnt d a b w p n h s
  | .vq4nS d a b p q n => Sys2Proof.Machine.execVq4nS d a b p q n s
  | .vq4n d a b p q n h => Sys2Proof.Machine.execVq4n d a b p q n h s
  | .vmxq d a e p n f h => Sys2Proof.Machine.execVmxq d a e p n f h s
  | .vflgr d => Sys2Proof.Machine.execVflgr d s
  | .vflgc m k x => Sys2Proof.Machine.execVflgc m k x s
  | .ldB d a p im => Sys2Proof.Machine.execLdB d a p im s
  | .ldBu d a p im => Sys2Proof.Machine.execLdBu d a p im s
  | .ldH d a p im => Sys2Proof.Machine.execLdH d a p im s
  | .ldHu d a p im => Sys2Proof.Machine.execLdHu d a p im s
  | .ldW d a p im => Sys2Proof.Machine.execLdW d a p im s
  | .ldWu d a p im => Sys2Proof.Machine.execLdWu d a p im s
  | .ldD d a p im => Sys2Proof.Machine.execLdD d a p im s
  | .stB d a p im => Sys2Proof.Machine.execStB d a p im s
  | .stH d a p im => Sys2Proof.Machine.execStH d a p im s
  | .stW d a p im => Sys2Proof.Machine.execStW d a p im s
  | .stD d a p im => Sys2Proof.Machine.execStD d a p im s
  | .vld d a p r t n k x => Sys2Proof.Machine.execVld d a p r t n k x s
  | .vlds d a b p t k x => Sys2Proof.Machine.execVlds d a b p t k x s
  | .vldg d a b p t k x => Sys2Proof.Machine.execVldg d a b p t k x s
  | .vst d a p r t n k x => Sys2Proof.Machine.execVst d a p r t n k x s
  | .vsts d a b p t k x => Sys2Proof.Machine.execVsts d a b p t k x s
  | .vstg d a b p t k x => Sys2Proof.Machine.execVstg d a b p t k x s
  | .vldn d a p c r t n k x => Sys2Proof.Machine.execVldn d a p c r t n k x s
  | .vstn d a p c r t n k x => Sys2Proof.Machine.execVstn d a p c r t n k x s
  | .ldt d a b p q r t => Sys2Proof.Machine.execLdt d a b p q r t s
  | .stt d a b p q r t => Sys2Proof.Machine.execStt d a b p q r t s
  | .sbind d a p q => Sys2Proof.Machine.execSbind d a p q s
  | .schain d a b p r q => Sys2Proof.Machine.execSchain d a b p r q s
  | .sunbind q => Sys2Proof.Machine.execSunbind q s
  | .spos d a p q sv => Sys2Proof.Machine.execSpos d a p q sv s
  | .amo d a b o u => Sys2Proof.Machine.execAmo d a b o u s
  | .cas d a b u => Sys2Proof.Machine.execCas d a b u s
  | .lda d a p im => Sys2Proof.Machine.execLda d a p im s
  | .sta d a p im => Sys2Proof.Machine.execSta d a p im s
  | .fenceO sv => Sys2Proof.Machine.execFenceO sv s
  | .spill d v o => Sys2Proof.Machine.execSpill d v o s
  | .fill d v o => Sys2Proof.Machine.execFill d v o s
  | .park d e => Sys2Proof.Machine.execPark d e s
  | .unpark d e => Sys2Proof.Machine.execUnpark d e s
  | .mcst d a b p q => Sys2Proof.Machine.execMcst d a b p q s
  | .prefl l a p im => Sys2Proof.Machine.execPrefl l a p im s
  | .cbld b a p im => Sys2Proof.Machine.execCbld b a p im s
  | .cbst b a p im => Sys2Proof.Machine.execCbst b a p im s
  | .cbwr k a b p q => Sys2Proof.Machine.execCbwr k a b p q s
  | .cbinv k b q l => Sys2Proof.Machine.execCbinv k b q l s
  | .waitv d a b p q c w => Sys2Proof.Machine.execWaitv d a b p q c w s
  | .tflush a b p q => Sys2Proof.Machine.execTflush a b p q s
  | .tinv a b p q => Sys2Proof.Machine.execTinv a b p q s
  | .br k x sv b => Sys2Proof.Machine.execBr k x sv b s
  | .brc a p c sv b => Sys2Proof.Machine.execBrc a p c sv b s
  | .call k x sv b => Sys2Proof.Machine.execCall k x sv b s
  | .calli a p k x => Sys2Proof.Machine.execCalli a p k x s
  | .ret a p k x => Sys2Proof.Machine.execRet a p k x s
  | .jt d a b p q k x => Sys2Proof.Machine.execJt d a b p q k x s
  | .loop d sv b => Sys2Proof.Machine.execLoop d sv b s
  | .gbr k x sv b => Sys2Proof.Machine.execGbr k x sv b s
  | .jset m => Sys2Proof.Machine.execJset m s
  | .jclr m => Sys2Proof.Machine.execJclr m s
  | .jwait y m => Sys2Proof.Machine.execJwait y m s
  | .semwait d sv n => Sys2Proof.Machine.execSemwait d sv n s
  | .sempost d sv n => Sys2Proof.Machine.execSempost d sv n s
  | .mxlock d m => Sys2Proof.Machine.execMxlock d m s
  | .mxtry d m => Sys2Proof.Machine.execMxtry d m s
  | .mxunlk d m => Sys2Proof.Machine.execMxunlk d m s
  | .tenq d a b p q => Sys2Proof.Machine.execTenq d a b p q s
  | .twait d a p c => Sys2Proof.Machine.execTwait d a p c s
  | .tstat d c sv l => Sys2Proof.Machine.execTstat d c sv l s
  | .tcancel d a b p q => Sys2Proof.Machine.execTcancel d a b p q s
  | .launch d a b p q => Sys2Proof.Machine.execLaunch d a b p q s
  | .qlink d a p r => Sys2Proof.Machine.execQlink d a p r s
  | .qunlink r => Sys2Proof.Machine.execQunlink r s
  | .qdepth d r => Sys2Proof.Machine.execQdepth d r s
  | .qflush r v => Sys2Proof.Machine.execQflush r v s
  | .prchk d => Sys2Proof.Machine.execPrchk d s
  | .pgpass d a b p q w t c => Sys2Proof.Machine.execPgpass d a b p q w t c s
  | .trap a p c => Sys2Proof.Machine.execTrap a p c s
  | .sysc c => Sys2Proof.Machine.execSysc c s
  | .brk c => Sys2Proof.Machine.execBrk c s
  | .mfs d n => Sys2Proof.Machine.execMfs d n s
  | .mts a p n => Sys2Proof.Machine.execMts a p n s
  | .mtsFlg a p => Sys2Proof.Machine.execMtsFlg a p s
  | .mtsSrng a p => Sys2Proof.Machine.execMtsSrng a p s
  | .mtsStatus a p => Sys2Proof.Machine.execMtsStatus a p s
  | .mtsEpc a p => Sys2Proof.Machine.execMtsEpc a p s
  | .mtsEcause a p => Sys2Proof.Machine.execMtsEcause a p s
  | .tlbinv a b p q l => Sys2Proof.Machine.execTlbinv a b p q l s
  | .ext t im => Sys2Proof.Machine.execExt t im s
  | .pchk a p v => Sys2Proof.Machine.execPchk a p v s
  | .codeFetch n => Sys2Proof.Machine.execCodeFetch n s
  | .writeBack n id => Sys2Proof.Machine.execWriteBack n id s
  | .loadReturn n id win refused => Sys2Proof.Machine.execLoadReturn n id win refused s
  | .writeQueuePerform n => Sys2Proof.Machine.execWriteQueuePerform n s
  | .trapEntry n => Sys2Proof.Machine.execTrapEntry n s
  | .linkCommit n r => Sys2Proof.Machine.execLinkCommit n r s
  | .streamPatternRead n q => Sys2Proof.Machine.execStreamPatternRead n q s
  | .joinWaitSatisfy n => Sys2Proof.Machine.execJoinWaitSatisfy n s
  | .semaphoreGrant core sem => Sys2Proof.Machine.execSemaphoreGrant core sem s
  | .mutexGrant core mx => Sys2Proof.Machine.execMutexGrant core mx s
  | .waitvReread n id => Sys2Proof.Machine.execWaitvReread n id s
  | .twaitSatisfy n => Sys2Proof.Machine.execTwaitSatisfy n s
  | .fenceResolve n => Sys2Proof.Machine.execFenceResolve n s
  | .strandHalted n => Sys2Proof.Machine.execStrandHalted n s
  | .codebookWriterRetire core bank => Sys2Proof.Machine.execCodebookWriterRetire core bank s
  | .tileFillComplete wing id => Sys2Proof.Machine.execTileFillComplete wing id s
  | .docentGrant wing => Sys2Proof.Machine.execDocentGrant wing s
  | .taskComplete uid => Sys2Proof.Machine.execTaskComplete uid s
  | .queueDetach qpa => Sys2Proof.Machine.execQueueDetach qpa s
  | .mma uid => Sys2Proof.Machine.execMma uid s
  | .mmas uid => Sys2Proof.Machine.execMmas uid s
  | .wpre uid => Sys2Proof.Machine.execWpre uid s
  | .wswp uid => Sys2Proof.Machine.execWswp uid s
  | .drain uid => Sys2Proof.Machine.execDrain uid s
  | .aclr uid => Sys2Proof.Machine.execAclr uid s
  | .tcpy uid => Sys2Proof.Machine.execTcpy uid s
  | .tset uid => Sys2Proof.Machine.execTset uid s
  | .txps uid => Sys2Proof.Machine.execTxps uid s
  | .tred uid => Sys2Proof.Machine.execTred uid s
  | .itin uid => Sys2Proof.Machine.execItin uid s
  | .twb uid => Sys2Proof.Machine.execTwb uid s
  | .kvq uid => Sys2Proof.Machine.execKvq uid s
  | .crs uid => Sys2Proof.Machine.execCrs uid s
  | .cag uid => Sys2Proof.Machine.execCag uid s
  | .cbar uid => Sys2Proof.Machine.execCbar uid s
  | .requestPacketArrival src dst seq epoch part kind pa data => Sys2Proof.Machine.execRequestPacketArrival src dst seq epoch part kind pa data s
  | .ackTimer src => Sys2Proof.Machine.execAckTimer src s
  | .ackReceived dst c refusals => Sys2Proof.Machine.execAckReceived dst c refusals s
  | .retentionResend dst => Sys2Proof.Machine.execRetentionResend dst s
  | .destinationFailureReport dst => Sys2Proof.Machine.execDestinationFailureReport dst s
  | .launchAccept num => Sys2Proof.Machine.execLaunchAccept num s
  | .skipDiscard num => Sys2Proof.Machine.execSkipDiscard num s
  | .groupPrepare entry => Sys2Proof.Machine.execGroupPrepare entry s
  | .groupStart entry => Sys2Proof.Machine.execGroupStart entry s
  | .groupResume entry => Sys2Proof.Machine.execGroupResume entry s
  | .groupComplete lid grp => Sys2Proof.Machine.execGroupComplete lid grp s
  | .launchComplete lid => Sys2Proof.Machine.execLaunchComplete lid s
  | .forcedSave lid grp => Sys2Proof.Machine.execForcedSave lid grp s
  | .debugStop n => Sys2Proof.Machine.execDebugStop n s
  | .walkComplete wing asid va => Sys2Proof.Machine.execWalkComplete wing asid va s
  | .patrolScrub line => Sys2Proof.Machine.execPatrolScrub line s
  | .hostSnoopWrite port pa data => Sys2Proof.Machine.execHostSnoopWrite port pa data s
  | .hostMemAccess port wr pa len data => Sys2Proof.Machine.execHostMemAccess port wr pa len data s
  | .linkRetrainFail glob idx => Sys2Proof.Machine.execLinkRetrainFail glob idx s
  | .contextRegister pa => Sys2Proof.Machine.execContextRegister pa s
  | .queueRegister num qbase ctx tickets => Sys2Proof.Machine.execQueueRegister num qbase ctx tickets s
  | .ticketSet num tickets => Sys2Proof.Machine.execTicketSet num tickets s
  | .skip num slot => Sys2Proof.Machine.execSkip num slot s
  | .bind w0 w8 w16 w24 => Sys2Proof.Machine.execBind w0 w8 w16 w24 s
  | .cancel w0 w8 w16 w24 => Sys2Proof.Machine.execCancel w0 w8 w16 w24 s
  | .preemptRequest lid grp len => Sys2Proof.Machine.execPreemptRequest lid grp len s
  | .debugResume r => Sys2Proof.Machine.execDebugResume r s
  | .pageMigrate asid va => Sys2Proof.Machine.execPageMigrate asid va s
  | .contextTeardown asid => Sys2Proof.Machine.execContextTeardown asid s
  | .memueUndo lid err => Sys2Proof.Machine.execMemueUndo lid err s
  | .identityShadowWrite idx w => Sys2Proof.Machine.execIdentityShadowWrite idx w s
  | .identitySwap own => Sys2Proof.Machine.execIdentitySwap own s
  | .windowRegisterWrite w w0 w8 => Sys2Proof.Machine.execWindowRegisterWrite w w0 w8 s
  | .takeoverHold lmn => Sys2Proof.Machine.execTakeoverHold lmn s
  | .takeoverReport lmn => Sys2Proof.Machine.execTakeoverReport lmn s
  | .spareSetup lmn entries seqs image => Sys2Proof.Machine.execSpareSetup lmn entries seqs image s
  | .attestationRequest nonce => Sys2Proof.Machine.execAttestationRequest nonce s
  | .marginSample margins => Sys2Proof.Machine.execMarginSample margins s
  | .powerSample draw => Sys2Proof.Machine.execPowerSample draw s
  | .thermalTrip temp => Sys2Proof.Machine.execThermalTrip temp s
  | .hostSnoopRead port pa len => Sys2Proof.Machine.execHostSnoopRead port pa len s
  | .flitCrcRetry glob idx => Sys2Proof.Machine.execFlitCrcRetry glob idx s
  | .curatorDbgctlWrite n v => Sys2Proof.Machine.execCuratorDbgctlWrite n v s
  | .nop => Sys2Proof.Machine.execNop s
  | .fenceP => Sys2Proof.Machine.execFenceP s
  | .fenceH => Sys2Proof.Machine.execFenceH s
  | .fenceE => Sys2Proof.Machine.execFenceE s
  | .gang => Sys2Proof.Machine.execGang s
  | .split => Sys2Proof.Machine.execSplit s
  | .yield => Sys2Proof.Machine.execYield s
  | .eret => Sys2Proof.Machine.execEret s
  | .rply => Sys2Proof.Machine.execRply s
  | .halt => Sys2Proof.Machine.execHalt s
  | .ptsTick => Sys2Proof.Machine.execPtsTick s
  | .shootdown => Sys2Proof.Machine.execShootdown s
  | .moduleReset => Sys2Proof.Machine.execModuleReset s

end Sys2Proof.Machine
end

