-- ==== Sys2Proof/Machine/Step.lean ====
section
/-! DEFINITION. The step function: one turn of a clock (log entry 3), and the placing of one instruction to be fetched. -/

namespace Sys2Proof.Machine

/-- One step of the machine. -/
def step (s : State) : Host.Outcome State Fault Refusal := runStep exec s

/-- The state with an instruction stored where the next step fetches it (log entry 21). -/
def State.withFetchWord (s : State) (_nbits w : Nat) : State := s.placeWord w

end Sys2Proof.Machine
end

