-- ==== Sys2Proof/Safety.lean ====
section
/-! DEFINITION. What counts as a safe run, and the terms in which the statements speak: an issue check that passes, reading
operands, results of slots B, instructions by class. -/

namespace Sys2Proof

open Sys2Proof.Machine

/-! ### Outcomes -/

/-- The outcome is a next state: neither a fault nor a refusal. -/
def Completes (o : Host.Outcome State Fault Refusal) : Prop := ∃ t, o = .next t

/-- `k` clocks and events from `s` without a stop. -/
def SafeRun (k : Nat) (s : State) : Prop := Completes (Host.Core.run core k s)

/-- `P` holds after the step, if it answers a next state. -/
def Keeps (P : State → Prop) (o : Host.Outcome State Fault Refusal) : Prop := ∀ t, o = .next t → P t

/-- The instruction of an encoding's class: A 0, B 1, C 2; none for the steps of other agents (R121). -/
def classOf (i : Instr) : Option SlotClass := (encode i).map Prod.fst

/-- The opcode, bits [31:25] of an instruction's word (R121). -/
def opcodeOf (i : Instr) : Option Nat := (encode i).map (fun (e : SlotClass × W32) => (e.2 >>> 25).toNat)

/-- The steps of agents that name a physical address outside the memory they act on may stop; nothing else does. -/
def mayStop (i : Instr) : Bool :=
  match i with
  | .requestPacketArrival .. | .spareSetup .. | .hostSnoopWrite .. | .hostSnoopRead .. | .hostMemAccess ..
  | .contextRegister .. => true
  | _ => false

/-! ### The issue check (R131) -/

/-- What the check gives an instruction that issues: the strand with the pops made, the values of A, B and the third
sources, the predicate as read, the active lanes, and what stream conversions contribute. -/
structure Pass where
  st : Strand
  a : List VV
  b : List VV
  c : List VV
  pred : PV
  act : W64
  fl : LaneFlags
  bks : List Nat

/-- The check of R131 lets instruction `i` issue in slot `slot` (0 A, 1 B, 2 C) of the strand whose slot executes: its
predicate enables it, its operands are there, its destinations have room. -/
def Passes (s : State) (slot : Nat) (i : Instr) (g : Pass) : Prop :=
  checkInstr s s.cur slot i = .go g.st g.a g.b g.c g.pred g.act g.fl g.bks

/-- The same, as a test. -/
def passesB (s : State) (slot : Nat) (i : Instr) : Bool :=
  match checkInstr s s.cur slot i with
  | .go .. => true
  | _ => false

def Pass.va (g : Pass) : VV := g.a.headD VV.zero
def Pass.vb (g : Pass) : VV := g.b.headD VV.zero
def Pass.vc (g : Pass) : VV := g.c.headD VV.zero
/-- The scalar operands. -/
def Pass.sa (g : Pass) : SV := g.va.toSV
def Pass.sb (g : Pass) : SV := g.vb.toSV
def Pass.sc (g : Pass) : SV := g.vc.toSV
def Pass.bin (g : Pass) : BIn := ⟨g.a, g.b, g.c, g.pred, g.act, g.st⟩
def Pass.cin (g : Pass) : CIn := ⟨g.va, g.vb, g.vc, g.act⟩
def Pass.ain (g : Pass) : AIn := ⟨⟨g.va, g.vb, g.c, g.pred⟩, g.act, g.st.front.ctx.ext⟩

/-- The value that stands in a queue position: none while it is only reserved (R129). -/
def cellValue {α : Type} (c : QCell α) : Option α :=
  match c with
  | .full x => some x
  | .late _ x => some x
  | .linked x _ => some x
  | .hole _ => none

/-- The strand once a position is popped with `r` left in its registers: the pop of a link entry is an edge (R334). -/
def poppedCell {α : Type} (st : Strand) (r : Regs) (c : QCell α) : Strand :=
  let st1 := { st with regs := r }
  match c with
  | .linked _ p => { st1 with front := { st1.front with edges := st1.front.edges ++ [(st1.front.ctx.seq, p)] } }
  | _ => st1

/-- Reading one source operand of strand `n` without waiting or trapping (R126, R127, R129, R130; Tables 6-5, 6-6): a pop
takes the head of a queue, a peek leaves it, a plain register with no write in flight is read as it stands; code 48 is
zero, 49 the strand's position or the lane numbers, 50 all ones. -/
inductive Read1 (s : State) : Strand → Src → Strand → VV → Prop where
  | popS (st : Strand) (c : BitVec 6) (y : QCell SV) (x : SV) (r : List (QCell SV)) (hc : c.toNat < 24)
      (hq : st.regs.sQ c.toNat = y :: r) (hy : cellValue y = some x) :
      Read1 s st ⟨.s, c, false⟩ (poppedCell st (st.regs.setSQ c.toNat r) y) x.toVV
  | peekS (st : Strand) (c : BitVec 6) (y : QCell SV) (x : SV) (r : List (QCell SV)) (hc : c.toNat < 24)
      (hq : st.regs.sQ c.toNat = y :: r) (hy : cellValue y = some x) : Read1 s st ⟨.s, c, true⟩ st x.toVV
  | plainS (st : Strand) (c : BitVec 6) (p : Bool) (hc : 24 ≤ c.toNat ∧ c.toNat < 32)
      (hf : st.inFlight (.s c.toNat) = false) : Read1 s st ⟨.s, c, p⟩ st (st.regs.sP c.toNat).toVV
  | zeroS (st : Strand) (p : Bool) : Read1 s st ⟨.s, 48, p⟩ st VV.zero
  | posS (st : Strand) (p : Bool) :
      Read1 s st ⟨.s, 49, p⟩ st (SV.toVV ⟨BitVec.ofNat 64 ((st.bound.map Bound.pos).getD 0), false⟩)
  | onesS (st : Strand) (p : Bool) : Read1 s st ⟨.s, 50, p⟩ st (SV.toVV ⟨~~~0#64, false⟩)
  | popV (st : Strand) (c : BitVec 6) (y : QCell VV) (x : VV) (r : List (QCell VV)) (hc : c.toNat < 24)
      (hq : st.regs.vQ c.toNat = y :: r) (hy : cellValue y = some x) :
      Read1 s st ⟨.v, c, false⟩ (poppedCell st (st.regs.setVQ c.toNat r) y) x
  | peekV (st : Strand) (c : BitVec 6) (y : QCell VV) (x : VV) (r : List (QCell VV)) (hc : c.toNat < 24)
      (hq : st.regs.vQ c.toNat = y :: r) (hy : cellValue y = some x) : Read1 s st ⟨.v, c, true⟩ st x
  | plainV (st : Strand) (c : BitVec 6) (p : Bool) (hc : 24 ≤ c.toNat ∧ c.toNat < 32)
      (hf : st.inFlight (.v c.toNat) = false) : Read1 s st ⟨.v, c, p⟩ st (st.regs.vP c.toNat)
  | zeroV (st : Strand) (p : Bool) : Read1 s st ⟨.v, 48, p⟩ st VV.zero
  | lanesV (st : Strand) (p : Bool) : Read1 s st ⟨.v, 49, p⟩ st ⟨vecOf (fun j => BitVec.ofNat 32 j), 0⟩
  | onesV (st : Strand) (p : Bool) : Read1 s st ⟨.v, 50, p⟩ st ⟨~~~0#2048, 0⟩

/-- Reading the source operands in order, each on the strand that the earlier ones left (R130). -/
inductive Reads (s : State) : Strand → List Src → Strand → List VV → Prop where
  | nil (st : Strand) : Reads s st [] st []
  | cons (st st1 st2 : Strand) (x : Src) (l : List Src) (v : VV) (vs : List VV) (h1 : Read1 s st x st1 v)
      (h2 : Reads s st1 l st2 vs) : Reads s st (x :: l) st2 (v :: vs)

/-- Entries and reservations of a vector queue that stand before a push of its own strand: link pushes of other strands in
this clock stand behind it (R129, R333). -/
def vTaken (s : State) (st : Strand) (r : Nat) : Nat :=
  (st.regs.vQ r).length - (foreignTail s.clkOp st (st.regs.vQ r)).length

/-- A destination has room once the pops are made (R129, R131): a plain register and the discard code always, a scalar
queue below 4 entries and reservations, a vector queue below 2, a link when it stands and its peer's queue has room. -/
def roomFor (s : State) (st : Strand) (d : RFile × BitVec 6) : Bool :=
  match destOf st d with
  | some (.s r) => decide (24 ≤ r ∨ (st.regs.sQ r).length < 4)
  | some (.v r) => decide (24 ≤ r ∨ vTaken s st r < 2)
  | some (.lk r peer reg) => !(((mget? st.links r).map Link.broken).getD false) &&
      decide (((s.strand peer).regs.vQ reg).length < 2) && !(s.strand peer).front.stopped
  | _ => true

/-- The lanes that an instruction's predicate enables in strand `st`: all when it has none (R126, R128). -/
def lanesOn (st : Strand) (i : Instr) : W64 :=
  match (opForm i).pred with
  | some (k, true) => ~~~(st.regs.kP k.toNat).v
  | some (k, false) => (st.regs.kP k.toNat).v
  | none => ~~~0#64

/-- The predicate register that an instruction reads; k0 when it has none. -/
def predOf (i : Instr) : Nat := ((opForm i).pred.map (fun p => p.1.toNat)).getD 0

/-- The predicate lets the instruction's operands be read: a scalar form's is not in flight and its lane 0 is enabled (R128,
R131). -/
def predTests (st : Strand) (i : Instr) : Bool :=
  !((opForm i).pred.isSome && !(opForm i).vpred) ||
    ((predOf i == 0 || !st.inFlight (.k (predOf i))) && (lanesOn st i).getLsbD 0)

/-- The predicate lets the instruction act: no write of it is in flight, and a scalar form's lane 0 is enabled and
untagged (R128, R131, R372). -/
def predPasses (st : Strand) (i : Instr) : Bool :=
  (predOf i == 0 || !st.inFlight (.k (predOf i))) &&
    (!((opForm i).pred.isSome && !(opForm i).vpred) ||
      ((lanesOn st i).getLsbD 0 && !(st.regs.kP (predOf i)).t.getLsbD 0))

/-! ### Results of slot B -/

/-- Slot-B instruction `i`, whose check gave `g`, has issued with outcome `o`, to write back `lat` clocks later. -/
def issuedB (s : State) (lat : Nat) (i : Instr) (g : Pass) (o : BOut) : State :=
  s.issueB s.cur lat i g.st (if (opForm i).vpred then g.act else ~~~0#64) g.act g.fl g.bks o

def IssuesB (s : State) (lat : Nat) (i : Instr) (g : Pass) (o : BOut) : Prop := exec i s = .next (issuedB s lat i g o)

/-- Wherever the check passes, slot-B instruction `i` issues with one scalar result: its value, its tag, and its lane-0
flags, PS among them when the result is tagged (R51, R52, R174, R175). -/
def ScalarOp (s : State) (lat : Nat) (i : Instr) (v : Pass → W64) (t : Pass → Bool) (f : Pass → Nat) : Prop :=
  ∀ g, Passes s 1 i g →
    IssuesB s lat i g { vals := [.s ⟨v g, t g⟩], flags := BitVec.ofNat 448 ((if t g then f g ||| 64 else f g) % 128) }

/-- One lane of a vector result: its bits, its tag, its flags. -/
structure LaneVal where
  v : W32
  t : Bool
  f : Nat

/-- The outcome is one vector: an active lane holds what `f` says, a disabled one that lane of the third source, or 0;
the predicate's tags join; an active lane's flags are `f`'s, with PS when it is tagged (R51, R127, R128, R174, R372). -/
def LaneResult (g : Pass) (o : BOut) (third : VV) (f : Nat → LaneVal) : Prop :=
  o.kval = none ∧ ∃ x : VV, o.vals = [.v x] ∧ ∀ j < 64,
    let on := g.act.getLsbD j
    lane x.v j = (if on then (f j).v else lane third.v j) ∧
    x.tag j = ((if on then (f j).t else third.tag j) || g.pred.t.getLsbD j) ∧
    (laneFlags o.flags j).toNat = (if on then ((f j).f ||| (if x.tag j then 64 else 0)) % 128 else 0)

/-- Wherever the check passes, slot-B instruction `i` issues with a vector result given lane by lane. -/
def LaneOp (s : State) (lat : Nat) (i : Instr) (third : Pass → VV) (f : Pass → Nat → LaneVal) : Prop :=
  ∀ g, Passes s 1 i g → ∃ o, IssuesB s lat i g o ∧ LaneResult g o (third g) (f g)

def noThird (_ : Pass) : VV := VV.zero

/-- A lane of two sources: value and flags by `h`, tagged when either source lane is. -/
def lanes2 (h : W32 → W32 → W32 × Nat) (g : Pass) (j : Nat) : LaneVal :=
  ⟨(h (lane g.va.v j) (lane g.vb.v j)).1, g.va.tag j || g.vb.tag j, (h (lane g.va.v j) (lane g.vb.v j)).2⟩

/-- A lane of one source. -/
def lanes1 (h : W32 → W32 × Nat) (g : Pass) (j : Nat) : LaneVal :=
  ⟨(h (lane g.va.v j)).1, g.va.tag j, (h (lane g.va.v j)).2⟩

/-- A lane of three sources. -/
def lanes3 (h : W32 → W32 → W32 → W32 × Nat) (g : Pass) (j : Nat) : LaneVal :=
  ⟨(h (lane g.va.v j) (lane g.vb.v j) (lane g.vc.v j)).1, g.va.tag j || g.vb.tag j || g.vc.tag j,
    (h (lane g.va.v j) (lane g.vb.v j) (lane g.vc.v j)).2⟩

/-- An integer clamped to 32 signed bits, with SA (bit 5) when it was outside (R186). -/
def clamp32 (x : Int) : W32 × Nat :=
  if x < -2 ^ 31 then (0x80000000#32, 32) else if 2 ^ 31 ≤ x then (0x7FFFFFFF#32, 32) else (BitVec.ofInt 32 x, 0)

/-- The result is tagged when a source is (R174). -/
def tagA (g : Pass) : Bool := g.sa.t
def tagAB (g : Pass) : Bool := g.sa.t || g.sb.t
def tagABC (g : Pass) : Bool := g.sa.t || g.sb.t || g.sc.t
def noFlags (_ : Pass) : Nat := 0

/-- The immediate in force: IMM12 sign-extended, or with an `EXT` the 32-bit value it makes, sign-extended (R123). -/
def immValue (g : Pass) (im : BitVec 12) : W64 :=
  match g.st.front.ctx.ext with
  | none => im.signExtend 64
  | some h => (h ++ im : BitVec 32).signExtend 64

/-- Integer conditions (Tables 8-6 and 8-9): 0 EQ, 1 NE, 2 LT, 3 GE, 4 LE, 5 GT. -/
def condHolds (c : BitVec 3) (x y : Int) : Bool :=
  match c.toNat with
  | 0 => decide (x = y)
  | 1 => decide (x ≠ y)
  | 2 => decide (x < y)
  | 3 => decide (y ≤ x)
  | 4 => decide (x ≤ y)
  | _ => decide (y < x)

/-- A value read as an integer, unsigned or signed (R173). -/
def asInt {w : Nat} (u : Bool) (a : BitVec w) : Int := if u then (a.toNat : Int) else a.toInt

/-- The outcome is one predicate: the bits of active lanes are written, each with its truth and its tag (R191, R208,
R372); an active lane's flags are `f`'s, with PS when its bit is tagged. -/
def PredResult (g : Pass) (o : BOut) (h : Nat → Bool × Bool × Nat) : Prop :=
  o.vals = [] ∧ ∃ y : PV, o.kval = some (y, g.act) ∧ ∀ j < 64,
    y.v.getLsbD j = (h j).1 ∧
    y.t.getLsbD j = ((h j).2.1 || g.pred.t.getLsbD j) ∧
    (laneFlags o.flags j).toNat =
      (if g.act.getLsbD j then ((h j).2.2 ||| (if y.t.getLsbD j then 64 else 0)) % 128 else 0)

def PredOp (s : State) (lat : Nat) (i : Instr) (h : Pass → Nat → Bool × Bool × Nat) : Prop :=
  ∀ g, Passes s 1 i g → ∃ o, IssuesB s lat i g o ∧ PredResult g o (h g)

/-- Wherever the check passes, slot-B instruction `i` issues with the outcome `out` computes from the operands. -/
def GivesB (s : State) (lat : Nat) (i : Instr) (out : BIn → BOut) : Prop :=
  ∀ g, Passes s 1 i g → IssuesB s lat i g (out g.bin)

/-! ### Slot A -/

/-- Slot-A instruction `i` is let through by the check of R131 with `g`, and then by its own checks, which give plan `p`:
no trap, no translation awaited, and room among the strand's open operations (R131, R251, R252, R369). -/
def PassesA (s : State) (i : Instr) (g : Pass) (p : Plan) : Prop :=
  Passes s 0 i g ∧ planOf i s.cur g.ain s = p ∧ p.trap = none ∧ p.miss = false ∧ g.st.openFull i = false

/-- Slot A waits for something beside its operands and its checks: a seventeenth unacknowledged multicast; a predicate, not yet
written, that a chain word names (R127, R269, R278). -/
def heldA (s : State) (i : Instr) (g : Pass) : Bool :=
  match i with
  | .mcst .. => decide (16 ≤ s.me.mcstOut)
  | .schain .. => g.st.maskWait g.sa.v
  | _ => false

/-- Slot-A instructions, other than loads, that stay open after issue until they perform, resolve or retire. -/
def staysOpen (i : Instr) : Bool :=
  match i with
  | .amo .. | .cas .. | .sta .. | .waitv .. | .mcst .. | .cbld .. | .cbwr .. | .cbinv .. | .tflush .. | .tinv ..
  | .schain .. | .spos .. | .sunbind .. | .spill .. | .fill .. | .unpark .. => true
  | _ => false

/-- A writer of a codebook bank that stalls its slot when it issues: its bank is held, or an `LDT` before it has not
resolved (R75, R282). -/
def stallsOpen (s : State) (i : Instr) (g : Pass) : Bool :=
  match bankWritten i with
  | some b => s.writerStalls s.cur g.st.front.ctx.seq b
  | none => false

/-- What an instruction that takes its value at issue takes: a `FILL` its spill-bank entry, an `UNPARK` the entry of the park
area, or of a `PARK` of its strand that has not written yet; a free entry gives 0 with every tag (R276, R277). -/
def takenAtIssue (s : State) (i : Instr) : Option DVal :=
  match i with
  | .fill _ v o => some (fillValue s.me.spillView v o.toNat)
  | .unpark _ k => some (.v (match s.me.parkHeld k.toNat with
      | some p => if p.aux = parkTaken then ⟨0, ~~~0#64⟩ else p.z.headD VV.zero
      | none => (mget? (s.core (coreOf s.cur)).park k.toNat).getD ⟨0, ~~~0#64⟩))
  | _ => none

/-- Slot-A instruction `i` has opened an operation: the strand's entry holds its operands, the reads planned, its PC and
its clock; every queue destination has its position reserved; memory is as the checks left it (R129, R252, R369). -/
def Opened (s : State) (i : Instr) (g : Pass) (p : Plan) (t : State) : Prop :=
  (∃ e ∈ (t.strand s.cur).open_, e.id = p.st.opId ∧ e.instr = i ∧ e.slot = 0 ∧ e.seq = g.st.front.ctx.seq ∧
    e.pc = g.st.front.ctx.pc ∧ e.clk = p.st.clk ∧ e.slip = false ∧ e.dests = destsOf g.st i ∧
    (stallsOpen p.st i g = true → e.step = writerStalled ∧ e.resolved = false) ∧
    (stallsOpen p.st i g = false → e.step = 0 ∧ e.resolved = (match i with
      | .cbwr .. | .cbinv .. => true
      | _ => resolvedByPlan i && memOnly p.rds)) ∧
    (match takenAtIssue s i with
     | some v => e.done = true ∧ e.z = [v.toVV]
     | none => e.done = false ∧ e.x = g.va ∧ e.y = g.vb ∧ e.pred = g.pred ∧
       e.rds = p.rds ∧
       e.z = match i with
         | .schain .. => g.st.predVecs
         | _ => g.c)) ∧
  t.opId = p.st.opId + 1 ∧ t.mem = s.mem ∧ t.marks = p.st.marks ∧ t.clk = p.st.clk ∧
  (t.strand s.cur).wq = g.st.wq ∧ (t.strand s.cur).front.pc = g.st.front.pc ∧ (t.strand s.cur).ctl = g.st.ctl ∧
  (t.strand s.cur).regs.sp = g.st.regs.sp ∧ (t.strand s.cur).regs.vp = g.st.regs.vp ∧
  (t.strand s.cur).regs.kp = g.st.regs.kp ∧
  (∀ r, Dest.s r ∈ destsOf g.st i → r < 24 → QCell.hole p.st.opId ∈ (t.strand s.cur).regs.sQ r) ∧
  ∀ m, m ≠ s.cur → (∀ r q, Dest.lk r m q ∉ destsOf g.st i) → t.strand m = p.st.strand m

/-- The flags that stream operands contribute to a slot-A instruction (R53). -/
def flagsA (i : Instr) (g : Pass) : LaneFlags :=
  if (opForm i).nf then 0 else if (opForm i).vpred then maskFlags g.fl g.act else g.fl

/-- The comparison of `WAITV`, COND `c`, of the value read with the operand, at 4 bytes or at 8: equal, different, not
below and above unsigned, not below and above signed (Table 11-13). -/
def waitvCond (c : BitVec 3) (word : Bool) (v b : Nat) : Prop :=
  let m := if word then 2 ^ 32 else 2 ^ 64
  match c.toNat with
  | 0 => v % m = b % m
  | 1 => v % m ≠ b % m
  | 2 => b % m ≤ v % m
  | 3 => b % m < v % m
  | 4 => Int.bmod b m ≤ Int.bmod v m
  | _ => Int.bmod b m < Int.bmod v m

/-- What a `WAITV` makes of the value `v` that it has read, in state `s1`: of a marked line POISON at the word's address; a value
that meets the condition resolves it, to write back in the next clock; any other leaves it unresolved, watching the word from
this clock on, with the stamp `wts` of the last write of its line (R275, R337). -/
def WaitvOutcome (s1 : State) (n : Nat) (e : Entry) (c : BitVec 3) (word : Bool) (v : Nat) (marked : Bool) (wts : W64) (t : State) : Prop :=
  (marked = true → t = s1.trapEntry n e { cause := .poison, eaddr := e.ain.av &&& ~~~(if word then 3#64 else 7#64) }) ∧
  (marked = false → t.mem = s1.mem ∧ (t.strand n).regs = (s1.strand n).regs ∧ (∀ m, m ≠ n → t.strand m = s1.strand m) ∧
    ∃ y, t.entry? n e.id = some y ∧
      (waitvCond c word v e.ain.bv.toNat → y.resolved = true ∧ y.step = 2 ∧ y.aux = BitVec.ofNat 64 v ∧ y.clk = s1.clk + 1) ∧
      (¬ waitvCond c word v e.ain.bv.toNat → y.resolved = e.resolved ∧ y.step = 1 ∧ y.aux = wts ∧ y.clk = s1.clk))

/-- Stream register `q` of strand `n` has got its pattern vector `j`, and keeps of the others those from `lo` on; its position
stands (R270). -/
def GotVector (u : State) (n q lo j : Nat) (y : Stream) (v : VV) (f : LaneFlags) : Prop :=
  ∃ z, mget? (u.strand n).streams q = some z ∧ mget? z.raw j = some v ∧ mget? z.rawFlags j = some f ∧ z.pos = y.pos ∧
    z.length = y.length ∧ z.next = j + 1 ∧ z.rds = [] ∧ z.fault = y.fault ∧
    ∀ i, i ≠ j → mget? z.raw i = if lo ≤ i then mget? y.raw i else none

/-! ### The front of a strand -/

/-- A strand between bundles, in split mode, that nothing holds (R110, R111, R244, R282). -/
structure AtRest (st : Strand) (clk : Nat) : Prop where
  can : st.canIssue clk = true
  noTrap : st.front.trapping = none
  noHeld : st.front.held = none
  noWait : st.front.waitC = none
  noPairs : st.front.pairs = []
  noLatch : st.front.latch = none
  noMarks : st.front.marks = []
  slot0 : st.front.firstSlot = 0
  noWindow : st.windowWait = false
  noWriter : st.writerWait = false
  noStep : st.ctl.dbgctl.getLsbD 0 = false
  noReturn : st.waitingC = none

/-! ### Slot C -/

/-- A slot-C instruction passes its check with `g`, none of its scalar operands tagged (R131, R146). -/
def PassesC (s : State) (i : Instr) (g : Pass) : Prop := Passes s 2 i g ∧ poisonC g.a g.b g.c = none

/-- The state that a slot-C instruction acts on: the pops made. -/
def poppedC (s : State) (g : Pass) : State := s.setStrand s.cur g.st

/-- The state in which a waiting slot-C instruction has been opened, and its entry (R144, R426). -/
def openedC (s : State) (i : Instr) (g : Pass) : State :=
  s.openOp s.cur 2 i g.st ⟨g.va, g.vb, [g.vc], g.pred⟩ true []

/-- Slot-C instruction `i` is not open yet and issues now as entry `e`. -/
def OpensC (s : State) (i : Instr) (g : Pass) (e : Entry) : Prop :=
  s.resuming i = none ∧ PassesC s i g ∧ g.st.openFull i = false ∧ (openedC s i g).resuming i = some e

/-- Wherever the check passes, slot-C instruction `i` issues and completes with the effect `f`. -/
def RunsC (s : State) (i : Instr) (f : Pass → State → State) : Prop :=
  ∀ g, PassesC s i g → exec i s = .next (f g (poppedC s g))

/-- A slot-C instruction that waits as part of its effect does `f` in each clock, with its entry: in the clock that opens
it and, while it is open, in later ones (R426). -/
def WaitsC (s : State) (i : Instr) (f : Entry → State → State) : Prop :=
  (∀ g e, OpensC s i g e → exec i s = .next (f e (openedC s i g))) ∧
  (∀ e, s.resuming i = some e → exec i s = .next (f e s))

/-- A scalar result of slot C: it writes back in this clock (R144). -/
def resultC (t : State) (i : Instr) (v : W64) : State := t.putC t.cur i [.s ⟨v, false⟩] 0

/-- An open operation of slot C ends with a scalar result. -/
def endsC (t : State) (e : Entry) (v : W64) : State := t.finishC t.cur e [.s ⟨v, false⟩]

/-- Strand `n` goes on at the bundle at `q`: a fetched bundle is dropped; nothing else changes. -/
def GoesTo (t u : State) (n : Nat) (q : W64) : Prop :=
  (u.strand n).front.pc = q ∧ (u.strand n).front.fellOff = false ∧ (u.strand n).front.latch = none ∧
  (u.strand n).front.pairs = (t.strand n).front.pairs ∧ (u.strand n).regs = (t.strand n).regs ∧
  (u.strand n).ctl = (t.strand n).ctl ∧ (u.strand n).flights = (t.strand n).flights ∧
  (u.strand n).open_ = (t.strand n).open_ ∧ u.mem = t.mem ∧ u.agenda = t.agenda ∧ u.cores = t.cores ∧
  ∀ m, m ≠ n → u.strand m = t.strand m

/-- `MTS` form `i` writes register `num` by `f`: the write waits until every earlier instruction has written back (R162). -/
def MtsWrites (s : State) (i : Instr) (num : Nat) (f : W64 → Strand → Strand) : Prop :=
  WaitsC s i (fun e t => if t.me.sysReady e num then (t.modStrand t.cur (f e.xv)).finishC t.cur e [] else t)

/-! ### Tile tasks -/

/-- Task `uid` has been dispatched, and its effect is to be carried out now. -/
def DueTask (s : State) (uid k : Nat) (t : Task) : Prop :=
  s.task? uid = some t ∧ t.dispatched = true ∧ t.ran = false ∧ t.kind = k

/-- Task `uid` has been carried out in this clock and keeps its server for `d` clocks. -/
def Carried (s u : State) (uid d : Nat) : Prop :=
  ∀ x ∈ u.tasks, x.uid = uid → x.ran = true ∧ x.phase = .dispatched (s.clk + d)

/-- The event `i` carries out the tasks of kind `k` by `f`: a task that is done keeps its server until its duration has
passed and ORs its flags in; a faulting one is over at once, with its fault; one whose tiles are not there stays dispatched and asks
for them again, and the fault of one of them is its fault (R306, R313, R317). A task that is not due is left as it is. -/
def CarriesOut (s : State) (i : Nat → Instr) (k : Nat) (f : Task → State → Ran) : Prop :=
  ∀ uid t, DueTask s uid k t →
    (∀ s1 d fl, f t s = .done s1 d fl → exec (i uid) s = .next (s1.modTask uid (fun x => { x with
      phase := .dispatched (s.clk + d), ran := true, flags := x.flags ||| BitVec.ofNat 7 fl }))) ∧
    (∀ s1 x, f t s = .fault s1 x → exec (i uid) s = .next (s1.faultTask uid x)) ∧
    (∀ s1, f t s = .again s1 →
      (∀ x, t.fault = some x → exec (i uid) s = .next (s1.faultTask uid x)) ∧
      (t.fault = none → ∀ s2 r, s1.askTiles t = (s2, r) →
        exec (i uid) s = .next (match r with
          | .fault x => s2.faultTask uid x
          | _ => s2)))

end Sys2Proof
end

