-- ==== Sys2Proof/Certificates/Slice0/Obligations.lean ====
section
/-! DEFINITION. The statements for the provers. -/

open Sys2Proof Sys2Proof.Machine

/-! ### Encodings (R121 to R137) -/

/-- The words that the spec writes out in its examples decode to the instructions they are examples of, each in its slot;
the all-zero word is NOP in every slot; an unassigned opcode, opcode 0 with another bit set, a nonzero reserved field, a
reserved modifier and a reserved operand code are refused. -/
def Obligations.DecodeWords : Prop :=
  decodeSlot .a 0x40CB4300#32 = .ok (.sbind 25 26 false 3) ∧
  decodeSlot .a 0x42CB7803#32 = .ok (.schain 25 27 48 false false 3) ∧
  decodeSlot .a 0x60E40400#32 = .ok (.spill 28 true 1024) ∧
  decodeSlot .a 0x30C18702#32 = .ok (.ldt 24 12 14 false false false 1) ∧
  decodeSlot .b 0x40C00678#32 = .ok (.movi 24 0x678) ∧
  decodeSlot .b 0x0CC32D00#32 = .ok (.div 24 25 26 false false false 0 false) ∧
  decodeSlot .b 0x70D09156#32 = .ok (.vadd 26 4 34 true false true 3 false) ∧
  decodeSlot .b 0x7AD09200#32 = .ok (.vmac2 26 4 4 true false false 0 false) ∧
  decodeSlot .b 0x92CB5780#32 = .ok (.vshrr 25 26 true 15 false false 0 false) ∧
  decodeSlot .b 0x9ED30CFA#32 = .ok (.vslide 26 24 25 true true true true 1) ∧
  decodeSlot .b 0xE6D10691#32 = .ok (.vcvt 26 8 false 6 9 0 true) ∧
  decodeSlot .b 0xF2C88D48#32 = .ok (.vq4nS 25 4 26 true false false) ∧
  decodeSlot .c 0x02A00019#32 = .ok (.br 2 true 3 1) ∧
  decodeSlot .c 0x0600000A#32 = .ok (.call 0 false 1 2) ∧
  decodeSlot .c 0x0A03C000#32 = .ok (.ret 30 false 0 false) ∧
  decodeSlot .c 0x60891A28#32 = .ok (.ext 1 0x12345) ∧
  decodeSlot .c 0x30CB4D80#32 = .ok (.tenq 25 26 27 false false) ∧
  decodeSlot .c 0x23803001#32 = .ok (.sempost 48 3 1) ∧
  decodeSlot .c 0x25800007#32 = .ok (.mxlock 48 7) ∧
  decodeSlot .c 0x5AC80051#32 = .ok (.mfs 25 0x51) ∧
  (∀ sl, decodeSlot sl 0 = .ok .nop) ∧
  (∀ sl, decodeSlot sl 1 = .bad (.illins 0)) ∧
  (∀ sl, decodeSlot sl 0xFE000000#32 = .bad (.illins 0)) ∧
  decodeSlot .c 0x62000001#32 = .bad (.illins 1) ∧
  decodeSlot .b 0x38C32000#32 = .bad (.illins 1) ∧
  decodeSlot .b 0x0CC33900#32 = .bad (.illins 2)

/-- Decode and encode agree: every well-formed slot instruction, with every operand at every value its layout admits, has
a word in one slot class, and the decoder reads that instruction back from it. -/
def Obligations.DecodeEncode : Prop :=
  ∀ i : Instr, WellFormed i → ∃ sl w, encode i = some (sl, w) ∧ decodeSlot sl w = .ok i

/-- No two words of a slot mean one instruction, and no bit of a word is dropped: what the decoder accepts from a word
other than zero is encoded as that word, and is well-formed. -/
def Obligations.EncodeDecode : Prop :=
  ∀ (sl : SlotClass) (w : W32) (i : Instr), w ≠ 0 → decodeSlot sl w = .ok i →
    encode i = some (sl, w) ∧ WellFormed i

/-! ### The step -/

/-- A step carries out the next turn of the clock: for an event that is the event's own effect; with no turn left the next
clock begins, in which CLKCNT is one more (R92, R232). Slots B and C of the oldest bundle of a strand run their decoded
instructions in order: B, and, unless it stalls or traps, C on the state that B left; when either stalls, neither issues
(R110, R130, R131). The pair that has issued is a stepped bundle, but for that of the `ERET` by which a strand returns to its
gang (R119, R120). -/
def Obligations.StepRunsTurns : Prop :=

  (∀ s : State, s.cur8.thermal = false →
    (∀ i r, s.agenda = .ev i :: r → step s = exec i { s with agenda := r }) ∧
    (∀ n r, s.agenda = .strand n :: r → step s = strandTurn exec { s with agenda := r } n) ∧
    (∀ c r, s.agenda = .gang c :: r → step s = gangTurn exec { s with agenda := r } c) ∧
    (s.agenda = [] → ∃ t, step s = .next t ∧ t.clk = s.clk + 1 ∧ t.mem = s.mem ∧
      ∀ n, (t.strand n).regs = (s.strand n).regs ∧ (t.strand n).ctl = (s.strand n).ctl ∧
        (t.strand n).front = (s.strand n).front ∧ (t.strand n).flights = (s.strand n).flights ∧
        (t.strand n).wq = (s.strand n).wq ∧ (t.strand n).streams = (s.strand n).streams ∧
        (t.strand n).open_.map Entry.id = (s.strand n).open_.map Entry.id)) ∧
  (∀ (s tb tc : State) (n : Nat) (p : Pair) (rest : List Pair) (ib ic : Instr),
    (s.strand n).front.pairs = p :: rest → (s.strand n).front.waitC = none → (s.strand n).front.trapping = none →
    (s.strand n).unresolvedUpTo p.seq = false → p.from_ ≠ 2 → p.decoded.b = .ok ib → p.decoded.c = .ok ic →
    exec ib (s.enterSlot n ⟨p.seq, p.pc, p.link, p.decoded.extB, false⟩) = .next tb →
    (tb.slotStalled n = true → pairTurn exec s n = .next (s.keepMisses tb)) ∧
    (tb.slotStalled n = false → tb.slotTrapped n = false →
      exec ic (tb.enterSlot n ⟨p.seq, p.pc, p.link, none, false⟩) = .next tc →
      (tc.slotStalled n = true → pairTurn exec s n = .next (s.keepMisses tc)) ∧
      (tc.slotStalled n = false → tc.slotTrapped n = false →
        let back := (s.strand n).ctl.leftGang && !(tc.strand n).ctl.leftGang
        pairTurn exec s n = .next (tc.modStrand n (fun x => { x.pairIssued p with
          front := { (x.pairIssued p).front with stepped := !back } })))))

/-- A step runs the decoded instruction. A strand at rest whose fetch delivers a bundle whose slot A decodes to `i` runs
`exec i`, as the strand that executes, in the bundle's own PC, link word and immediate; when it stalls, only what the
fetch and the translation did is kept; when it traps, the trap stands; else the bundle's slots B and C are next, in this
same clock. -/
def Obligations.NextBundleRuns : Prop :=
  ∀ (s s2 t : State) (n : Nat) (r : List Turn) (link wa wb wc : W32) (i : Instr) (dir : Option Bool),
    s.cur8.thermal = false → s.agenda = .strand n :: r → AtRest (s.strand n) s.clk →
    let s0 := { s with agenda := r }
    let s1 := s0.modStrand n (fun x => { x with front := { x.front with stepped := false, trapped := false } })
    let f := (s2.strand n).front
    let b := f.fetched link wa wb wc
    let s3 := s2.modStrand n (fun x => { x with front := x.front.latched b })
    let d := decodeBundle wa wb wc
    s1.fetch n (s.strand n).front.pc (s.strand n).front.fellOff = (s2, .ok link wa wb wc) →
    s2.strand n = s1.strand n → s2.clk = s.clk → d.a = .ok i → (s3.strand n).loopDecision d = some dir →
    exec i (s3.enterSlot n ⟨f.seq, f.pc, link, d.extA, false⟩) = .next t →
    let after := t.modStrand n (fun x => x.aIssued b dir)
    (t.slotStalled n = true → step s = .next (s3.keepMisses t)) ∧
    (t.slotStalled n = false → t.slotTrapped n = true →
      ((t.strand n).canIssue t.clk = false ∨ (t.strand n).front.trapping ≠ none) → step s = .next t) ∧
    (t.slotStalled n = false → t.slotTrapped n = false → (after.strand n).canIssue after.clk = true →
      (after.strand n).front.trapping = none → step s = pairTurn exec after n)

/-- Fetch reads the three words of a bundle from its code line: bundle i's slot A is the little-endian word at byte
4 + 12 i, slot B the next, slot C the one after; the checks of Table 5-2 come first, in its order, and that of END before that of
BUNDLE where the code has been fallen off (the model's reading, log entry 36). `CODE_FETCH` puts the
bundle into the latch of a strand that may issue and has none, and otherwise does nothing. -/
def Obligations.FetchReadsBundle : Prop :=
  (∀ (s s1 : State) (n : Nat) (pc : W64) (off : Bool) (pa : Nat) (t : Tlb),
    s.xlate n (lineOf pc) .fetch = (s1, .ok pa t) → paHome pa = true → s1.marked (pa / 256) = false →
    let word (o : Nat) : W32 := BitVec.ofNat 32 (leNat (((s1.readBytes pa 64).drop o).take 4))
    let link := word 0
    let cnt := (link.extractLsb' 1 3).toNat
    let i := (pc.extractLsb' 0 3).toNat
    let bad (sub : Nat) : State × Fetched := (s1, .fault { cause := .fetch, sub := sub, fx := true })
    s.fetch n pc off =
      if cnt = 0 ∨ 5 < cnt ∨ (link.getLsbD 0 = true ∧ link.extractLsb' 4 24 ≠ 0) then bad 3
      else if (link.extractLsb' 28 4).getLsbD (n % 4) = false then bad 2
      else if off = true then bad 0
      else if pc.extractLsb' 3 3 ≠ 0 ∨ cnt ≤ i then bad 1
      else (s1, .ok link (word (4 + 12 * i)) (word (8 + 12 * i)) (word (12 + 12 * i)))) ∧
  (∀ (s : State) (n : Nat),
    (((s.strand n).canIssue s.clk && !(s.strand n).aHeld) = false → exec (.codeFetch n) s = .next s) ∧
    (((s.strand n).canIssue s.clk && !(s.strand n).aHeld) = true → (s.strand n).front.latch = none →
      ∀ s1 link wa wb wc, s.fetch n (s.strand n).front.pc (s.strand n).front.fellOff = (s1, .ok link wa wb wc) →
        ∃ t, exec (.codeFetch n) s = .next t ∧ t.mem = s1.mem ∧
          (t.strand n).front = (s1.strand n).front.latched ((s1.strand n).front.fetched link wa wb wc) ∧
          (t.strand n).regs = (s1.strand n).regs))

/-- NextPC: the next bundle of the line; after its last bundle the line at the signed offset NXT, or, with L = 1, the PC
whose fetch raises FETCH END.
(That the fetch of such a PC raises END and not BUNDLE is the model's reading of Table 5-2: log entry 36.) -/
def Obligations.NextPc : Prop :=
  ∀ (pc : W64) (link : W32),
    let i := (pc.extractLsb' 0 3).toNat
    let cnt := (link.extractLsb' 1 3).toNat
    let a : W64 := pc &&& ~~~63#64
    nextPc pc link =
      if i + 1 < cnt then (a + BitVec.ofNat 64 (i + 1), false)
      else if link.getLsbD 0 = false then (a + 64 * (link.extractLsb' 4 24).signExtend 64, false)
      else (a + BitVec.ofNat 64 cnt, true)

/-! ### Reset, memory, stops -/

/-- After reset the module holds no context, queue, launch or group, no strand runs, every core's banks are in mode 0 with
their join bits clear, the identity tables hold no valid entry and the module has no number of its own, the window
registers are zero; memory lists nothing and its form is canonical. Every strand's SRNG is the start value of position 0,
which is the model's choice before a group starts (log entry 1).
A byte of memory that nothing has written reads as 0: the model's choice (log entry 2). -/
def Obligations.ResetState : Prop :=
  Memory.wf State.reset.mem ∧ State.reset.contexts = [] ∧ State.reset.lqueues = [] ∧ State.reset.launches = [] ∧
  State.reset.groups = [] ∧ State.reset.placement = [] ∧ State.reset.tasks = [] ∧
  (∀ n, (State.reset.strand n).running = false ∧ (State.reset.strand n).bound = none ∧
    (State.reset.strand n).ctl.exl = false ∧ (State.reset.strand n).ctl.flags = 0 ∧
    (State.reset.strand n).ctl.srng = 0x9E3779B97F4A7C15#64) ∧
  (∀ c, (State.reset.core c).join = 0 ∧ ∀ b, ((State.reset.core c).bank b).current.mode = 0) ∧
  (∀ l, mget State.reset.fabric.active l 0 = 0 ∧ mget State.reset.fabric.shadow l 0 = 0) ∧ State.reset.fabric.own = none ∧
  (∀ w, State.reset.fabric.window w = (0, 0)) ∧
  (∀ a, State.reset.readBytes a 1 = [0])

/-- Every step keeps memory in its canonical form: addresses strictly rising, no listed byte equal to what an unlisted
address reads as. -/
def Obligations.StepKeepsMemory : Prop :=
 ∀ s t : State, Memory.wf s.mem → step s = .next t → Memory.wf t.mem

/-- A read after a write of several bytes gives at each address the last byte written there, and elsewhere what was there
before; and the write keeps the canonical form. -/
def Obligations.MemoryReadsWhatWasWritten : Prop :=
  ∀ (m : List Host.Cell) (l : List (Nat × Byte)) (a : Nat), Memory.wf m →
    Memory.wf (memSetAll m l) ∧
    memBytes (memSetAll m l) a 1 =
      (match l.reverse.find? (fun p => p.1 == a) with
       | some p => [p.2]
       | none => memBytes m a 1)

/-- Every step of the machine other than the six agents' accesses that name an address outside the memory they act on ends in a
next state, from every state and on all operands. Nothing is refused, and the one reason for a fault is a reserved physical
address named from outside the strands.
(The stop at a reserved address is the model's choice, log entry 58. Of the events the six that name such an address from
outside are the ones this statement lets stop.) -/
def Obligations.EveryInstructionCompletes : Prop :=
  (∀ (i : Instr) (s : State), mayStop i = false → Completes (exec i s)) ∧
  (∀ (i : Instr) (s : State), (∀ r, exec i s ≠ .refused r) ∧
    ∀ f, exec i s = .fault f → f = .reservedAddress ∧ mayStop i = true)

/-! ### The issue check and results (R126 to R131, R174 to R176) -/

/-- An instruction whose predicate lets it act, whose source operands can all be read in the order of R130, and whose
destinations have room once the pops are made, passes its check: it issues with those pops and those values. (Stream
operands are the subject of `CheckTraps`.) -/
def Obligations.CheckPasses : Prop :=
  ∀ (s : State) (slot : Nat) (i : Instr) (st : Strand) (vs : List VV),
    predPasses (s.strand s.cur) i = true → Reads s (s.strand s.cur) (opForm i).srcs st vs →
    (∀ d ∈ (opForm i).dests, roomFor s st d = true) →
    Passes s slot i
      { st := st, a := vs.take (opForm i).a.length, b := (vs.drop (opForm i).a.length).take (opForm i).b.length,
        c := vs.drop ((opForm i).a.length + (opForm i).b.length),
        pred := (s.strand s.cur).regs.kP (predOf i), act := lanesOn (s.strand s.cur) i, fl := 0, bks := [] }

/-- A queue trap: the first source that finds its queue empty gives QUNF, with the operand code in EINFO, whatever later
operands and destinations hold; when all sources can be read, the first destination queue without room gives QOVF; both
find the slot that they stand at, and the check pops nothing.
A stream operand: an unbound stream register gives QUNF UNBOUND (subcause 1), one at its end QUNF END (subcause 2); a pop
delivers the next vector of the stream, advances its position by one and leaves SRNG as its conversions left it; a peek
delivers the same vector and leaves position and SRNG as they were (a conversion's draws belong to the pop: log entry 65). -/
def Obligations.CheckTraps : Prop :=
  (∀ (s : State) (slot : Nat) (i : Instr) (st : Strand) (vs : List VV), predTests (s.strand s.cur) i = true →
    (∀ pre c p post, (opForm i).srcs = pre ++ ⟨.s, c, p⟩ :: post → Reads s (s.strand s.cur) pre st vs →
      c.toNat < 24 → st.regs.sQ c.toNat = [] →
      checkInstr s s.cur slot i = .trap { cause := .qunf, slot := slot, einfo := BitVec.ofNat 64 c.toNat }) ∧
    (∀ pre c p post, (opForm i).srcs = pre ++ ⟨.v, c, p⟩ :: post → Reads s (s.strand s.cur) pre st vs →
      c.toNat < 24 → st.regs.vQ c.toNat = [] → s.linkTarget s.cur c.toNat = false →
      checkInstr s s.cur slot i = .trap { cause := .qunf, slot := slot, einfo := BitVec.ofNat 64 c.toNat }) ∧
    (∀ pre c post, (opForm i).dests = pre ++ (.s, c) :: post → Reads s (s.strand s.cur) (opForm i).srcs st vs →
      (∀ d ∈ pre, roomFor s st d = true) → c.toNat < 24 → 4 ≤ (st.regs.sQ c.toNat).length →
      checkInstr s s.cur slot i = .trap { cause := .qovf, slot := slot, einfo := BitVec.ofNat 64 c.toNat }) ∧
    (∀ pre c post, (opForm i).dests = pre ++ (.v, c) :: post → Reads s (s.strand s.cur) (opForm i).srcs st vs →
      (∀ d ∈ pre, roomFor s st d = true) → c.toNat < 24 → mget? st.links c.toNat = none →
      2 ≤ vTaken s st c.toNat →
      checkInstr s s.cur slot i = .trap { cause := .qovf, slot := slot, einfo := BitVec.ofNat 64 c.toNat })) ∧
  (∀ (s : State) (n slot : Nat) (a : Scan) (c : BitVec 6) (p : Bool), 32 ≤ c.toNat → c.toNat < 48 →
    a.st.streamPending (c.toNat - 32) = false →
    let e : W64 := BitVec.ofNat 64 c.toNat
    (mget? a.st.streams (c.toNat - 32) = none →
      (readSrc s n slot a ⟨.v, c, p⟩).trap = (a.trap <|> some { cause := .qunf, sub := 1, slot := slot, einfo := e })) ∧
    (∀ q, mget? a.st.streams (c.toNat - 32) = some q → q.length ≤ q.pos →
      (readSrc s n slot a ⟨.v, c, p⟩).trap = (a.trap <|> some { cause := .qunf, sub := 2, slot := slot, einfo := e })) ∧
    (∀ q x f g, mget? a.st.streams (c.toNat - 32) = some q → q.pos < q.length →
      q.banks.any (fun b => a.st.bankPending b) = false →
      q.read (s.core (coreOf n)) q.pos a.act a.st.ctl.srng = .vec x f g →
      (readSrc s n slot a ⟨.v, c, p⟩).vals = x :: a.vals ∧ (readSrc s n slot a ⟨.v, c, p⟩).trap = a.trap ∧
      (readSrc s n slot a ⟨.v, c, p⟩).st.ctl.srng = (if p then a.st.ctl.srng else g) ∧
      ∃ q', mget? (readSrc s n slot a ⟨.v, c, p⟩).st.streams (c.toNat - 32) = some q' ∧
        q'.pos = if p then q.pos else q.pos + 1))

/-- What a slot does when its check does not pass. A slot-B instruction, and a load, store or open operation of slot A, whose
predicate is false in lane 0 does nothing at all; one that must wait stalls, and nothing but the mark of the stall changes;
one that traps raises that trap. In slot A the traps of the instruction's own checks come after, the lowest rank first and
among equal ranks the first met, unless a translation that is still awaited could turn up an earlier one; then a translation
that is awaited, or a 25th open operation, stalls. -/
def Obligations.NotIssued : Prop :=
  (∀ (s : State) (i : Instr), classOf i = some .b →
    (checkInstr s s.cur 1 i = .skip → exec i s = .next s) ∧
    (checkInstr s s.cur 1 i = .stall → exec i s = .next (s.stall s.cur)) ∧
    (∀ t, checkInstr s s.cur 1 i = .trap t → exec i s = .next (s.raise s.cur t))) ∧
  (∀ (s : State) (i : Instr), (isLoadOp i = true ∨ staysOpen i = true ∨ isStoreOp i = true ∨ ∃ d a p q, i = .sbind d a p q) →
    s.me.ctl.spillOver i = false →
    (checkInstr s s.cur 0 i = .skip → exec i s = .next s) ∧
    (checkInstr s s.cur 0 i = .stall → exec i s = .next (s.stall s.cur)) ∧
    (∀ t, checkInstr s s.cur 0 i = .trap t → exec i s = .next (s.raise s.cur t)) ∧
    (∀ g t, Passes s 0 i g → (planOf i s.cur g.ain s).verdict = some t →
      exec i s = .next ((planOf i s.cur g.ain s).st.raise s.cur { t with slot := 0 })) ∧
    (∀ g, Passes s 0 i g → (planOf i s.cur g.ain s).verdict = none →
      ((planOf i s.cur g.ain s).miss = true ∨ g.st.openFull i = true) →
      exec i s = .next ((planOf i s.cur g.ain s).st.stall s.cur)))

/-- The frame of a slot B whose check passes: memory, marks, homes, the other units of the module and the module's tables
are unchanged; so are every other strand but one whose queue a linked destination reserves, and in the strand itself its
PC, its plain registers and predicates, its system registers other than SRNG, and, but for `VFLGC`, its flags. -/
def Obligations.SlotBFrame : Prop :=
  ∀ (s t : State) (i : Instr) (g : Pass), classOf i = some .b → Passes s 1 i g → exec i s = .next t →
    t.mem = s.mem ∧ t.marks = s.marks ∧ t.homes = s.homes ∧ t.wings = s.wings ∧ t.dies = s.dies ∧ t.tasks = s.tasks ∧
    t.launches = s.launches ∧ t.fabric = s.fabric ∧ t.clk = s.clk ∧
    (∀ m, m ≠ s.cur → (∀ r q, Dest.lk r m q ∉ ((opForm i).dests.map (destOf g.st)).filterMap id) →
      t.strand m = s.strand m) ∧
    ((t.strand s.cur).front.pc = (s.strand s.cur).front.pc) ∧
    ((t.strand s.cur).regs.sp = (s.strand s.cur).regs.sp) ∧ ((t.strand s.cur).regs.vp = (s.strand s.cur).regs.vp) ∧
    ((t.strand s.cur).regs.kp = (s.strand s.cur).regs.kp) ∧
    ((t.strand s.cur).ctl.epc = (s.strand s.cur).ctl.epc) ∧ ((t.strand s.cur).ctl.exl = (s.strand s.cur).ctl.exl) ∧
    ((t.strand s.cur).ctl.trapBase = (s.strand s.cur).ctl.trapBase) ∧
    ((∀ m k x, i ≠ .vflgc m k x) → (t.strand s.cur).ctl.flags = (s.strand s.cur).ctl.flags)

/-- A scalar result reaches its register. An instruction that issues with one scalar result, for a plain destination
register, in a strand with nothing in flight, puts one operation in flight; its `WRITE_BACK` does nothing before `lat`
clocks have passed, and then writes the whole register with the value and its tag, ORs the flags into FLG's lanes, and
ends the operation.
`WRITE_BACK` of an operation in flight whose clock has come and that no earlier write of the same register holds up:
a write to a plain vector register replaces the lanes of its mask and keeps the others, a push fills the position reserved
for it, a predicate write replaces the bits of its mask, k0 discards; memory and every other strand are unchanged. -/
def Obligations.ResultsArrive : Prop :=

  (∀ (s : State) (lat late : Nat) (i : Instr) (g : Pass) (d : BitVec 6) (v : SV) (fl : LaneFlags),
    (opForm i).dests = [(.s, d)] → (opForm i).kd = none → (opForm i).nf = false → 24 ≤ d.toNat → d.toNat < 32 →
    g.fl = 0 → g.bks = [] → g.st.flights = [] → g.st.open_ = [] →
    let s1 := issuedB s lat i g { vals := [.s v], flags := fl }
    let s2 := { s1 with clk := s1.clk + late }
    (late < lat → exec (.writeBack s.cur s.opId) s2 = .next s2) ∧
    (lat ≤ late → ∃ t, exec (.writeBack s.cur s.opId) s2 = .next t ∧
      (t.strand s.cur).regs.sP d.toNat = v ∧ (t.strand s.cur).ctl.flags = g.st.ctl.flags ||| fl ∧
      (t.strand s.cur).flights = [] ∧ t.mem = s.mem ∧
      (∀ r, r ≠ d.toNat → (t.strand s.cur).regs.sP r = g.st.regs.sP r) ∧
      (t.strand s.cur).regs.vp = g.st.regs.vp ∧ (t.strand s.cur).regs.kp = g.st.regs.kp ∧
      (t.strand s.cur).front.pc = g.st.front.pc)) ∧
  (∀ (s : State) (n : Nat) (f : Flight) (w : WB), (s.strand n).flights.find? (fun x => x.id == f.id) = some f →
    f.due ≤ s.clk → f.wbs = [w] → (s.strand n).blockedWB f.seq f.slot w = false →
    ∃ t, exec (.writeBack n f.id) s = .next t ∧ t.mem = s.mem ∧ t.clk = s.clk ∧
      (∀ m, m ≠ n → t.strand m = s.strand m) ∧
      (t.strand n).ctl.flags = (s.strand n).ctl.flags ||| f.flags ∧
      (t.strand n).flights = (s.strand n).flights.filter (fun x => decide (x.id ≠ f.id)) ∧
      (∀ r x, w = .s r x →
        (if r < 24 then (t.strand n).regs.sQ r = qPut ((s.strand n).regs.sQ r) f.id
            (if (s.strand n).slipped f.seq then .late f.id x else .full x)
         else (t.strand n).regs.sP r = x)) ∧
      (∀ r x m, w = .v r x m →
        (if r < 24 then (t.strand n).regs.vQ r = qPut ((s.strand n).regs.vQ r) f.id
            (if (s.strand n).slipped f.seq then .late f.id x else .full x)
         else ∀ j < 64, lane ((t.strand n).regs.vP r).v j =
           if m.getLsbD j then lane x.v j else lane ((s.strand n).regs.vP r).v j)) ∧
      (∀ r x m, w = .k r x m → ∀ j < 64, ((t.strand n).regs.kP r).v.getLsbD j =
        if r = 0 then true else if m.getLsbD j then x.v.getLsbD j else ((s.strand n).regs.kP r).v.getLsbD j))

/-! ### Slot B: integers (R177 to R202) -/

/-- `ADD`, `SUB`, `MUL`, `MULH`, `MULHU`, `AND`, `OR`, `XOR`, `ANDN`, `MIN`, `MAX`, `MINU`, `MAXU`: wherever the check
passes each issues and completes with the value of Table 8-2, tagged when a source is, with no flag but PS, after the
clocks of Table 8-1. -/
def Obligations.ScalarTwoSource : Prop :=
  ∀ (s : State) (d a b : BitVec 6) (p q n : Bool) (k : BitVec 3) (x : Bool),
    ScalarOp s 1 (.add d a b p q n k x) (fun g => BitVec.ofNat 64 (g.sa.v.toNat + g.sb.v.toNat)) tagAB noFlags ∧
    ScalarOp s 1 (.sub d a b p q n k x) (fun g => BitVec.ofInt 64 (g.sa.v.toInt - g.sb.v.toInt)) tagAB noFlags ∧
    ScalarOp s 3 (.mul d a b p q n k x) (fun g => BitVec.ofNat 64 (g.sa.v.toNat * g.sb.v.toNat)) tagAB noFlags ∧
    ScalarOp s 3 (.mulh d a b p q n k x)
      (fun g => (BitVec.ofInt 128 (g.sa.v.toInt * g.sb.v.toInt)).extractLsb' 64 64) tagAB noFlags ∧
    ScalarOp s 3 (.mulhu d a b p q n k x)
      (fun g => (BitVec.ofNat 128 (g.sa.v.toNat * g.sb.v.toNat)).extractLsb' 64 64) tagAB noFlags ∧
    ScalarOp s 1 (.and d a b p q n k x) (fun g => g.sa.v &&& g.sb.v) tagAB noFlags ∧
    ScalarOp s 1 (.or d a b p q n k x) (fun g => g.sa.v ||| g.sb.v) tagAB noFlags ∧
    ScalarOp s 1 (.xor d a b p q n k x) (fun g => g.sa.v ^^^ g.sb.v) tagAB noFlags ∧
    ScalarOp s 1 (.andn d a b p q n k x) (fun g => g.sa.v &&& ~~~g.sb.v) tagAB noFlags ∧
    ScalarOp s 1 (.min d a b p q n k x) (fun g => BitVec.ofInt 64 (Min.min g.sa.v.toInt g.sb.v.toInt)) tagAB noFlags ∧
    ScalarOp s 1 (.max d a b p q n k x) (fun g => BitVec.ofInt 64 (Max.max g.sa.v.toInt g.sb.v.toInt)) tagAB noFlags ∧
    ScalarOp s 1 (.minu d a b p q n k x) (fun g => BitVec.ofNat 64 (Min.min g.sa.v.toNat g.sb.v.toNat)) tagAB noFlags ∧
    ScalarOp s 1 (.maxu d a b p q n k x) (fun g => BitVec.ofNat 64 (Max.max g.sa.v.toNat g.sb.v.toNat)) tagAB noFlags

/-- `DIV`, `DIVU`, `REM`, `REMU`: by truncation toward zero, the remainder with the sign of the dividend, and the results and the
DZ flag of Table 8-3 for divisor zero and signed overflow, in no case with a trap. `SHL`, `SHR`, `SAR`, `ROT` take the amount
in full (Table 8-4). -/
def Obligations.ScalarDivisionShifts : Prop :=

  ((∀ d a b p q n k x, opcodeOf (.div d a b p q n k x) = some 0x06 ∧ opcodeOf (.divu d a b p q n k x) = some 0x07 ∧
    opcodeOf (.rem d a b p q n k x) = some 0x08 ∧ opcodeOf (.remu d a b p q n k x) = some 0x09) ∧
  ∀ (s : State) (d a b : BitVec 6) (p q n : Bool) (k : BitVec 3) (x : Bool),
    let dz (g : Pass) : Nat := if g.sb.v = 0 then 8 else 0
    ScalarOp s 12 (.div d a b p q n k x)
      (fun g => if g.sb.v = 0 then 0xFFFFFFFFFFFFFFFF#64
        else if g.sa.v = 0x8000000000000000#64 ∧ g.sb.v = 0xFFFFFFFFFFFFFFFF#64 then 0x8000000000000000#64
        else BitVec.ofInt 64 (g.sa.v.toInt.tdiv g.sb.v.toInt)) tagAB dz ∧
    ScalarOp s 12 (.divu d a b p q n k x)
      (fun g => if g.sb.v = 0 then 0xFFFFFFFFFFFFFFFF#64 else BitVec.ofNat 64 (g.sa.v.toNat / g.sb.v.toNat)) tagAB dz ∧
    ScalarOp s 12 (.rem d a b p q n k x)
      (fun g => if g.sb.v = 0 then g.sa.v
        else if g.sa.v = 0x8000000000000000#64 ∧ g.sb.v = 0xFFFFFFFFFFFFFFFF#64 then 0
        else BitVec.ofInt 64 (g.sa.v.toInt.tmod g.sb.v.toInt)) tagAB dz ∧
    ScalarOp s 12 (.remu d a b p q n k x)
      (fun g => if g.sb.v = 0 then g.sa.v else BitVec.ofNat 64 (g.sa.v.toNat % g.sb.v.toNat)) tagAB dz) ∧
  ((∀ d a b p q n k x, opcodeOf (.shl d a b p q n k x) = some 0x0E ∧ opcodeOf (.shr d a b p q n k x) = some 0x0F ∧
    opcodeOf (.sar d a b p q n k x) = some 0x10 ∧ opcodeOf (.rot d a b p q n k x) = some 0x11) ∧
  ∀ (s : State) (d a b : BitVec 6) (p q n : Bool) (k : BitVec 3) (x : Bool),
    ScalarOp s 1 (.shl d a b p q n k x)
      (fun g => if g.sb.v.toNat < 64 then BitVec.ofNat 64 (g.sa.v.toNat * 2 ^ g.sb.v.toNat) else 0) tagAB noFlags ∧
    ScalarOp s 1 (.shr d a b p q n k x)
      (fun g => if g.sb.v.toNat < 64 then BitVec.ofNat 64 (g.sa.v.toNat / 2 ^ g.sb.v.toNat) else 0) tagAB noFlags ∧
    ScalarOp s 1 (.sar d a b p q n k x)
      (fun g => if g.sb.v.toNat < 64 then BitVec.ofInt 64 (g.sa.v.toInt / 2 ^ g.sb.v.toNat)
        else if g.sa.v.getLsbD 63 then 0xFFFFFFFFFFFFFFFF#64 else 0) tagAB noFlags ∧
    ScalarOp s 1 (.rot d a b p q n k x)
      (fun g => (g.sa.v <<< (g.sb.v.toNat % 64)) ||| (g.sa.v >>> (64 - g.sb.v.toNat % 64))) tagAB noFlags)

/-- `CLZ`, `CTZ`, `POPC` and `MOV`; `CLZ` and `CTZ` of 0 give 64. `SEXT` and `ZEXT` extend the low N bits of A, N from 1 to 63;
N = 0 is refused at decode with ILLINS. -/
def Obligations.ScalarCountsExtend : Prop :=

  ((∀ d a p n k x, opcodeOf (.clz d a p n k x) = some 0x16 ∧ opcodeOf (.ctz d a p n k x) = some 0x17 ∧
    opcodeOf (.popc d a p n k x) = some 0x18 ∧ opcodeOf (.mov d a p n k x) = some 0x1F) ∧
  ∀ (s : State) (d a : BitVec 6) (p n : Bool) (k : BitVec 3) (x : Bool),
    let count (h : Nat → Bool) : W64 := BitVec.ofNat 64 ((List.range 64).filter h).length
    ScalarOp s 1 (.clz d a p n k x) (fun g => count (fun j => decide (g.sa.v.toNat < 2 ^ j))) tagA noFlags ∧
    ScalarOp s 1 (.ctz d a p n k x) (fun g => count (fun j => decide (g.sa.v.toNat % 2 ^ (j + 1) = 0))) tagA noFlags ∧
    ScalarOp s 1 (.popc d a p n k x) (fun g => count (fun j => g.sa.v.getLsbD j)) tagA noFlags ∧
    ScalarOp s 1 (.mov d a p n k x) (fun g => g.sa.v) tagA noFlags) ∧
  ((∀ d a m p n k x, opcodeOf (.sext d a m p n k x) = some 0x1C ∧ opcodeOf (.zext d a m p n k x) = some 0x1D) ∧
  (∀ d a p n k x, (∃ y, decodeFault (.sext d a 0 p n k x) = some (.illins y)) ∧
    (∃ y, decodeFault (.zext d a 0 p n k x) = some (.illins y))) ∧
  ∀ (s : State) (d a m : BitVec 6) (p n : Bool) (k : BitVec 3) (x : Bool), m ≠ 0 →
    ScalarOp s 1 (.sext d a m p n k x) (fun g => BitVec.ofInt 64 (Int.bmod g.sa.v.toNat (2 ^ m.toNat))) tagA noFlags ∧
    ScalarOp s 1 (.zext d a m p n k x) (fun g => BitVec.ofNat 64 (g.sa.v.toNat % 2 ^ m.toNat)) tagA noFlags)

/-- `BFX`, `BFXU`, `BFI` on the field of LM1 + 1 bits from POS, `MOVI`, `LEA`, `CMP`. -/
def Obligations.ScalarFieldsAndImmediates : Prop :=
  (∀ (s : State) (d a : BitVec 6) (p : Bool) (v l : BitVec 6), v.toNat + l.toNat < 64 →
    let len : Nat := 2 ^ (l.toNat + 1)
    let field (z : W64) : Nat := z.toNat / 2 ^ v.toNat % len
    ScalarOp s 1 (.bfx d a p v l) (fun g => BitVec.ofInt 64 (Int.bmod (field g.sa.v) len)) tagA noFlags ∧
    ScalarOp s 1 (.bfxu d a p v l) (fun g => BitVec.ofNat 64 (field g.sa.v)) tagA noFlags ∧
    ScalarOp s 1 (.bfi d a p v l)
      (fun g => BitVec.ofNat 64 (g.sc.v.toNat - field g.sc.v * 2 ^ v.toNat + g.sa.v.toNat % len * 2 ^ v.toNat))
      (fun g => g.sa.t || g.sc.t) noFlags) ∧
  (∀ (s : State) (d a b : BitVec 6) (p q u : Bool) (im : BitVec 12) (c : BitVec 3),
    ScalarOp s 1 (.movi d im) (fun g => immValue g im) (fun _ => false) noFlags ∧
    ScalarOp s 1 (.lea d a p im) (fun g => g.sa.v + immValue g im) tagA noFlags ∧
    ScalarOp s 1 (.cmp d a b p q u c)
      (fun g => if condHolds c (asInt u g.sa.v) (asInt u g.sb.v) then 1 else 0) tagAB noFlags)

/-- `SEL` reads its destination as the condition and writes a when it is not zero, else b; only the condition and the
operand selected decide the tag. When the destination is a queue, the check pops its head as the condition, after A and
B, and the value selected is pushed. -/
def Obligations.ScalarSelect : Prop :=
  ∀ (s : State) (d a b : BitVec 6) (p q n : Bool) (k : BitVec 3) (x : Bool),
    opcodeOf (.sel d a b p q n k x) = some 0x1E ∧
    (opForm (.sel d a b p q n k x)).srcs = [⟨.s, a, p⟩, ⟨.s, b, q⟩, ⟨.s, d, false⟩] ∧
    (opForm (.sel d a b p q n k x)).dests = [(.s, d)] ∧
    ScalarOp s 1 (.sel d a b p q n k x) (fun g => if g.sc.v ≠ 0 then g.sa.v else g.sb.v)
      (fun g => g.sc.t || (if g.sc.v ≠ 0 then g.sa.t else g.sb.t)) noFlags

/-- Lane-wise forms of two sources on INT32 lanes: `VADD`, `VSUB`, `VMUL`, `VMULH`, `VMIN`, `VMAX`, `VAND`, `VOR`,
`VXOR`, `VSHL`, `VSHR`, `VSAR`. -/
def Obligations.VectorTwoSource : Prop :=
  ∀ (s : State) (d a b : BitVec 6) (p q n : Bool) (k : BitVec 3) (x : Bool),
    let op (lat : Nat) (i : Instr) (h : W32 → W32 → W32) : Prop := LaneOp s lat i noThird (lanes2 (fun a b => (h a b, 0)))
    op 2 (.vadd d a b p q n k x) (fun a b => BitVec.ofNat 32 (a.toNat + b.toNat)) ∧
    op 2 (.vsub d a b p q n k x) (fun a b => BitVec.ofInt 32 (a.toInt - b.toInt)) ∧
    op 4 (.vmul d a b p q n k x) (fun a b => BitVec.ofNat 32 (a.toNat * b.toNat)) ∧
    op 4 (.vmulh d a b p q n k x) (fun a b => (BitVec.ofInt 64 (a.toInt * b.toInt)).extractLsb' 32 32) ∧
    op 2 (.vmin d a b p q n k x) (fun a b => BitVec.ofInt 32 (Min.min a.toInt b.toInt)) ∧
    op 2 (.vmax d a b p q n k x) (fun a b => BitVec.ofInt 32 (Max.max a.toInt b.toInt)) ∧
    op 2 (.vand d a b p q n k x) (fun a b => a &&& b) ∧
    op 2 (.vor d a b p q n k x) (fun a b => a ||| b) ∧
    op 2 (.vxor d a b p q n k x) (fun a b => a ^^^ b) ∧
    op 2 (.vshl d a b p q n k x) (fun a b => if b.toNat < 32 then BitVec.ofNat 32 (a.toNat * 2 ^ b.toNat) else 0) ∧
    op 2 (.vshr d a b p q n k x) (fun a b => if b.toNat < 32 then BitVec.ofNat 32 (a.toNat / 2 ^ b.toNat) else 0) ∧
    op 2 (.vsar d a b p q n k x) (fun a b => if b.toNat < 32 then BitVec.ofInt 32 (a.toInt / 2 ^ b.toNat)
      else if a.getLsbD 31 then 0xFFFFFFFF#32 else 0)

/-- Lane-wise forms of one source and the saturating and accumulating forms: `VABS`, `VNEG`, `VPOPC`, `VSHRR`, `VSAT`,
`VMAC`, `VMAC2`, `VDOT4`, `VSEL`. SA is set where a result was clamped, by one clamp of the exact value. -/
def Obligations.VectorOneAndThreeSource : Prop :=
  ∀ (s : State) (d a b : BitVec 6) (p q n w u : Bool) (v : BitVec 5) (k m : BitVec 3) (x : Bool),
    let half (z : W32) (h : Nat) : Int := (z.extractLsb' (16 * h) 16).toInt
    let byte (z : W32) (h : Nat) : Int := (z.extractLsb' (8 * h) 8).toInt
    let clampTo (lo hi y : Int) : W32 × Nat :=
      if y < lo then (BitVec.ofInt 32 lo, 32) else if hi < y then (BitVec.ofInt 32 hi, 32) else (BitVec.ofInt 32 y, 0)
    LaneOp s 2 (.vabs d a p n k x) noThird (lanes1 (fun z => clamp32 |z.toInt|)) ∧
    LaneOp s 2 (.vneg d a p n k x) noThird (lanes1 (fun z => clamp32 (-z.toInt))) ∧
    LaneOp s 2 (.vpopc d a p n k x) noThird (lanes1 (fun z =>
      (BitVec.ofNat 32 ((List.range 32).filter (fun j => z.getLsbD j)).length, 0))) ∧
    LaneOp s 2 (.vshrr d a w v p n k x) noThird (lanes1 (fun z =>
      let r : Int := (z.toInt + (if v = 0 then 0 else 2 ^ (v.toNat - 1))) / 2 ^ v.toNat
      if w then clampTo (-2 ^ 15) (2 ^ 15 - 1) r else clampTo (-2 ^ 31) (2 ^ 31 - 1) r)) ∧
    LaneOp s 2 (.vsat d a u v p n k x) noThird (lanes1 (fun z =>
      if u then clampTo 0 (2 ^ (v.toNat + 1) - 1) z.toInt else clampTo (-2 ^ v.toNat) (2 ^ v.toNat - 1) z.toInt)) ∧
    LaneOp s 4 (.vmac d a b p q n k x) Pass.vc (lanes3 (fun a b c =>
      (BitVec.ofNat 32 (a.toNat * b.toNat + c.toNat), 0))) ∧
    LaneOp s 4 (.vmac2 d a m w p n k x) Pass.vc (fun g j =>
      let f := if w then 0 else j
      let r := clamp32 (half (lane g.va.v j) 0 * half (lane g.vb.v f) 0 + half (lane g.va.v j) 1 * half (lane g.vb.v f) 1 +
        (lane g.vc.v j).toInt)
      ⟨r.1, g.va.tag j || g.vb.tag f || g.vc.tag j, r.2⟩) ∧
    LaneOp s 4 (.vdot4 d a b p q n k x) Pass.vc (lanes3 (fun a b c =>
      clamp32 (byte a 0 * byte b 0 + byte a 1 * byte b 1 + byte a 2 * byte b 2 + byte a 3 * byte b 3 + c.toInt))) ∧
    LaneOp s 2 (.vsel d a b p q n k x) Pass.vc (fun g j =>
      if lane g.vc.v j ≠ 0 then ⟨lane g.va.v j, g.vc.tag j || g.va.tag j, 0⟩
      else ⟨lane g.vb.v j, g.vc.tag j || g.vb.tag j, 0⟩)

/-- `VPERM` gathers lanes: 0 where bit 31 of the index is set, else the lane that its low six bits name; the tag is that of the
index and of the lane selected. `VBCAST` writes a[31:0] into every active lane; a stream code in A is refused at decode with
ILLINS OPERAND. -/
def Obligations.VectorPermuteBroadcast : Prop :=

  (∀ (s : State) (d a b : BitVec 6) (p q n : Bool) (k : BitVec 3) (x : Bool),
    opcodeOf (.vperm d a b p q n k x) = some 0x53 ∧
    LaneOp s 3 (.vperm d a b p q n k x) noThird (fun g j =>
      let y := lane g.vb.v j
      if y.getLsbD 31 then ⟨0, g.vb.tag j, 0⟩
      else ⟨lane g.va.v (y.extractLsb' 0 6).toNat, g.vb.tag j || g.va.tag (y.extractLsb' 0 6).toNat, 0⟩)) ∧
  (∀ (s : State) (d a : BitVec 6) (p n : Bool) (k : BitVec 3) (x : Bool),
    opcodeOf (.vbcast d a p n k x) = some 0x50 ∧
    (32 ≤ a.toNat → a.toNat < 48 → (d.toNat < 32 ∨ d = 48) →
      decodeFault (.vbcast d a p n k x) = some (.illins 2)) ∧
    LaneOp s 2 (.vbcast d a p n k x) noThird (fun g _ => ⟨g.sa.v.setWidth 32, g.sa.t, 0⟩))

/-- `VINS`, `VEXT`, `VUNPK`, `VCOMPR`, `VEXPD`: which element each lane receives, and its tag. `VPACK` narrows the lanes of A into
elements 64H to 64H + 63 of the third source, in the lanes its predicate enables; `VSLIDE` moves every element one place and
fills the free one. -/
def Obligations.VectorElements : Prop :=

  (∀ (s : State) (d a b : BitVec 6) (p q n w u : Bool) (l : BitVec 6) (h : BitVec 2) (k : BitVec 3) (x : Bool),
    LaneOp s 3 (.vins d a p l) noThird (fun g j =>
      if j = l.toNat then ⟨g.sa.v.setWidth 32, g.sa.t, 0⟩ else ⟨lane g.vc.v j, g.vc.tag j, 0⟩) ∧
    ScalarOp s 3 (.vext d a p u l)
      (fun g => if u then (lane g.va.v l.toNat).zeroExtend 64 else (lane g.va.v l.toNat).signExtend 64)
      (fun g => g.va.tag l.toNat) noFlags ∧
    LaneOp s 3 (.vunpk d a w u h p n k x) noThird (fun g j =>
      let b := if w then 8 else 16
      let e := 64 * h.toNat + j
      let y := g.va.v.toNat / 2 ^ (b * e) % 2 ^ b
      ⟨if u then BitVec.ofNat 32 y else BitVec.ofInt 32 (Int.bmod y (2 ^ b)), g.va.tag (b * e / 32), 0⟩) ∧
    LaneOp s 3 (.vcompr d a b p q n k x) noThird (fun g j =>
      let m := (List.range 64).filter (fun y => decide (lane g.vb.v y ≠ 0))
      match m[j]? with
      | some y => ⟨lane g.va.v y, g.va.tag y || (List.range (y + 1)).any (fun z => g.vb.tag z), 0⟩
      | none => ⟨0, (List.range 64).any (fun z => g.vb.tag z), 0⟩) ∧
    LaneOp s 3 (.vexpd d a b p q n k x) noThird (fun g j =>
      if lane g.vb.v j ≠ 0 then
        let c := ((List.range j).filter (fun y => decide (lane g.vb.v y ≠ 0))).length
        ⟨lane g.va.v c, g.va.tag c || (List.range (j + 1)).any (fun z => g.vb.tag z), 0⟩
      else ⟨0, g.vb.tag j, 0⟩)) ∧
  (∀ (s : State) (g : Pass) (d a f : BitVec 6) (p q n w t u : Bool) (h e : BitVec 2) (k : BitVec 3) (x : Bool),
    (Passes s 1 (.vpack d a w t u h p n k x) g → ∃ o y, IssuesB s 3 (.vpack d a w t u h p n k x) g o ∧ o.vals = [.v y] ∧
      let b := if w then 8 else 16
      ∀ m < 2048 / b, elemN y.v b m =
        if g.act.getLsbD (b * m / 32) ∧ 64 * h.toNat ≤ m ∧ m < 64 * h.toNat + 64 then
          let z := lane g.va.v (m - 64 * h.toNat)
          if t = false then z.toNat % 2 ^ b
          else if u then (if z.toInt < 0 then 0 else if 2 ^ b ≤ z.toInt then 2 ^ b - 1 else z.toNat)
          else (BitVec.ofInt b (Max.max (-2 ^ (b - 1)) (Min.min (2 ^ (b - 1) - 1) z.toInt))).toNat
        else elemN g.vc.v b m) ∧
    (e ≠ 3 → Passes s 1 (.vslide d a f p q t u e) g → ∃ o y, IssuesB s 3 (.vslide d a f p q t u e) g o ∧ o.vals = [.v y] ∧
      let b := 32 / 2 ^ e.toNat
      let last := 2048 / b - 1
      let fill (m : Nat) : Nat := if t then elemN g.vb.v b m else g.sb.v.toNat % 2 ^ b
      ∀ m ≤ last, elemN y.v b m =
        if u then (if m = last then fill 0 else elemN g.va.v b (m + 1))
        else (if m = 0 then fill last else elemN g.va.v b (m - 1))))

/-- `VCMP` writes the bits of active lanes by its condition; `VRED` and `VSCAN` complete with the tree and the fold of R55
and R57, and the wrapping `VRED.ADD` of INT32 lanes is the sum of the active lanes modulo 2^32, sign-extended.
(Any tagged bit of its predicate tags VRED's result: the model's choice, log entry 78.) -/
def Obligations.VectorCompareReduce : Prop :=
  ∀ (s : State) (y c : BitVec 3) (d a b : BitVec 6) (p q u t v n : Bool) (o k : BitVec 3) (x : Bool),
    PredOp s 2 (.vcmp y c a b p q u k x) (fun g j =>
      (condHolds c (asInt u (lane g.va.v j)) (asInt u (lane g.vb.v j)), g.va.tag j || g.vb.tag j, 0)) ∧
    GivesB s 8 (.vred d a o t v p n k x) (redOut o.toNat t v) ∧
    (∀ g, Passes s 1 (.vred d a 0 false false p n k x) g →
      ∃ w, IssuesB s 8 (.vred d a 0 false false p n k x) g w ∧ w.vals =
        [.s ⟨BitVec.ofInt 64 (Int.bmod
          (((List.range 64).map (fun j => if g.act.getLsbD j then (lane g.va.v j).toNat else 0)).sum : Nat) (2 ^ 32)),
          (g.va.t &&& g.act ||| g.pred.t) != 0⟩]) ∧
    GivesB s 8 (.vscan d a o t p n k x) (fun i =>
      let l := scanGo o.toNat t i.va i.act (List.range 64) none false
      vOut i (vvOfEls 32 l) (flagsOfList (l.map El.f)) (some i.vc))

/-! ### Slot B: floating point, conversions, codebooks, flags (R203 to R223) -/

/-- Scalar and vector FP32 forms complete with the exact result rounded once to nearest even, with its flags: `FADD`, `FSUB`,
`FMUL`, `FMA`, `FDIV`, `FSQRT`, `FMIN`, `FMAX`, `FCMP`; `VFADD`, `VFSUB`, `VFMUL`, `VFMA`, `VFNMA`, `VFMIN`, `VFMAX`,
`VFDIV`, `VFSQRT`, `VFRCP`, `VFRSQ`, `VFEXP2`, `VFLOG2`, `VSCALE`, `VFDOT2`, `VFCLASS`, `VFCMP`.
(`VFEXP2` and `VFLOG2` as the exact result rounded once is the model's reading of R203 and R204: log entry 7.) -/
def Obligations.FloatForms : Prop :=

  (∀ (s : State) (d a b : BitVec 6) (p q n : Bool) (c k : BitVec 3) (x : Bool),
    let f2 (lat : Nat) (i : Instr) (h : XVal → XVal → XRes) : Prop :=
      ScalarOp s lat i (fun g => (toF32 (h (fl g.sa.f) (fl g.sb.f))).1.zeroExtend 64) tagAB
        (fun g => (toF32 (h (fl g.sa.f) (fl g.sb.f))).2)
    f2 4 (.fadd d a b p q n k x) (fun u v => xAdd .rne u v) ∧
    f2 4 (.fsub d a b p q n k x) (fun u v => xAdd .rne u v.negate) ∧
    f2 4 (.fmul d a b p q n k x) xMulR ∧
    f2 16 (.fdiv d a b p q n k x) xDiv ∧
    ScalarOp s 4 (.fma d a b p q n k x)
      (fun g => (toF32 (xDot .rne [(fl g.sa.f, fl g.sb.f)] [fl g.sc.f])).1.zeroExtend 64) tagABC
      (fun g => (toF32 (xDot .rne [(fl g.sa.f, fl g.sb.f)] [fl g.sc.f])).2) ∧
    ScalarOp s 16 (.fsqrt d a p n k x) (fun g => (toF32 (xSqrt (fl g.sa.f))).1.zeroExtend 64) tagA
      (fun g => (toF32 (xSqrt (fl g.sa.f))).2) ∧
    ScalarOp s 2 (.fmin d a b p q n k x) (fun g => (fMin g.sa.f g.sb.f).1.zeroExtend 64) tagAB
      (fun g => (fMin g.sa.f g.sb.f).2) ∧
    ScalarOp s 2 (.fmax d a b p q n k x) (fun g => (fMax g.sa.f g.sb.f).1.zeroExtend 64) tagAB
      (fun g => (fMax g.sa.f g.sb.f).2) ∧
    ScalarOp s 2 (.fcmp d a b p q n c) (fun g => if (fCond c.toNat g.sa.f.toNat g.sb.f.toNat).1 then 1 else 0) tagAB
      (fun g => if (fCond c.toNat g.sa.f.toNat g.sb.f.toNat).2 then 16 else 0)) ∧
  (∀ (s : State) (d a b : BitVec 6) (y c : BitVec 3) (p q n : Bool) (k : BitVec 3) (x : Bool),
    let one (lat : Nat) (i : Instr) (h : XVal → XRes) : Prop := LaneOp s lat i noThird (lanes1 (fun z => toF32 (h (fl z))))
    let two (lat : Nat) (i : Instr) (h : XVal → XVal → XRes) : Prop :=
      LaneOp s lat i noThird (lanes2 (fun u v => toF32 (h (fl u) (fl v))))
    two 4 (.vfadd d a b p q n k x) (fun u v => xAdd .rne u v) ∧
    two 4 (.vfsub d a b p q n k x) (fun u v => xAdd .rne u v.negate) ∧
    two 4 (.vfmul d a b p q n k x) xMulR ∧
    two 16 (.vfdiv d a b p q n k x) xDiv ∧
    one 16 (.vfsqrt d a p n k x) xSqrt ∧
    one 16 (.vfrcp d a p n k x) xRcp ∧
    one 16 (.vfrsq d a p n k x) xRsq ∧
    one 12 (.vfexp2 d a p n k x) xExp2 ∧
    one 12 (.vflog2 d a p n k x) xLog2 ∧
    LaneOp s 4 (.vfma d a b p q n k x) Pass.vc (lanes3 (fun u v w => toF32 (xDot .rne [(fl u, fl v)] [fl w]))) ∧
    LaneOp s 4 (.vfnma d a b p q n k x) Pass.vc (lanes3 (fun u v w => toF32 (xDot .rne [((fl u).negate, fl v)] [fl w]))) ∧
    LaneOp s 2 (.vfmin d a b p q n k x) noThird (lanes2 fMin) ∧
    LaneOp s 2 (.vfmax d a b p q n k x) noThird (lanes2 fMax) ∧
    LaneOp s 4 (.vscale d a b p q n k x) noThird (lanes2 (fun u v => toF32 (xScale (fl u) v.toInt))) ∧
    LaneOp s 5 (.vfdot2 d a b p q n k x) Pass.vc (lanes3 (fun u v w =>
      toF32 (xDot .rne [(bf16 (u.extractLsb' 0 16).toNat, bf16 (v.extractLsb' 0 16).toNat),
        (bf16 (u.extractLsb' 16 16).toNat, bf16 (v.extractLsb' 16 16).toNat)] [fl w]))) ∧
    LaneOp s 2 (.vfclass d a p n k x) noThird (lanes1 (fun z => (BitVec.ofNat 32 (fClass z.toNat), 0))) ∧
    PredOp s 2 (.vfcmp y c a b p q n k x) (fun g j =>
      let r := fCond c.toNat (lane g.va.v j).toNat (lane g.vb.v j).toNat
      (r.1, g.va.tag j || g.vb.tag j, if r.2 then 16 else 0)))

/-- `VFABS` clears bit 31 of each active lane and `VFNEG` inverts it, whatever the other bits hold; no flag but PS. -/
def Obligations.FloatSignForms : Prop :=
  ∀ (s : State) (d a : BitVec 6) (p n : Bool) (k : BitVec 3) (x : Bool),
    opcodeOf (.vfabs d a p n k x) = some 0x67 ∧ opcodeOf (.vfneg d a p n k x) = some 0x68 ∧
    LaneOp s 2 (.vfabs d a p n k x) noThird (lanes1 (fun z => (0#1 ++ z.extractLsb' 0 31, 0))) ∧
    LaneOp s 2 (.vfneg d a p n k x) noThird (lanes1 (fun z => ((z.extractLsb' 31 1 ^^^ 1#1) ++ z.extractLsb' 0 31, 0)))

/-- FP32 addition and multiplication do not depend on the order of their operands, flags included; every FP32 pattern that
is not a NaN, taken as an exact value and rounded to FP32, is itself, with no flag. -/
def Obligations.FloatLaws : Prop :=
  (∀ a b : W32, fAdd a b = fAdd b a ∧ fMul a b = fMul b a) ∧
  (∀ a : W32, (fl a).isNan = false → (FFmt.fp32.encode .rne false 0 (fl a)).pat = a.toNat ∧
    (FFmt.fp32.encode .rne false 0 (fl a)).flags = 0)

/-- Conversions and quantisers complete, with the values, tags and flags that the model's conversion, reduction and quantiser
functions give for their operands: `FCVT`, `VCVT`, `VCVTI`, `VCVTF`, `VFRED`, `VQ4N.S`, `VQ4N`, `VMXQ`. Under stochastic
rounding SRNG advances. (That forming the scale of `VQ4N` raises no flag is the model's choice, log entry 64; so is the tag of
`VFRED` under a tagged predicate bit, log entry 78.) -/
def Obligations.ConvertQuantise : Prop :=
  ∀ (s : State) (d a b e : BitVec 6) (p q n t u : Bool) (c m : BitVec 4) (r h k : BitVec 3) (o f : BitVec 2) (x : Bool),
    GivesB s 3 (.vcvt d a p c m r u) (cvtOut c.toNat m.toNat r.toNat u) ∧
    GivesB s 3 (.vcvti d a r t u p n k x) (fun i => cvtLanes i (r.toNat == 4) (fun w z =>
      xToInt 32 u (.ofField r.toNat) t w (fl z))) ∧
    GivesB s 3 (.vcvtf d a r u p n k x) (fun i => cvtLanes i (r.toNat == 4) (fun w z =>
      FFmt.fp32.encode (.ofField r.toNat) false w (.ofInt (asInt u z)))) ∧
    GivesB s 12 (.vfred d a o r t p n k x) (fredOut o.toNat r.toNat t) ∧
    GivesB s 6 (.vmxq d a e p n f h) (mxqOut f.toNat h.toNat) ∧
    ScalarOp s 6 (.vq4nS d a b p q n)
      (fun g => BitVec.ofNat 64 (q4nScaleOf ((List.range 64).map (fun j => f32 (lane g.va.v j).toNat)) g.sb.f.toNat).1)
      (fun g => g.va.t != 0 || g.sb.t)
      (fun g => (q4nScaleOf ((List.range 64).map (fun j => f32 (lane g.va.v j).toNat)) g.sb.f.toNat).2) ∧
    GivesB s 6 (.vq4n d a b p q n h) (fun i => replaceCodes i 4 h.toNat (fun j =>
      let w := q4nQuant (lane i.va.v j).toNat (u8Scale (i.sb.v.extractLsb' 32 8).toNat i.sb.f.toNat)
      ⟨w.pat, i.va.t != 0 || i.sb.t, w.flags⟩)) ∧
    (∀ g, Passes s 1 (.fcvt d a p c m r u) g →
      ∃ w, IssuesB s 3 (.fcvt d a p c m r u) g w ∧
        let sr := r.toNat == 4 && convertDraws (EFmt.ofCode c.toNat) (EFmt.ofCode m.toNat)
        let g1 := if sr then srngNext g.st.ctl.srng else g.st.ctl.srng
        let y := convertElem (EFmt.ofCode c.toNat) (EFmt.ofCode m.toNat) (.ofField r.toNat) u (srngDraw g1)
          (g.sa.v.toNat % 2 ^ (EFmt.ofCode c.toNat).bits)
        w.rng = (if sr then some g1 else none) ∧
        w.vals = [.s ⟨(match (EFmt.ofCode m.toNat).int? with
          | some b => BitVec.ofInt 64 (sIntN b y.pat)
          | none => BitVec.ofNat 64 y.pat), g.sa.t⟩])

/-- Readers of a codebook bank, `VCBX` and `VQNT`: when no earlier writer of the bank by the same strand is open, they
issue with the bank's current copy, which they hold until they write back; while one is open they stall.
`VFLGR` delivers lane i's flags in bits [6:0] of lane i, and `VFLGC` clears the flags its mask names in the lanes its
predicate enables and no others, once every earlier instruction of the strand that may set flags has done so; until then
both stall. -/
def Obligations.BanksAndFlags : Prop :=

  (∀ (s : State) (g : Pass) (d a : BitVec 6) (b t : BitVec 3) (w p n : Bool) (h k : BitVec 3) (x : Bool),
    let bank := (s.core (coreOf s.cur)).bank b.toNat
    let cap := (b.toNat, bank.curIdx)
    (Passes s 1 (.vcbx d a b t p n k x) g →
      (s.me.bankPending b.toNat = false →
        IssuesB s 3 (.vcbx d a b t p n k x) g { cbxOut t.toNat bank.current g.bin with caps := [cap] }) ∧
      (s.me.bankPending b.toNat = true → exec (.vcbx d a b t p n k x) s = .next (s.stall s.cur))) ∧
    (Passes s 1 (.vqnt d a b w p n h) g →
      (s.me.bankPending b.toNat = false →
        IssuesB s 6 (.vqnt d a b w p n h) g { qntOut w h.toNat bank.current g.bin with caps := [cap] }) ∧
      (s.me.bankPending b.toNat = true → exec (.vqnt d a b w p n h) s = .next (s.stall s.cur)))) ∧
  (∀ (s : State) (g : Pass) (d : BitVec 6) (m : BitVec 7) (k : BitVec 3) (x : Bool),
    let ready := s.me.flagsSettled s.me.front.ctx.seq 1
    (Passes s 1 (.vflgr d) g →
      (ready = true → ∃ o y, IssuesB s 1 (.vflgr d) g o ∧ o.vals = [.v y] ∧ y.t = 0 ∧
        ∀ j < 64, lane y.v j = (laneFlags g.st.ctl.flags j).zeroExtend 32) ∧
      (ready = false → exec (.vflgr d) s = .next (s.stall s.cur))) ∧
    (Passes s 1 (.vflgc m k x) g →
      (ready = true → ∃ t, exec (.vflgc m k x) s = .next t ∧ t.mem = s.mem ∧
        (∀ j < 64, laneFlags (t.strand s.cur).ctl.flags j =
          if g.act.getLsbD j then laneFlags (s.strand s.cur).ctl.flags j &&& ~~~m
          else laneFlags (s.strand s.cur).ctl.flags j)) ∧
      (ready = false → exec (.vflgc m k x) s = .next (s.stall s.cur))))

/-! ### Slot A (R251 to R293) -/

/-- `LD.B`, `LD.BU`, `LD.H`, `LD.HU`, `LD.W`, `LD.WU`, `LD.D`, `LDA`, `VLD`, `VLDN`, `VLDS` and `VLDG` issue, and stay open with the
reads their checks planned, wherever the check of R131 and their own checks let them. So do `AMO`, `CAS`, `STA`, `WAITV`,
`MCST`, `CBLD`, `CBWR`, `CBINV`, `TFLUSH`, `TINV`, `SCHAIN`, `SPOS`, `SUNBIND`, `SPILL`, `FILL` and `UNPARK`; a
seventeenth `MCST` and an `SCHAIN` whose mask predicate is still to be written stall. `PARK` stalls while the tile cache does
not grant the park area; granted, it writes its value into its entry at once, or, while an earlier slot could still undo it
or an earlier `PARK` is held, stays open with the value and leaves the area as it is.
`SBIND` stalls while an earlier bundle has slots to issue or an earlier access has not performed; then it opens and, its
descriptor in memory, reads it at once: a malformed one leaves status 1 behind; a row or memory pattern that needs no tensor is
bound with position 0 and status 0, or refused with status 2 when it is 2^48 vectors or longer; the status is kept for its write-back.
(That the slot of `SBIND` waits so, that a slipped `PARK` is held, and that `UNPARK` takes the value of one that has not written, is
the model's choice: log entries 79 and 19.) -/
def Obligations.SlotAOpens : Prop :=
  (∀ (s : State) (i : Instr) (g : Pass) (p : Plan), isLoadOp i = true → PassesA s i g p →
    ∃ t, exec i s = .next t ∧ Opened s i g p t) ∧
  (∀ (s : State) (i : Instr) (g : Pass) (p : Plan), staysOpen i = true → PassesA s i g p →
    (heldA p.st i g = false → ∃ t, exec i s = .next t ∧ Opened s i g p t) ∧
    (heldA p.st i g = true → exec i s = .next (p.st.stall s.cur))) ∧
  (∀ (s s1 : State) (d : BitVec 6) (k : BitVec 9) (g : Pass) (ok : Bool), Passes s 0 (.park d k) g →
    g.st.openFull (.park d k) = false → s.grantPark (coreOf s.cur) = (s1, ok) →
    let c := coreOf s.cur
    let waits := g.st.slipped g.st.front.ctx.seq || g.st.parks
    (ok = false → exec (.park d k) s = .next (s1.stall s.cur)) ∧
    (ok = true → waits = true → ∃ t, exec (.park d k) s = .next t ∧ t.mem = s1.mem ∧ (t.core c).park = (s1.core c).park ∧
      ∃ e ∈ (t.strand s.cur).open_, e.id = s1.opId ∧ e.instr = .park d k ∧ e.seq = g.st.front.ctx.seq ∧ e.z = g.c ∧
        e.done = false ∧ e.resolved = true) ∧
    (ok = true → waits = false → (∀ x ∈ g.st.open_, x.id ≠ s1.opId) → ∃ t, exec (.park d k) s = .next t ∧
      t.mem = s1.mem ∧ (t.strand s.cur).open_ = g.st.open_ ∧ (t.strand s.cur).regs = g.st.regs ∧
      ∀ j, mget? (t.core c).park j = if j = k.toNat then some g.vc else mget? (s1.core c).park j)) ∧
  (∀ (s : State) (d a : BitVec 6) (q : Bool) (r : BitVec 4) (g : Pass) (p : Plan), PassesA s (.sbind d a q r) g p →
    let i : Instr := .sbind d a q r
    let n := s.cur
    let waits := g.st.slipped g.st.front.ctx.seq || !g.st.performedBefore g.st.front.ctx.seq 0
    let t1 := (p.st.openOp n 0 i g.st g.ain.cap false p.rds).modEntry n p.st.opId (fun e => { e with aux := p.st.modesNow n })
    (waits = true → exec i s = .next (p.st.stall n)) ∧
    (waits = false → memOnly p.rds = false → exec i s = .next t1) ∧
    (waits = false → memOnly p.rds = true → ∀ s2 e e1 bs, t1.entry? n p.st.opId = some e → e.instr = i → e.step = 0 → e.seq = g.st.front.ctx.seq →
      e.slot = 0 → e.clk = t1.clk → (t1.strand n).bound ≠ none → (t1.strand n).performedBefore e.seq 0 = true →
      t1.readStep n e false = (s2, e1, true) → s2.clk = t1.clk → (s2.entry? n e.id).isSome = true →
      bytesAt e1.rds (sbindEa e1.ain) 64 = (bs, false) →
      let y := Stream.bindTo ((List.range 8).map (word64 bs)) 1
      let status (u : State) (v : W64) : Prop := exec i s = .next (u.modEntry n e.id (fun x => { x with
        resolved := true, step := 1, aux := v }))
      (y.malformed = true → status s2 1) ∧
      (y.malformed = false → (y.isTile = false ∨ y.isRaw = true) → (y.isTile = true → y.cnt0 ≤ 64) →
        (2 ^ 48 ≤ y.total → status s2 2) ∧
        (y.total < 2 ^ 48 → status (s2.setStream n r.toNat (some { y with parts := 1, length := y.total })) 0))))

/-- `ST.B`, `ST.H`, `ST.W`, `ST.D`, `VST`, `VSTN`, `VSTS`, `VSTG` and `CBST` issue: the bytes they store, each at the
address computed from the operands, enter the write queue as single-copy atomic pieces behind what is queued; memory is
not yet changed. A scalar form's bytes are the low bytes of D, little-endian, from A plus the immediate on; a window whose
allowance is used up stalls the store. -/
def Obligations.StoresIssue : Prop :=
  ∀ (s s0 : State) (i : Instr) (g : Pass) (p : Plan), isStoreOp i = true → PassesA s i g p →
    let cbst : Bool := match i with
      | .cbst .. => true
      | _ => false
    let pieces := match i with
      | .cbst b .. => cbstPieces i g.ain ((p.st.core (coreOf s.cur)).bank b.toNat).current p.rds
      | _ => piecesOf p.rds (writeBytes i g.ain p.rds).1
    ((p.st.askAll (.op s.cur g.st.front.ctx.seq) (windowsOf (pieces.map Piece.tgt)) = (s0, true)) →
      ∃ t q, exec i s = .next t ∧ (t.strand s.cur).wq = g.st.wq ++ [q] ∧ q.instr = i ∧ q.pieces = pieces ∧
        q.pc = g.st.front.ctx.pc ∧ q.seq = g.st.front.ctx.seq ∧ q.slot = 0 ∧ q.va = (if cbst then cbEa i g.ain else g.sa.v) ∧
        t.mem = s.mem ∧ (t.strand s.cur).regs = g.st.regs ∧ (t.strand s.cur).ctl = g.st.ctl ∧
        (t.strand s.cur).front.pc = g.st.front.pc ∧ (t.strand s.cur).open_ = g.st.open_) ∧
    ((p.st.askAll (.op s.cur g.st.front.ctx.seq) (windowsOf (pieces.map Piece.tgt)) = (s0, false)) →
      exec i s = .next (s0.stall s.cur)) ∧
    (∀ d a q im, (i = .stB d a q im ∨ i = .stH d a q im ∨ i = .stW d a q im ∨ i = .stD d a q im) →
      (writeBytes i g.ain p.rds).1 = (List.range (stSize i)).map (fun k =>
        (g.sa.v + immValue g im + BitVec.ofNat 64 k, g.sc.v.extractLsb' (8 * k) 8)))

/-- `LOAD_RETURN` of a scalar load of memory, four clocks or more after its issue, at its place in program order: D is
written with the bytes that the load reads from memory, little-endian, sign- or zero-extended as the form says, tagged
when the line is marked, and then PS of lane 0 is set; the operation ends; every byte of memory and every mark reads as
before, and so does every other register of the strand and every other strand. -/
def Obligations.ScalarLoadReturns : Prop :=
  ∀ (s s1 : State) (n pa d : Nat) (e : Entry) (bs : List Byte) (m : Bool) (w0 w1 : W64),
    let sz := (ldShape e.instr).1
    (∃ dd a q im, e.instr = .ldB dd a q im ∨ e.instr = .ldBu dd a q im ∨ e.instr = .ldH dd a q im ∨
      e.instr = .ldHu dd a q im ∨ e.instr = .ldW dd a q im ∨ e.instr = .ldWu dd a q im ∨ e.instr = .ldD dd a q im) →
    s.entry? n e.id = some e → e.slip = false → (s.strand n).blockedEntry e = false →
    (s.strand n).mayPerform e = true → e.clk + 4 ≤ s.clk → e.dests = [.s d] → 24 ≤ d → e.caps = [] →
    e.rds = [⟨immEa e.instr e.ain, .mem pa, sz, w0, w1, none, false⟩] → s.load n pa sz false = (s1, bs, m) →
    bs.length = sz →
    let v : W64 := if (ldShape e.instr).2 then BitVec.ofInt 64 (Int.bmod (leNat bs) (2 ^ (8 * sz)))
      else BitVec.ofNat 64 (leNat bs)
    ∃ t, exec (.loadReturn n e.id [] false) s = .next t ∧ (t.strand n).regs.sP d = ⟨v, m⟩ ∧
      t.entry? n e.id = none ∧ (∀ a, t.readBytes a 1 = s.readBytes a 1) ∧ (∀ l, t.marked l = s.marked l) ∧
      (∀ r, r ≠ d → (t.strand n).regs.sP r = (s.strand n).regs.sP r) ∧
      (t.strand n).regs.vp = (s.strand n).regs.vp ∧ (t.strand n).regs.kp = (s.strand n).regs.kp ∧
      (t.strand n).ctl.flags = (s.strand n).ctl.flags ||| ((DVal.s ⟨v, m⟩).ps ||| e.fl) ∧
      (t.strand n).front.pc = (s.strand n).front.pc ∧ (∀ k, k ≠ n → t.strand k = s.strand k)

/-- `WRITE_QUEUE_PERFORM`: the oldest queued write of a strand, when it goes to memory and nothing before it in the strand
is outstanding, stores its bytes, each at the physical address of its piece plus its offset, leaves the queue and ORs its
flags in; a byte at any other address reads as before, and of bytes stored twice the last one stands. While an earlier
bundle or operation is outstanding it waits.
(The write log of a restartable launch, which a launch's first write to a line also writes, is excluded.) -/
def Obligations.StorePerforms : Prop :=
  ∀ (s : State) (n : Nat) (q : QWrite) (rest : List QWrite), Memory.wf s.mem → (s.strand n).wq = q :: rest →
    let ready := !(s.strand n).slipped q.seq && !(s.strand n).open_.any (fun e => ordLt e.seq e.slot q.seq q.slot)
    let bytes : List (Nat × Byte) := q.pieces.flatMap (fun p => match p.tgt with
      | .mem pa => p.bytes.map (fun b => (pa + b.1, b.2))
      | .window _ _ _ => [])
    (ready = false → exec (.writeQueuePerform n) s = .next s) ∧
    (ready = true → q.peers = [] → (∀ p ∈ q.pieces, ∃ pa, p.tgt = .mem pa) →
      (∀ b l, (s.strand n).bound = some b → mget? s.launches b.lid = some l → l.restartable = false) →
      ∃ t, exec (.writeQueuePerform n) s = .next t ∧ (t.strand n).wq = rest ∧
        (t.strand n).ctl.flags = (s.strand n).ctl.flags ||| (q.fl ||| q.sfl) ∧
        (∀ a, t.readBytes a 1 = match bytes.reverse.find? (fun b => b.1 == a) with
          | some b => [b.2]
          | none => s.readBytes a 1) ∧
        (t.strand n).regs = (s.strand n).regs ∧ (t.strand n).front = (s.strand n).front ∧
        (∀ k, k ≠ n → t.strand k = s.strand k))

/-- An atomic of memory performs as one access: the old value, tagged when the line is marked, goes to D, and the word at
its address becomes the sum, AND, OR, XOR, signed or unsigned minimum or maximum, the operand, or (a 4-byte word, with its
flags) the FP32 sum; `CAS` writes its operand when the old value is the expected one, and nothing otherwise. With the use
code that needs no order the value returned is that of a valid lease copy of the strand's caches, if there is one. Every
other byte reads as before.
(That every atomic is taken at its place in program order, that the use code without order takes the leased copy where there
is one, and that u = 4 takes the newest value, is the model's choice, log entry 18; that `CAS` compares the bits of a tagged
expected value is its reading, log entry 39.) -/
def Obligations.AtomicPerforms : Prop :=
  ∀ (s : State) (n pa d o u : Nat) (e : Entry) (ea w0 w1 : W64),
    ((∃ dd a b oo uu, e.instr = .amo dd a b oo uu ∧ oo.toNat = o ∧ uu.toNat = u ∧ o < 10) ∨
      (∃ dd a b uu, e.instr = .cas dd a b uu ∧ uu.toNat = u ∧ o = 10)) →
    s.entry? n e.id = some e → e.slip = false → (s.strand n).blockedEntry e = false →
    (s.strand n).mayPerform e = true → e.clk + 4 ≤ s.clk → e.dests = [.s d] → 24 ≤ d → e.caps = [] →
    let w := if o = 9 then 4 else 8
    e.rds = [⟨ea, .mem pa, w, w0, w1, none, false⟩] →
    (∀ b l, (s.strand n).bound = some b → mget? s.launches b.lid = some l → l.restartable = false) →
    let old : W64 := BitVec.ofNat 64 (leNat (s.readBytes pa w))
    let b := e.ain.bv
    let sum := fAdd (old.setWidth 32) (b.setWidth 32)
    let new : Option W64 := match o with
      | 0 => some (BitVec.ofNat 64 (old.toNat + b.toNat))
      | 1 => some (old &&& b)
      | 2 => some (old ||| b)
      | 3 => some (old ^^^ b)
      | 4 => some (BitVec.ofInt 64 (Min.min old.toInt b.toInt))
      | 5 => some (BitVec.ofInt 64 (Max.max old.toInt b.toInt))
      | 6 => some (BitVec.ofNat 64 (Min.min old.toNat b.toNat))
      | 7 => some (BitVec.ofNat 64 (Max.max old.toNat b.toNat))
      | 8 => some b
      | 9 => some (sum.1.setWidth 64)
      | _ => if old = e.ain.zv.v then some b else none
    let got : W64 × Bool := (if u = 3 then s.norCopy n pa w else none).getD (old, s.marked (pa / 256))
    ∃ t, exec (.loadReturn n e.id [] false) s = .next t ∧
      (t.strand n).regs.sP d = ⟨got.1, got.2⟩ ∧ t.entry? n e.id = none ∧
      (t.strand n).ctl.flags = (s.strand n).ctl.flags |||
        (lane0Flags (withPs got.2 (if o = 9 then sum.2 else 0)) ||| e.fl) ∧
      (∀ a, t.readBytes a 1 = match new with
        | some v => if pa ≤ a ∧ a < pa + w then [v.extractLsb' (8 * (a - pa)) 8] else s.readBytes a 1
        | none => s.readBytes a 1)

/-- `LDT` and `STT` issue: they stay open with their operands while their tile request is served, parked or joined to a
fill; a full replay queue of the wing stalls them.
`PREFL` never traps on its address: a tagged address, one that does not translate and one outside module and host
memory issue with no effect beyond the pops; one that translates leaves every byte of memory as it reads and the strand as the
pops left it;
a translation that is awaited stalls it. -/
def Obligations.TilesIssue : Prop :=

  (∀ (s t1 : State) (i : Instr) (g : Pass) (p : Plan) (bd : Bound) (r : TileAns),
    ((∃ d a b c q raw ty, i = .ldt d a b c q raw ty) ∨ (∃ d a b c q raw ty, i = .stt d a b c q raw ty)) →
    PassesA s i g p → g.st.bound = some bd →
    let minv := match i with
      | .ldt .. => refMinv g.sb.v
      | _ => 0
    let t0 := (p.st.openOp s.cur 0 i g.st g.ain.cap false []).modEntry s.cur p.st.opId (fun e => { e with fl := flagsA i g })
    t0.tileReq (wingOf s.cur) bd (tagOf bd.asid (refTid g.sb.v) g.sa.v) minv (refHint g.sb.v) (.op s.cur p.st.opId)
      (p.st.pts s.cur) = (t1, r) →
    (r = .full → exec i s = .next (p.st.stall s.cur)) ∧
    (r ≠ .full → exec i s = .next t1 ∧ t1.strands = t0.strands)) ∧
  (∀ (s : State) (l : BitVec 2) (a : BitVec 6) (q : Bool) (im : BitVec 12) (g : Pass),
    let i : Instr := .prefl l a q im
    Passes s 0 i g → g.st.openFull i = false →
    (g.sa.t = true → exec i s = .next (s.setStrand s.cur g.st)) ∧
    (g.sa.t = false → ∀ t, s.xlate s.cur (g.sa.v + immValue g im) .load = (t, .miss) → exec i s = .next (t.stall s.cur)) ∧
    (g.sa.t = false → ∀ t, (∃ y z, s.xlate s.cur (g.sa.v + immValue g im) .load = (t, .fault y z)) →
      exec i s = .next (t.setStrand s.cur g.st)) ∧
    (g.sa.t = false → ∀ t pa y, s.xlate s.cur (g.sa.v + immValue g im) .load = (t, .ok pa y) →
      ∃ u, exec i s = .next u ∧ u.strand s.cur = g.st ∧ ∀ b, u.readBytes b 1 = s.readBytes b 1))

/-- `FENCE.O`, `FENCE.P`, `FENCE.H`, `FENCE.E` issue at slip zero and stay open and unresolved; while an earlier bundle has
slots to issue they stall.
`FENCE_RESOLVE` at the oldest fence's place in program order: `FENCE.O` completes; `FENCE.H` once every earlier posted write
is answered and none waits in the write queue; `FENCE.E` once every tile task of the strand has completed; `FENCE.P` once
every earlier posted write is answered and every earlier window request has returned, with PEER REFUSED at the refused
write's address when one was refused. An `STA` waits as `FENCE.P` does, reports as it does, makes its checks again, and
then queues its 8 bytes behind the strand's earlier writes and ends. A fence that must wait changes nothing. -/
def Obligations.Fences : Prop :=
  (∀ (s : State) (i : Instr), ((∃ v, i = .fenceO v) ∨ i = .fenceP ∨ i = .fenceH ∨ i = .fenceE) →
    (s.me.slipped s.ctxOf.seq = true → exec i s = .next (s.stall s.cur)) ∧
    (s.me.slipped s.ctxOf.seq = false → s.me.openFull i = false →
      ∃ t e, exec i s = .next t ∧ (t.strand s.cur).open_ = s.me.open_ ++ [e] ∧ e.instr = i ∧ e.resolved = false ∧
        e.seq = s.ctxOf.seq ∧ e.slot = 0 ∧ t.mem = s.mem ∧ (t.strand s.cur).regs = s.me.regs)) ∧
  (∀ (s : State) (n : Nat) (e : Entry), (s.strand n).oldestFence = some e →
    ((s.strand n).mayPerform e = false → exec (.fenceResolve n) s = .next s) ∧
    ((s.strand n).mayPerform e = true →
      ((∃ v, e.instr = .fenceO v) → exec (.fenceResolve n) s = .next (s.completeEntry n e [] 0)) ∧
      (e.instr = .fenceH → exec (.fenceResolve n) s = .next (
        if (s.strand n).postedSeen e then s.completeEntry n e [] 0 else s)) ∧
      (e.instr = .fenceE → s.tasksDone n = false → exec (.fenceResolve n) s = .next s) ∧
      (e.instr = .fenceE → s.tasksDone n = true → ∃ t, exec (.fenceResolve n) s = .next t ∧
        (t.strand n).open_ = (s.strand n).open_.filter (fun x => x.id != e.id) ∧ t.mem = s.mem) ∧
      (e.instr = .fenceP → (s.strand n).fencePReady e = false → exec (.fenceResolve n) s = .next s) ∧
      (e.instr = .fenceP → (s.strand n).fencePReady e = true → (s.strand n).refusedBefore e = none →
        exec (.fenceResolve n) s = .next ((s.clearPosted n e.id).completeEntry n e [] 0)) ∧
      (∀ q, (e.instr = .fenceP ∨ ((∃ d a p im, e.instr = .sta d a p im) ∧ e.rds ≠ [])) →
        (s.strand n).fencePReady e = true → (s.strand n).refusedBefore e = some q →
        exec (.fenceResolve n) s =
          .next ((s.clearPosted n e.id).trapEntry n e { cause := .peer, sub := 3, eaddr := q.va })) ∧
      (∀ d a p im, e.instr = .sta d a p im →
        let x := e.ain
        let c := planSta e.instr n 0 x (s.clearPosted n e.id)
        let ea : W64 := (x.av + (match x.ext with
          | none => im.signExtend 64
          | some h => (h ++ im : BitVec 32).signExtend 64)) &&& ~~~7#64
        let pieces := piecesOf c.rds ((List.range 8).map (fun k => (ea + BitVec.ofNat 64 k, x.zv.v.extractLsb' (8 * k) 8)))
        ((e.rds = [] ∨ (s.strand n).fencePReady e = false) → exec (.fenceResolve n) s = .next s) ∧
        (e.rds ≠ [] → (s.strand n).fencePReady e = true → (s.strand n).refusedBefore e = none →
          (∀ t, c.verdict = some t → exec (.fenceResolve n) s = .next (c.st.trapEntry n e t)) ∧
          (c.verdict = none → c.miss = true → exec (.fenceResolve n) s = .next c.st) ∧
          (∀ s2, c.verdict = none → c.miss = false →
            c.st.askAll (.op n e.id) (windowsOf (pieces.map Piece.tgt)) = (s2, true) →
            ∃ t w, exec (.fenceResolve n) s = .next t ∧ (t.strand n).wq = (s.strand n).wq ++ [w] ∧ w.pieces = pieces ∧
              w.va = ea ∧ w.seq = e.seq ∧ t.mem = s.mem ∧ t.entry? n e.id = none)))))

/-- The spill bank keeps what is put into it: a vector spilled at an offset and then filled from it, with its tags, and a
scalar with its tag, come back as they were; words elsewhere are unchanged.
`WRITE_BACK` of a `SPILL` that nothing before it can trap: the register's 64 lanes, or the scalar's two words with its tag on
both, are in the bank from word OFFSET / 4 on. `WRITE_BACK` of a `FILL`, four clocks after its issue: D receives what it read
at issue. SPILL and FILL beyond SPLIM.LIMIT raise SPOVF at issue.
(That a SPILL writes its bank only once nothing earlier can trap, and that a FILL takes its value at issue, is the model's
reading: log entry 19.) -/
def Obligations.SpillBank : Prop :=
  (∀ (m : AMap (W32 × Bool)) (w k : Nat) (x : VV), m.Pairwise (fun a b => a.1 < b.1) → k ≤ 64 →
    (∀ j < k, lane (spillGet (spillPut m w k x) w k).v j = lane x.v j ∧
      (spillGet (spillPut m w k x) w k).tag j = x.tag j) ∧
    (∀ v, (v < w ∨ w + k ≤ v) → mget (spillPut m w k x) v ((0 : W32), false) = mget m v (0, false))) ∧
  (∀ (s : State) (n : Nat) (e : Entry) (d : BitVec 6) (v : Bool) (o : BitVec 16),
    (s.me.ctl.splim.toNat < o.toNat + (if v then 256 else 8) →
      exec (.spill d v o) s = .next (s.raise s.cur { cause := .spovf }) ∧
      exec (.fill d v o) s = .next (s.raise s.cur { cause := .spovf })) ∧
    ((s.strand n).flights.find? (fun f => f.id == e.id) = none → s.entry? n e.id = some e → e.slip = false →
      (s.strand n).blockedEntry e = false →
      (e.instr = .spill d v o → (s.strand n).slipped e.seq = false → (s.strand n).spillBefore e = false →
        ∃ t, exec (.writeBack n e.id) s = .next t ∧ t.mem = s.mem ∧ t.entry? n e.id = none ∧
        (t.strand n).spill = (if v then spillPut (s.strand n).spill (o.toNat / 4) 64 (e.z.headD VV.zero)
          else spillPut (s.strand n).spill (o.toNat / 4) 2
            ⟨(e.z.headD VV.zero).v, if (e.z.headD VV.zero).tag 0 then 3 else 0⟩)) ∧
      (e.instr = .fill d v o →
        (s.clk < e.clk + 4 → exec (.writeBack n e.id) s = .next s) ∧
        (e.clk + 4 ≤ s.clk → ∃ t, exec (.writeBack n e.id) s = .next t ∧ t.mem = s.mem ∧ t.entry? n e.id = none ∧
          (t.strand n).spill = (s.strand n).spill ∧
          (∀ r z, e.dests = [.s r] → 24 ≤ r → e.z = [z] → (t.strand n).regs.sP r = z.toSV) ∧
          (∀ r z, e.dests = [.v r] → 24 ≤ r → e.z = [z] → ∀ j < 64,
            lane ((t.strand n).regs.vP r).v j = lane z.v j ∧ ((t.strand n).regs.vP r).tag j = z.tag j)))))

/-- `CODEBOOK_WRITER_RETIRE`: the first writer of the bank that may retire, in ascending strand position, makes the copy it
writes current, from the image, with the entry or with the valid bits cleared, advances the generation by one and ends;
the copy that was current stands as it was under its number, and with it the captures of those who read it. With no writer ready nothing changes. A writer that stalled at its issue looks
again: while its bank is held, or an earlier `LDT` has not resolved, nothing changes; else its two clocks begin. -/
def Obligations.CodebookRetires : Prop :=
  (∀ (s : State) (c b n : Nat) (e : Entry) (r : List (Nat × Entry)),
    let ready := (coreStrands c).flatMap (fun n => ((s.strand n).open_.filter (fun e =>
      bankWritten e.instr == some b && s.writerReady n e b)).map (fun e => (n, e)))
    (ready = [] → exec (.codebookWriterRetire c b) s = .next s) ∧
    (ready = (n, e) :: r → e.dests = [] → e.caps = [] → ∃ t, exec (.codebookWriterRetire c b) s = .next t ∧
      t.mem = s.mem ∧ t.entry? n e.id = none ∧
      ((t.core c).bank b).gen = ((s.core c).bank b).gen + 1 ∧
      ((t.core c).bank b).current.mode = (writerCopy e ((s.core c).bank b).current).mode ∧
      ((t.core c).bank b).current.entries = (writerCopy e ((s.core c).bank b).current).entries ∧
      ((t.core c).bank b).current.valid = (writerCopy e ((s.core c).bank b).current).valid ∧
      (∀ bk a x p q, e.instr = .cbwr bk a x p q → e.ain.bv.toNat < 256 → mget? ((t.core c).bank b).current.entries e.ain.bv.toNat = some e.ain.av) ∧
      ((t.core c).bank b).curIdx = 1 - ((s.core c).bank b).curIdx ∧
      ((t.core c).bank b).copy ((s.core c).bank b).curIdx = ((s.core c).bank b).current ∧
      (∀ m, (t.strand m).flights.map Flight.caps = (s.strand m).flights.map Flight.caps ∧
        ∀ x ∈ (s.strand m).open_, (m ≠ n ∨ x.id ≠ e.id) → x ∈ (t.strand m).open_) ∧
      (∀ k, k ≠ b → (t.core c).bank k = (s.core c).bank k))) ∧
  (∀ (s : State) (n b : Nat) (e : Entry), s.entry? n e.id = some e → e.slip = false → e.dests = [] →
    bankWritten e.instr = some b → e.step = writerStalled →
    (s.writerStalls n e.seq b = true → exec (.loadReturn n e.id [] false) s = .next s) ∧
    (s.writerStalls n e.seq b = false → ∃ t y, exec (.loadReturn n e.id [] false) s = .next t ∧ t.mem = s.mem ∧
      t.entry? n e.id = some y ∧ y.step = 0 ∧ y.clk = s.clk ∧ y.instr = e.instr ∧ y.x = e.x ∧ y.y = e.y ∧ t.cores = s.cores))

/-- `WAITV_REREAD`. While it may not perform, or watches and neither a write of its line was seen nor 4,096 clocks have
passed, nothing changes. When a read is due it translates its address again and reads the word: a marked line is POISON, a
value that meets the condition resolves the operation, whose D receives it in the next clock, and any other value leaves it
watching. A clock that begins after a write of the line shows it to the operation, which then reads again. Through a window
one request is made, and the value that returns is judged in the same way.
`STREAM_PATTERN_READ` of an unbound stream, or of one that needs no vector, does nothing. Of a bound one it reads the next
vector it needs: a pattern in memory by the checks and the decoding of a vector load, whose fault it keeps with the vector; a
raw one as the 64 lanes that lie there; a row of a tile by a tile request, whose copy delivers the part of the row. -/
def Obligations.WaitAndStreamReads : Prop :=
  (∀ (s : State) (n : Nat) (e : Entry) (d a b : BitVec 6) (p q : Bool) (c : BitVec 3) (w : Bool),
    s.entry? n e.id = some e → e.instr = .waitv d a b p q c w → e.step ≠ 2 →
    let due := e.step = 3 ∨ e.clk + 4096 ≤ s.clk
    ((s.strand n).mayPerform e = false ∨ (e.step ≠ 0 ∧ ¬ due) → exec (.waitvReread n e.id) s = .next s) ∧
    ((s.strand n).mayPerform e = true → e.step = 0 → ∀ rd l pa, e.rds = rd :: l →
      (rd.tgt = .mem pa → ∀ s1 bs m, s.load n pa rd.len true = (s1, bs, m) → ∃ t, exec (.waitvReread n e.id) s = .next t ∧
        WaitvOutcome s1 n e c w (leNat bs) m (s1.home (pa / 256)).wts t) ∧
      (∀ win dst, rd.tgt = .window win dst pa →
        (∀ bs m, rd.got = some (bs, m) → ∃ t, exec (.waitvReread n e.id) s = .next t ∧ WaitvOutcome s n e c w (leNat bs) m 0 t) ∧
        (rd.got = none → exec (.waitvReread n e.id) s = .next (if (s.strand n).requested e.id then s
          else s.sendReq n e.id dst (.load rd.len) pa [])))) ∧
    ((s.strand n).mayPerform e = true → e.step ≠ 0 → due →
      let ea := e.ain.av &&& ~~~(if w then 3#64 else 7#64)
      let pl := ((({ st := s } : Plan)).poison (e.ain.cap.x.tag 0) 0 ea).access n 0 .load ea (if w then 4 else 8)
      (∀ t, pl.verdict = some t → exec (.waitvReread n e.id) s = .next (pl.st.trapEntry n e t)) ∧
      (pl.verdict = none → pl.miss = true → exec (.waitvReread n e.id) s = .next pl.st) ∧
      (pl.verdict = none → pl.miss = false → ∀ rd l pa, pl.rds = rd :: l → rd.tgt = .mem pa →
        let e1 := { e with rds := pl.rds, step := 0 }
        ∀ s1 bs m, (pl.st.modEntry n e.id (fun _ => e1)).load n pa rd.len true = (s1, bs, m) →
          (s1.entry? n e.id).isSome = true → ∃ t, exec (.waitvReread n e.id) s = .next t ∧
            WaitvOutcome s1 n e1 c w (leNat bs) m (s1.home (pa / 256)).wts t)) ∧
    (e.step = 1 → s.agenda = [] → s.cur8.thermal = false → ∀ rd pa, rd ∈ e.rds → rd.tgt = .mem pa →
      (s.home (pa / 256)).wts ≠ e.aux → ∃ t y, step s = .next t ∧ t.entry? n e.id = some y ∧ y.step = 3)) ∧
  (∀ (s : State) (n : Nat) (e : Entry), s.entry? n e.id = some e → e.step = 2 → e.clk ≤ s.clk →
    (s.strand n).blockedEntry e = false →
    exec (.waitvReread n e.id) s = .next (s.completeEntry n e [.s ⟨e.aux, false⟩] 0)) ∧
  (∀ (s : State) (n q : Nat),
    let core := s.core (coreOf n)
    (mget? (s.strand n).streams q = none → exec (.streamPatternRead n q) s = .next s) ∧
    (∀ y, mget? (s.strand n).streams q = some y → ((s.strand n).streamPending q = true ∨ y.missing core = none) →
      exec (.streamPatternRead n q) s = .next s) ∧
    (∀ y j lo hi, mget? (s.strand n).streams q = some y → (s.strand n).streamPending q = false →
      y.missing core = some j → y.needs core = some (lo, hi) →
      (y.isTile = false → y.rds = [] →
        let pl := (({ st := s } : Plan)).readReg n 1 y.tyField y.isRaw (~~~0#64) (s.modeOf n) (y.va j)
        let pends := (rdBanks y.isRaw pl.rds).any (fun b => (s.strand n).bankPending b)
        (∀ t, pl.verdict = some t → exec (.streamPatternRead n q) s = .next (pl.st.setStream n q (some { y with fault := some (j, t), rds := [] }))) ∧
        (pl.verdict = none → (pl.miss = true ∨ pends = true) → exec (.streamPatternRead n q) s = .next pl.st) ∧
        (pl.verdict = none → pl.miss = false → pends = false → ∀ s1 l, pl.st.patternReads n q pl.rds [] = (s1, l, true) →
          ∃ u, exec (.streamPatternRead n q) s = .next u ∧ u.mem = s1.mem ∧
            GotVector u n q lo j y (decodeReg l y.tyField y.isRaw (~~~0#64) (s1.copyOf n []) (y.va j)).1
              (decodeReg l y.tyField y.isRaw (~~~0#64) (s1.copyOf n []) (y.va j)).2) ∧
        (pl.verdict = none → pl.miss = false → y.isRaw = true → ∀ pa w0 w1 s1 bs m,
          pl.rds = [⟨y.va j, .mem pa, 256, w0, w1, none, false⟩] → pl.st.load n pa 256 false = (s1, bs, m) → bs.length = 256 →
          ∃ u v f, exec (.streamPatternRead n q) s = .next u ∧ GotVector u n q lo j y v f ∧ ∀ k < 64,
            lane v.v k = BitVec.ofNat 32 (leNat ((bs.drop (4 * k)).take 4)) ∧ v.tag k = m ∧
            laneFlags f k = (if m then 64#7 else 0#7))) ∧
      (y.isTile = true → ∀ bd s1 r, (s.strand n).bound = some bd →
        let w6 := (y.word 6).toNat
        let hint := bitsN w6 19 17
        s.tileReq (wingOf n) bd (tagOf bd.asid (bitsN w6 31 20) (y.coords j)) (bitsN w6 63 48) hint (.stream n q) (s.pts n) = (s1, r) →
        ((∀ k, r ≠ .hit k) → exec (.streamPatternRead n q) s = .next s1) ∧
        (∀ k, r = .hit k → y.isRaw = true →
          let x := s1.slotOf (wingOf n) k
          let pin := s1.pinOver (coreOf n) x hint
          ((y.rowPart j).2 ≠ 0 → exec (.streamPatternRead n q) s = .next (s1.setStream n q (some { y with
            fault := some (j, { cause := .xlate, sub := xTilerange }) }))) ∧
          ((y.rowPart j).2 = 0 → pin = true → exec (.streamPatternRead n q) s = .next (s1.setStream n q (some { y with
            fault := some (j, { cause := .pinovf }) }))) ∧
          ((y.rowPart j).2 = 0 → pin = false → ∃ u f, exec (.streamPatternRead n q) s = .next u ∧
            let tagged := x.prow.getLsbD (y.rowPart j).1
            GotVector u n q lo j y ⟨mget x.rows (y.rowPart j).1 0, if tagged then ~~~0#64 else 0⟩ f ∧
            ∀ k < 64, laneFlags f k = (if tagged then 64#7 else 0#7))))))

/-! ### Slot C (R144 to R166, R328 to R337) -/

/-- What a jump, a result of slot C, and the end of a waiting slot-C operation do. A jump moves the strand's PC and nothing
else. A scalar result becomes an operation in flight due in this clock, whose write-back is a later turn of this clock; a
queue destination has its position reserved. A waiting operation that ends leaves the strand's open operations, and slot C
waits no more. Memory and every other strand are unchanged. -/
def Obligations.SlotCResults : Prop :=
  ∀ (t : State) (n r : Nat) (i : Instr) (e : Entry) (v : SV) (q : W64),
    GoesTo t (t.jump n q) n q ∧
    (destsOf (t.strand n) i = [] → t.putC n i [.s v] 0 = { t with opId := t.opId + 1 }) ∧
    (destsOf (t.strand n) i = [.s r] →
      let u := t.putC n i [.s v] 0
      (u.strand n).flights = (t.strand n).flights ++
        [{ id := t.opId, seq := (t.strand n).front.ctx.seq, slot := 2, due := t.clk, wbs := [.s r v], flags := 0, caps := [] }] ∧
      u.agenda = t.agenda ++ [.ev (.writeBack n t.opId)] ∧ u.mem = t.mem ∧
      (u.strand n).regs.sQ r = (if r < 24 then (t.strand n).regs.sQ r ++ [.hole t.opId] else (t.strand n).regs.sQ r) ∧
      (u.strand n).regs.sp = (t.strand n).regs.sp ∧ (u.strand n).ctl = (t.strand n).ctl ∧
      (u.strand n).front = (t.strand n).front ∧ ∀ m, m ≠ n → u.strand m = t.strand m) ∧
    (e.dests = [] → t.finishC n e [.s v] = t.dropEntry n e.id) ∧
    (e.dests = [.s r] →
      let u := t.finishC n e [.s v]
      u.entry? n e.id = none ∧ ((t.strand n).front.waitC = some e.id → (u.strand n).front.waitC = none) ∧
      (u.strand n).flights = (t.strand n).flights ++
        [{ id := e.id, seq := e.seq, slot := 2, due := t.clk, wbs := [.s r v], flags := 0, caps := [] }] ∧
      u.agenda = t.agenda ++ [.ev (.writeBack n e.id)] ∧ u.mem = t.mem ∧ (u.strand n).regs = (t.strand n).regs ∧
      (u.strand n).ctl = (t.strand n).ctl ∧ ∀ m, m ≠ n → u.strand m = t.strand m)

/-- Control flow in split mode: `NOP` and `EXT` do nothing; `BR`, `BRC`, `CALL`, `CALLI`, `RET` and `LOOP` go on at the
bundle their rules name, line + 64 × OFFS with index BIDX or the PC value read; `CALL` and `CALLI` write the return PC to
s30, which is the NextPC of the bundle; `LOOP` writes D − 1 and, when nothing has been fetched behind it, goes back while
that is not 0 (what has been fetched already followed the same decision, R153). `JT` falls through at an index not below
its bound, and else goes on at the PC value that its table entry in memory holds, a marked entry giving MEMUE. -/
def Obligations.ControlFlow : Prop :=
  ∀ (s : State) (a d j : BitVec 6) (p p' x : Bool) (c b k : BitVec 3) (o18 : BitVec 18) (o12 : BitVec 12) (o16 : BitVec 16)
    (im : BitVec 20) (w : BitVec 2),
    let n := s.cur
    let at_ (g : Pass) (o : Int) : W64 := (g.st.front.ctx.pc &&& ~~~63#64) + BitVec.ofInt 64 (64 * o) + b.zeroExtend 64
    let ret (g : Pass) : W64 := (nextPc g.st.front.ctx.pc g.st.front.ctx.link).1
    let test (v : Int) : Bool := match c.toNat with
      | 0 => decide (v = 0) | 1 => decide (v ≠ 0) | 2 => decide (v < 0) | 3 => decide (0 ≤ v) | 4 => decide (0 < v)
      | _ => decide (v ≤ 0)
    exec .nop s = .next s ∧ exec (.ext w im) s = .next s ∧
    RunsC s (.br k x o18 b) (fun g t => t.jump n (at_ g o18.toInt)) ∧
    RunsC s (.brc a p c o12 b) (fun g t => if test g.sa.v.toInt then t.jump n (at_ g o12.toInt) else t) ∧
    RunsC s (.call k x o18 b) (fun g t => (resultC t (.call k x o18 b) (ret g)).jump n (at_ g o18.toInt)) ∧
    RunsC s (.calli a p k x) (fun g t => (resultC t (.calli a p k x) (ret g)).jump n g.sa.v) ∧
    RunsC s (.ret a p k x) (fun g t => t.jump n g.sa.v) ∧
    RunsC s (.loop d o16 b) (fun g t =>
      let u := resultC t (.loop d o16 b) (g.sa.v - 1)
      if (u.strand n).front.seq = g.st.front.ctx.seq + 1 ∧ (u.strand n).front.latch = none ∧ g.sa.v - 1 ≠ 0 then
        u.jump n (at_ g o16.toInt) else u) ∧
    WaitsC s (.jt d a j p p' k x) (fun e t =>
      if e.zv.toNat ≤ e.yv.toNat then t.finishC n e []
      else if (t.strand n).performedBefore e.seq e.slot then jtGo e t else t) ∧
    (∀ e e1 s1 bs m, s.resuming (.jt d a j p p' k x) = some e → e.yv.toNat < e.zv.toNat →
      s.me.performedBefore e.seq e.slot = true →
      let ea : W64 := (e.xv &&& ~~~7#64) + 8 * e.yv
      let pl := ({ st := s } : Plan).access n 2 .load ea 8
      e.rds = [] → pl.trap = none → pl.miss = false →
      (pl.st.modEntry n e.id (fun y => { y with rds := pl.rds })).readStep n { e with rds := pl.rds } false = (s1, e1, true) →
      bytesAt e1.rds ea 8 = (bs, m) →
      exec (.jt d a j p p' k x) s = .next (if m then s1.trapEntry n e1 { cause := .memue, eaddr := ea }
        else (s1.finishC n e1 []).jump n (BitVec.ofNat 64 (leNat (bs.take 8)))))

/-- Gang mode: `GANG` opens and waits until all four strands of the core have arrived; with the fourth the core is in gang
mode from the next clock, the four operations end and no strand issues before it; it raises GANGSYNC while another strand of the
core is unbound, of another group or halted, and does nothing in gang mode. `SPLIT` ends gang mode, and outside a long word
raises GANGSYNC, as `GBR` does. `GBR` follows the predicate of strand 0, whose tag raises POISON in strand 0. -/
def Obligations.GangMode : Prop :=
  ∀ (s : State) (k b : BitVec 3) (x : Bool) (o : BitVec 18),
    let n := s.cur
    let c := coreOf n
    (s.ctxOf.gang = true →
      ∃ t, exec .split s = .next t ∧ (t.core c).gang = Gang.reset ∧ t.strands = s.strands ∧ t.mem = s.mem) ∧
    (s.ctxOf.gang = false → exec .split s = .next (s.raise n { cause := .gangsync, slot := 2 }) ∧
      exec (.gbr k x o b) s = .next (s.raise n { cause := .gangsync, slot := 2 })) ∧
    ((s.core c).gang.on = true → exec .gang s = .next s) ∧
    ((s.core c).gang.on = false →
      (∀ g, s.resuming .gang = none → PassesC s .gang g → g.st.openFull .gang = false → s.gangBroken n = true →
        exec .gang s = .next (s.raise n { cause := .gangsync, slot := 2 })) ∧
      (∀ g e, OpensC s .gang g e → s.gangBroken n = false → exec .gang s = exec .gang (openedC s .gang g)) ∧
      (∀ e, s.resuming .gang = some e → s.gangBroken n = true →
        exec .gang s = .next ((s.modCore c (fun k => k.depart (posInCore n))).trapEntry n e { cause := .gangsync })) ∧
      (∀ e, s.resuming .gang = some e → s.gangBroken n = false →
        let a := mset (s.core c).gang.arrived (posInCore n) e.id
        ∃ t, exec .gang s = .next t ∧ t.mem = s.mem ∧
          (a.length ≠ 4 → t.strands = s.strands ∧ (t.core c).gang = { (s.core c).gang with arrived := a }) ∧
          (a.length = 4 → (t.core c).gang = ⟨true, [], [], s.clk + 1⟩ ∧
            ∀ y ∈ a, (t.strand (4 * c + y.1)).front.wake = s.clk + 1 ∧ t.entry? (4 * c + y.1) y.2 = none))) ∧
    (s.ctxOf.gang = true → ∀ p r kk xx oo bb, (s.strand (4 * c)).front.pairs = p :: r → p.decoded.c = .ok (.gbr kk xx oo bb) →
      let st0 := s.strand (4 * c)
      let taken := (st0.regs.kP kk.toNat).v.getLsbD 0 != xx
      (kk ≠ 0 → st0.inFlight (.k kk.toNat) = true → exec (.gbr k x o b) s = .next (s.stall n)) ∧
      ((kk = 0 ∨ st0.inFlight (.k kk.toNat) = false) →
        (posInCore n = 0 → (s.me.regs.kP k.toNat).t.getLsbD 0 = true →
          exec (.gbr k x o b) s = .next (s.raise n { cause := .poison, slot := 2, einfo := 3 })) ∧
        ((posInCore n ≠ 0 ∨ (s.me.regs.kP k.toNat).t.getLsbD 0 = false) →
          exec (.gbr k x o b) s = .next (if taken then
            s.jump n ((s.ctxOf.pc &&& ~~~63#64) + BitVec.ofInt 64 (64 * o.toInt) + b.zeroExtend 64) else s))))

/-- The objects of a core. `JSET` completes, with its update on its core's list, in the clock in which every earlier access
of the strand has performed, and waits until then; `JCLR` completes at once with its update; `JWAIT` completes in the first clock
in which the bits, as earlier clocks left them, satisfy it, with an edge from every update of the bits it names; `SEMWAIT`,
`MXLOCK` and `MXTRY` join their lists, a mutex that the strand holds giving 1 at once; `SEMPOST` puts its update on the list once
every earlier access has performed; `MXUNLK` stalls until then, unless its check traps, and completes with 0 and its update, or
with 1 when the strand does not hold the mutex.
What the core does at the end of waits: `JOIN_WAIT_SATISFY` looks at a waiting `JWAIT` again; `SEMAPHORE_GRANT` serves
its wait list in order while the count suffices, subtracting each wait's N; `MUTEX_GRANT` gives a free mutex to the head of
its wait list or else to its first try, and fails the tries of a held one with 2; the updates set and clear join bits, add to
semaphores up to 65,535 and free mutexes. -/
def Obligations.SharedObjects : Prop :=
  (∀ (s : State) (m16 : BitVec 16) (any : Bool) (d : BitVec 6) (sv : BitVec 4) (k : BitVec 12),
    let n := s.cur
    let c := coreOf n
    let upd (t : State) (u : Upd) : State := t.modCore c (fun y => { y with upds := y.upds ++ [(posInCore n, u)] })
    let step1 (t : State) (e : Entry) : State := t.modEntry n e.id (fun y => { y with step := 1 })
    let performed := s.me.performedBefore s.ctxOf.seq 2
    WaitsC s (.jset m16) (fun e t =>
      if (t.strand n).performedBefore e.seq e.slot then (upd t (.jset m16 (t.pts n))).finishC n e [] else t) ∧
    RunsC s (.jclr m16) (fun _ t => upd t (.jclr m16)) ∧
    WaitsC s (.jwait any m16) (fun e t =>
      let j := (t.core c).join
      if m16 = 0 ∨ (if any then j &&& m16 ≠ 0 else j &&& m16 = m16) then
        (t.setPts n (wmax (t.pts n) (((List.range 16).filter (fun b => m16.getLsbD b)).foldl
          (fun p b => wmax p (mget (t.core c).joinPts b 0)) 0))).finishC n e [] else t) ∧
    WaitsC s (.semwait d sv k) (fun e t =>
      if e.step ≠ 0 then t
      else step1 (t.modCore c (fun y => y.setSem sv.toNat { y.sem sv.toNat with
        waits := (y.sem sv.toNat).waits ++ [(n, e.id, k.toNat)] })) e) ∧
    WaitsC s (.sempost d sv k) (fun e t =>
      if e.step ≠ 0 ∨ (t.strand n).performedBefore e.seq e.slot = false then t
      else upd (t.modEntry n e.id (fun y => { y with step := 1, aux := BitVec.ofNat 64 ((t.core c).sem sv.toNat).count }))
        (.post sv.toNat k.toNat (t.pts n))) ∧
    WaitsC s (.mxlock d sv) (fun e t =>
      let x := (t.core c).mux sv.toNat
      if e.step ≠ 0 then t
      else if x.holder = some (posInCore n) then t.finishC n e [.s ⟨1, false⟩]
      else step1 (t.modCore c (fun y => y.setMux sv.toNat { x with waits := x.waits ++ [(n, e.id)] })) e) ∧
    WaitsC s (.mxtry d sv) (fun e t =>
      let x := (t.core c).mux sv.toNat
      if e.step ≠ 0 then t
      else if x.holder = some (posInCore n) then t.finishC n e [.s ⟨1, false⟩]
      else step1 (t.modCore c (fun y => y.setMux sv.toNat { x with tries := x.tries ++ [(n, e.id)] })) e) ∧
    (performed = false →
      (∀ x, checkInstr s n 2 (.mxunlk d sv) = .trap x → exec (.mxunlk d sv) s = .next (s.raise n x)) ∧
      ((∀ x, checkInstr s n 2 (.mxunlk d sv) ≠ .trap x) → exec (.mxunlk d sv) s = .next (s.stall n))) ∧
    (performed = true → RunsC s (.mxunlk d sv) (fun _ t =>
      if ((t.core c).mux sv.toNat).holder = some (posInCore n) then
        resultC (upd t (.unlock sv.toNat (posInCore n) (t.pts n))) (.mxunlk d sv) 0
      else resultC t (.mxunlk d sv) 1))) ∧
  (∀ (s : State) (n c sem mx id k : Nat) (r : List (Nat × Nat × Nat)) (rm : List (Nat × Nat)) (e : Entry),
    (∀ any m, s.openC n (fun i => match i with
        | .jwait .. => true
        | _ => false) = some e → e.instr = .jwait any m →
      let k := s.core (coreOf n)
      exec (.joinWaitSatisfy n) s = .next (
        if m = 0 ∨ (if any then k.join &&& m ≠ 0 else k.join &&& m = m) then
          (({ s with cur := n }).setPts n (wmax (s.pts n) (((List.range 16).filter (fun b => m.getLsbD b)).foldl
            (fun p b => wmax p (mget k.joinPts b 0)) 0))).finishC n e []
        else { s with cur := n })) ∧
    (((s.core c).sem sem).waits = [] → exec (.semaphoreGrant c sem) s = .next s) ∧
    (((s.core c).sem sem).waits = (n, id, k) :: r → ((s.core c).sem sem).count < k →
      exec (.semaphoreGrant c sem) s = .next s) ∧
    (((s.core c).sem sem).waits = [(n, id, k)] → k ≤ ((s.core c).sem sem).count → s.entry? n id = some e → e.id = id →
      ∃ t, exec (.semaphoreGrant c sem) s = .next t ∧ ((t.core c).sem sem).count = ((s.core c).sem sem).count - k ∧
        ((t.core c).sem sem).waits = [] ∧ t.entry? n id = none ∧ t.mem = s.mem ∧
        t.pts n = wmax (s.pts n) ((s.core c).sem sem).pts ∧
        (∀ q, e.dests = [.s q] → ∃ f ∈ (t.strand n).flights,
          f.id = id ∧ f.wbs = [.s q ⟨BitVec.ofNat 64 ((s.core c).sem sem).count, false⟩])) ∧
    (((s.core c).mux mx).holder = none → s.entry? n id = some e → e.id = id →
      ((((s.core c).mux mx).waits = (n, id) :: rm ∧ ((s.core c).mux mx).tries = []) ∨
        (((s.core c).mux mx).waits = [] ∧ rm = [] ∧ ((s.core c).mux mx).tries = [(n, id)])) →
      ∃ t, exec (.mutexGrant c mx) s = .next t ∧ ((t.core c).mux mx).holder = some (posInCore n) ∧
        ((t.core c).mux mx).waits = rm ∧ ((t.core c).mux mx).tries = [] ∧ t.entry? n id = none ∧ t.mem = s.mem ∧
        t.pts n = wmax (s.pts n) ((s.core c).mux mx).pts ∧
        (∀ q, e.dests = [.s q] → ∃ f ∈ (t.strand n).flights, f.id = id ∧ f.wbs = [.s q ⟨0, false⟩])) ∧
    (∀ h, ((s.core c).mux mx).holder = some h → ((s.core c).mux mx).tries = [(n, id)] → s.entry? n id = some e → e.id = id →
      ∃ t, exec (.mutexGrant c mx) s = .next t ∧ ((t.core c).mux mx).holder = some h ∧ ((t.core c).mux mx).tries = [] ∧
        t.entry? n id = none ∧
        (∀ q, e.dests = [.s q] → ∃ f ∈ (t.strand n).flights, f.id = id ∧ f.wbs = [.s q ⟨2, false⟩])) ∧
    (∀ p m q, ((s.applyUpd c (p, .jset m q)).core c).join = (s.core c).join ||| m ∧
      (∀ b < 16, mget ((s.applyUpd c (p, .jset m q)).core c).joinPts b 0 =
        if m.getLsbD b then wmax (mget (s.core c).joinPts b 0) q else mget (s.core c).joinPts b 0) ∧
      ((s.applyUpd c (p, .jclr m)).core c).join = (s.core c).join &&& ~~~m ∧
      (((s.core c).mux mx).holder = some p → (((s.applyUpd c (p, .unlock mx p q)).core c).mux mx).holder = none) ∧
      (((s.applyUpd c (p, .post sem k q)).core c).sem sem).count =
        (if 65535 < ((s.core c).sem sem).count + k then ((s.core c).sem sem).count else ((s.core c).sem sem).count + k)))

/-- Queue links: `QLINK` writes the first status of Table 7-7 that applies and binds the link when that is 0; `QUNLINK`
unbinds once every push already made has arrived; `QDEPTH` writes Count + Pending of the queue that the local register
pushes into; `QFLUSH` empties a queue once it has no reservation. `LINK_COMMIT` delivers the oldest push through a link at
its place in the peer's queue, with the sender's stamp, once it is due, every earlier access of the sender has performed and no
earlier slot of the sender can undo it; the receiver's pts does not rise now (when the stamp reaches what follows the pop is the
model's reading, log entry 46). -/
def Obligations.QueueLinks : Prop :=
  (∀ (s : State) (d a : BitVec 6) (p v : Bool) (r : BitVec 5),
    let n := s.cur
    RunsC s (.qlink d a p r) (fun g t =>
      let x := g.sa.v
      let peer := 256 * dieOf n + (x.extractLsb' 0 8).toNat
      let reg := (x.extractLsb' 8 5).toNat
      let status : Nat := if peer = n ∨ t.sameGroup n peer = false then 1 else if x.toNat / 2 ^ 13 ≠ 0 ∨ 24 ≤ reg then 2
        else if (mget? (t.strand n).links r.toNat).isSome then 3 else if t.linkTarget peer reg then 4 else 0
      resultC (if status = 0 then t.modStrand n (fun st => { st with links := mset st.links r.toNat ⟨peer, reg, false⟩ }) else t)
        (.qlink d a p r) (BitVec.ofNat 64 status)) ∧
    WaitsC s (.qunlink r) (fun e t => match mget? (t.strand n).links r.toNat with
      | none => t.finishC n e []
      | some l => if l.broken ∨ (t.strand n).linkIds r.toNat = [] then
          (t.modStrand n (fun st => { st with links := mdel st.links r.toNat })).finishC n e [] else t) ∧
    RunsC s (.qdepth d r) (fun _ t => resultC t (.qdepth d r) (match mget? (t.strand n).links r.toNat with
      | none => BitVec.ofNat 64 ((t.strand n).regs.vQ r.toNat).length
      | some l => if l.broken then ~~~0#64 else BitVec.ofNat 64 ((t.strand l.peer).regs.vQ l.reg).length)) ∧
    WaitsC s (.qflush r v) (fun e t => if v then
        (if qAnyHole ((t.strand n).regs.vQ r.toNat) then t
         else (t.modRegs n (fun g => g.setVQ r.toNat [])).finishC n e [])
      else if qAnyHole ((t.strand n).regs.sQ r.toNat) then t
      else (t.modRegs n (fun g => g.setSQ r.toNat [])).finishC n e [])) ∧
  (∀ (s : State) (n r : Nat) (p : LinkPush) (ps : List LinkPush),
    ((s.strand n).linkPend.filter (fun q => q.reg == r) = [] → exec (.linkCommit n r) s = .next s) ∧
    ((s.strand n).linkPend.filter (fun q => q.reg == r) = p :: ps →
      firstHoleOf ((s.strand p.peer).regs.vQ p.peerReg) ((s.strand n).linkIds r) = some p.id →
      ((s.clk < p.due ∨ (s.strand n).performedBefore p.seq 1 = false ∨
          ((s.strand n).slipped p.seq = true ∧ (s.strand n).front.stopped = false)) → exec (.linkCommit n r) s = .next s) ∧
      (p.due ≤ s.clk → (s.strand n).performedBefore p.seq 1 = true →
        ((s.strand n).slipped p.seq = false ∨ (s.strand n).front.stopped = true) → ∃ t, exec (.linkCommit n r) s = .next t ∧
        t.mem = s.mem ∧ (t.strand p.peer).regs.vQ p.peerReg =
          qPut ((s.strand p.peer).regs.vQ p.peerReg) p.id (.linked p.val (wmax p.pts (s.pts n))) ∧
        t.pts p.peer = s.pts p.peer ∧
        (t.strand n).linkPend = (s.strand n).linkPend.filter (fun q => q.id != p.id) ∧
        ∀ m, m ≠ n → m ≠ p.peer → t.strand m = s.strand m)))

/-- System registers: `MFS` reads a register, once everything earlier has written back; each form of `MTS` writes its
register at that time: FLG clears flags, SRNG takes the value or the fixed seed for 0, STATUS sets EXL, clears it only when
no FRAME entry stands, and clears PINLOST by 1; EPC clears ESLOT and the SLIP marks; ECAUSE takes its fields, 3 in ESLOT
giving 0; a register that is read-only keeps its value. `PRCHK` writes all ones while PREQ is 0 and else the clocks that
remain. `PCHK` does nothing to an untagged operand and raises POISON for a tagged one. `TLBINV` asks the Curator once. -/
def Obligations.SystemRegisters : Prop :=
  ∀ (s : State) (d a b : BitVec 6) (p q l v : Bool) (m : BitVec 8),
    let n := s.cur
    WaitsC s (.mfs d m) (fun e t =>
      if t.me.sysReady e m.toNat then endsC t e (t.sysreg n m.toNat) else t) ∧
    MtsWrites s (.mts a p m) m.toNat (fun x st => { st with ctl := { st.ctl with
      quant := if m = 0x07 then x.extractLsb' 0 16 else st.ctl.quant
      trapBase := if m = 0x0C then x else st.ctl.trapBase
      dbgctl := if m = 0x0D then x.extractLsb' 0 2 else st.ctl.dbgctl
      einfo := if m = 0x22 then x else st.ctl.einfo
      eaddr := if m = 0x23 then x else st.ctl.eaddr } }) ∧
    MtsWrites s (.mtsFlg a p) 1 (fun x st => { st with ctl := { st.ctl with
      flags := clearFlags st.ctl.flags (x.extractLsb' 0 7).toNat (~~~0#64) } }) ∧
    MtsWrites s (.mtsSrng a p) 2 (fun x st => { st with ctl := { st.ctl with
      srng := if x = 0 then 0x9E3779B97F4A7C15#64 else x } }) ∧
    MtsWrites s (.mtsStatus a p) 0 (fun x st => { st with ctl := { st.ctl with
      exl := x.getLsbD 3 || (st.ctl.exl && !st.frame.isEmpty), pinLost := st.ctl.pinLost && !x.getLsbD 7 } }) ∧
    MtsWrites s (.mtsEpc a p) 0x20 (fun x st => { st with
      ctl := { st.ctl with epc := x, eslot := 0 }, front := { st.front with frameMarks := [] } }) ∧
    MtsWrites s (.mtsEcause a p) 0x21 (fun x st => { st with ctl := { st.ctl with
      fx := x.getLsbD 23, rq := x.getLsbD 22, eslot := if x.extractLsb' 20 2 = 3 then 0 else x.extractLsb' 20 2
      sub := x.extractLsb' 8 8, cause := x.extractLsb' 0 8 } }) ∧
    RunsC s (.prchk d) (fun _ t => resultC t (.prchk d) (
      if t.me.ctl.preq = false then 0xFFFFFFFFFFFFFFFF#64
      else BitVec.ofNat 64 (t.me.ctl.t0 + t.me.ctl.dline.toNat - t.clk))) ∧
    (∀ g, Passes s 2 (.pchk a p v) g → exec (.pchk a p v) s = .next (
      if g.va.t ≠ 0 then s.raise n { cause := .poison, slot := 2 }
      else (poppedC s g).putC n (.pchk a p v) [] g.fl)) ∧
    WaitsC s (.tlbinv a b p q l) (fun e t =>
      if e.step ≠ 0 then t
      else if l = false ∧ e.yv = 0 then t.finishC n e []
      else
        let x : Shoot := { n := n, id := e.id, asid := t.asidOf n, base := if l then 0 else e.xv.toNat % 2 ^ 57
                           len := if l then 2 ^ 57 else e.yv.toNat, dropped := none }
        ({ t with cur8 := { t.cur8 with shootdowns := t.cur8.shootdowns ++ [x] } }).modEntry n e.id
          (fun y => { y with step := 1 })) ∧
    (s.sysreg n 0x02 = s.me.ctl.srng ∧ s.sysreg n 0x0B = BitVec.ofNat 64 s.clk ∧ s.sysreg n 0x0C = s.me.ctl.trapBase ∧
      s.sysreg n 0x20 = s.me.ctl.epc ∧ s.sysreg n 0x22 = s.me.ctl.einfo ∧ s.sysreg n 0x23 = s.me.ctl.eaddr ∧
      s.sysreg n 0x24 = BitVec.ofNat 64 s.me.frame.length ∧ s.sysreg n 0x03 = s.me.ctl.splim.zeroExtend 64)

/-- Taking a trap. `SYSC` and `BRK` always trap, `TRAP`, its operand popped, when that is not 0; EINFO holds the code, with bit
12 set for `TRAP`. A trap of slot B or C in split mode whose earlier operations have written back is taken at once: EPC is the PC
of the bundle, ESLOT the slot, CAUSE, SUB, EINFO and EADDR are the trap's, EXL is set, the PC is TRAPBASE, the handler
issues 4 clocks later, RQCNT counts the slot-A operations of later bundles; memory is unchanged, and so are plain registers
and predicates. `TRAP_ENTRY` takes a trap that waits in the same way once the earlier operations have written back, and
leaves it waiting until then. With TRAPBASE = 0, or in a handler, the group ends FAULTED instead. -/
def Obligations.TrapsTaken : Prop :=
  (∀ (s : State) (c : BitVec 12),
    exec (.sysc c) s = .next (s.raise s.cur { cause := .sysc, slot := 2, einfo := c.zeroExtend 64 }) ∧
    exec (.brk c) s = .next (s.raise s.cur { cause := .brk, slot := 2, einfo := c.zeroExtend 64 }) ∧
    ∀ a p g, Passes s 2 (.trap a p c) g → exec (.trap a p c) s = .next (
      if g.sa.t then s.raise s.cur { cause := .poison, slot := 2 }
      else if g.sa.v = 0 then poppedC s g
      else (poppedC s g).raise s.cur { cause := .sysc, slot := 2, einfo := BitVec.ofNat 64 (4096 + c.toNat) })) ∧
  (∀ (s : State) (t : Trap) (seq : Nat) (pc : W64),
    let n := s.cur
    let st := s.strand n
    let later := (st.open_.filter (fun e => decide (seq < e.seq))).length +
      (st.past.filter (fun e => decide (seq < e.seq))).length + (st.wq.filter (fun w => decide (seq < w.seq))).length
    let taken (u : State) : Prop :=
      (u.strand n).ctl.epc = pc ∧ (u.strand n).ctl.eslot = (if t.fx then 0 else BitVec.ofNat 2 t.slot) ∧
      (u.strand n).ctl.fx = t.fx ∧ (u.strand n).ctl.rq = false ∧ (u.strand n).ctl.sub = BitVec.ofNat 8 t.sub ∧
      (u.strand n).ctl.cause = BitVec.ofNat 8 t.cause.code ∧ (u.strand n).ctl.einfo = t.einfo ∧
      (u.strand n).ctl.eaddr = t.eaddr ∧ (u.strand n).ctl.exl = true ∧ (u.strand n).front.pc = st.ctl.trapBase ∧
      (u.strand n).front.pairs = [] ∧ (u.strand n).front.wake = s.clk + 4 ∧
      (u.strand n).frame.length = st.frame.length + later ∧ (u.strand n).regs.sp = st.regs.sp ∧
      (u.strand n).regs.vp = st.regs.vp ∧ (u.strand n).regs.kp = st.regs.kp ∧ u.mem = s.mem
    t.rq = false → t.code = none → (st.ctl.dbgctl.getLsbD 1 = false ∨ (t.cause ≠ .debug ∧ t.cause ≠ .brk)) →
    (st.ctl.trapBase ≠ 0 → st.ctl.exl = false →
      (st.front.ctx.gang = false → t.slot ≠ 0 → st.front.ctx.seq = seq → st.front.ctx.pc = pc →
        st.drainedBefore seq t.slot = true → taken (s.raise n t)) ∧
      (st.front.trapping = some (seq, pc, t) →
        (st.drainedBefore seq t.slot = false → exec (.trapEntry n) s = .next s) ∧
        (st.drainedBefore seq t.slot = true → ∃ u, exec (.trapEntry n) s = .next u ∧ taken u))) ∧
    (st.ctl.trapBase = 0 ∨ st.ctl.exl = true → st.front.trapping = some (seq, pc, t) →
      st.drainedBefore seq t.slot = true →
      ∃ u, exec (.trapEntry n) s = .next u ∧ u = (s.makeFrame n seq).endGroupFaulted n pc t ∧
        ∀ b, ((s.makeFrame n seq).strand n).bound = some b → ∀ g ∈ u.groups, g.lid = b.lid → g.grp = b.grp →
          g.phase = .killed ∧ g.faulted = true))

/-- Leaving a handler, yielding and halting. `RPLY` and `ERET` re-inject the FRAME entries one after another, and end when
none is left; `ERET` then leaves the handler: EXL := 0, the PC is EPC from slot ESLOT on. `YIELD` does nothing while PREQ is
0, and else saves the strand once it has drained. `HALT`, and `STRAND_HALTED` which looks at a waiting one again, take effect
once every earlier operation has written back and every earlier access has performed: the strand is halted and its mutexes
are released at the end of the clock. -/
def Obligations.LeavingAndHalting : Prop :=
  ∀ (s : State),
    let n := s.cur
    (∀ e, s.resuming .rply = some e → e.step ≠ 0 → s.me.frame = [] → s.me.open_.any (fun x => x.frame) = false →
      exec .rply s = .next (s.finishC n e [])) ∧
    (∀ e x r, s.resuming .rply = some e → e.step ≠ 0 → s.me.frame = x :: r → s.me.open_.any (fun y => y.frame) = false →
      s.me.drainedBefore e.seq 1 = true → s.me.performedBefore e.seq 1 = true →
      exec .rply s = .next (s.modStrand n (fun st => { st with
        frame := r
        open_ := st.open_ ++ [{ x with seq := e.seq, slip := true, resolved := false, rds := [], clk := s.clk }]
        front := { st.front with waitC := if x.slot = 2 then some x.id else st.front.waitC } }))) ∧
    (∀ e, s.resuming .eret = some e → e.step ≠ 0 → s.me.frame = [] → s.me.open_.any (fun x => x.frame) = false →
      ∃ t, exec .eret s = .next t ∧ (t.strand n).ctl.exl = false ∧ (t.strand n).front.pc = s.me.ctl.epc ∧
        (t.strand n).front.firstSlot = s.me.ctl.eslot.toNat ∧ (t.strand n).front.wake = s.clk + 1 ∧
        (t.strand n).ctl.epc = s.me.ctl.epc ∧ (t.strand n).regs = s.me.regs ∧ t.mem = s.mem) ∧
    (s.resuming .yield = none → s.me.ctl.preq = false → exec .yield s = .next s) ∧
    (∀ e, s.resuming .yield = some e → (s.core (coreOf n)).gang.on = false → s.me.flights = [] → s.me.wq = [] →
      (∀ x ∈ s.me.open_, x.id = e.id) → ∃ t, exec .yield s = .next t ∧ (t.strand n).front.yielded = true ∧
        (t.strand n).front.stopped = true ∧ (t.strand n).open_ = [] ∧ (t.strand n).regs = s.me.regs ∧ t.mem = s.mem) ∧
    (∀ m e, (m = n ∧ s.resuming .halt = some e) ∨ (s.openC m (fun i => decide (i = .halt)) = some e) →
      let i : Instr := if m = n ∧ s.resuming .halt = some e then .halt else .strandHalted m
      (((s.strand m).drainedBefore e.seq e.slot && (s.strand m).performedBefore e.seq e.slot) = true →
        ∃ t, exec i s = .next t ∧ (t.strand m).halted = true ∧ (t.strand m).front.haltedPc = some e.pc ∧
          (t.strand m).regs = (s.strand m).regs ∧ t.entry? m e.id = none ∧ t.mem = s.mem ∧
          ∀ k p, ((s.core (coreOf m)).muts.find? (fun y => y.1 == k && y.2.holder == some (posInCore m))) = some p →
            (posInCore m, Upd.unlock k (posInCore m) (s.pts m)) ∈ (t.core (coreOf m)).upds) ∧
      (((s.strand m).drainedBefore e.seq e.slot && (s.strand m).performedBefore e.seq e.slot) = false →
        exec i s = .next { s with cur := m }))

/-- What strands do to task queues and launch queues, each at the clock that ends it. `TENQ` completes by writing its record to
the slot SEQ mod 64 of a queue with room: the task enters the docent with the number SEQ, which rises by 1 and goes to D.
`TWAIT` completes once the counter has reached its operand, with the count, or raises the fault that it holds; `TWAIT_SATISFY`
is the same look. `TSTAT` completes at once with count, fault word, address or flags of a counter, and clears the last three on
request. `TCANCEL` ends every task of its range that is not dispatched, and completes with their number once the dispatched ones
are over, the queue's stop lifted. `LAUNCH` completes by the last store of its protocol, which publishes its record, with the
number of its slot. `PGPASS` of a page with no write pending, whose dirty tiles have been written back, completes by passing
the page and its flag at one stamp.
(That `TCANCEL` does not count the tasks already dispatched, which all complete, is the model's choice: log entry 12.) -/
def Obligations.StrandTasks : Prop :=
  ∀ (s : State) (d a b : BitVec 6) (p q w l c1 : Bool) (tcn : BitVec 3) (sel ws : BitVec 2),
    let n := s.cur
    (∀ e bd s1 s3 qpa tq, s.resuming (.tenq d a b p q) = some e → s.me.bound = some bd →
      s.me.performedBefore e.seq e.slot = true → e.step ≠ 0 →
      let qa : W64 := e.yv &&& ~~~63#64
      let img := leBytes 64 (e.z.headD VV.zero).v.toNat
      let r := (List.range 8).map (fun i => word64 img i)
      s.queuePa n e qa = (s1, some qpa) → s1.tqueue? qpa = some tq → tq.wing = wingOf n → tq.seqno - tq.ret ≠ 64 →
      (∀ x ∈ recWaits r tq.seqno.toNat, x < (tq.seqno.toNat : Int)) → bankOpnd r = none →
      s1.oneWrite n e (qa + 64 + BitVec.ofNat 64 (64 * (tq.seqno.toNat % 64))) img = (s3, true) → tq.stop = false →
      ∃ u, exec (.tenq d a b p q) s = .next u ∧ u.mem = s3.mem ∧ u.entry? n e.id = none ∧
        (∃ t, u.tasks = s3.tasks ++ [t] ∧ t.rec_ = r ∧ t.seqno = tq.seqno.toNat ∧ t.qpa = tq.qpa ∧ t.phase = .queued ∧
          t.strand = n ∧ t.wing = tq.wing ∧ t.bound = bd) ∧
        (u.tqueue? qpa).map TaskQueue.seqno = some (tq.seqno + 1) ∧
        (∀ y, e.dests = [.s y] → ∃ f ∈ (u.strand n).flights, f.id = e.id ∧ f.wbs = [.s y ⟨tq.seqno, false⟩])) ∧
    WaitsC s (.twait d a p tcn) (fun e t =>
      let x := (t.strand n).tc tcn.toNat
      if x.count.toNat < e.xv.toNat then t
      else if x.fault.getLsbD 63 then t.trapEntry n e (tcTrap x)
      else (t.setPts n (wmax (t.pts n) x.pts)).finishC n e [.s ⟨x.count, false⟩]) ∧
    (∀ m e dd aa pp cc, s.openC m (fun i => match i with
        | .twait .. => true
        | _ => false) = some e → e.instr = .twait dd aa pp cc →
      exec (.twaitSatisfy m) s = .next (twaitGo cc.toNat e { s with cur := m })) ∧
    RunsC s (.tstat d tcn sel l) (fun _ t =>
      let x := (t.strand n).tc tcn.toNat
      let t1 := if sel = 0 then t.setPts n (wmax (t.pts n) x.pts) else t
      let cleared : Tc := { x with fault := 0, addr := 0, flags := 0 }
      let t2 := if l then t1.modStrand n (fun st => { st with tcs := mset st.tcs tcn.toNat cleared }) else t1
      resultC t2 (.tstat d tcn sel l)
        (if sel = 0 then x.count else if sel = 1 then x.fault else if sel = 2 then x.addr else x.flags.zeroExtend 64)) ∧
    (∀ e s1 qpa tq, s.resuming (.tcancel d a b p q) = some e → s.me.performedBefore e.seq e.slot = true →
      s.queuePa n e (e.xv &&& ~~~63#64) = (s1, some qpa) → s1.tqueue? qpa = some tq → tq.wing = wingOf n →
      (e.step = 0 → ∃ t y, exec (.tcancel d a b p q) s = .next t ∧ t.entry? n e.id = some y ∧ y.step = 1 ∧
        y.aux = BitVec.ofNat 64 (s1.tasks.filter (fun x => x.qpa == qpa && decide (e.yv.toNat ≤ x.seqno) &&
          (decide (x.phase = .queued) || decide (x.phase = .parked)))).length ∧
        ∀ x ∈ t.tasks, x.qpa = qpa → e.yv.toNat ≤ x.seqno → x.phase ≠ .queued ∧ x.phase ≠ .parked) ∧
      (e.step ≠ 0 →
        s1.tasks.any (fun t => t.qpa == qpa && decide (e.yv.toNat ≤ t.seqno ∧ t.seqno < e.zv.toNat) && !t.isDone) = false →
        exec (.tcancel d a b p q) s =
          .next ((s1.modTq qpa (fun x => { x with stop := false, stopTrap := none })).finishC n e [.s ⟨e.aux, false⟩]))) ∧
    (∀ e s1, s.resuming (.launch d a b p q) = some e → s.me.performedBefore e.seq e.slot = true → e.step = 6 →
      s.me.posted.any (fun x => decide (x.id ≤ e.id) && !x.acked && !x.refused) = false →
      s.oneWrite n e ((e.yv &&& ~~~63#64) + 8) (leBytes 8 ((e.aux + 1).toNat)) = (s1, true) →
      exec (.launch d a b p q) s = .next (s1.finishC n e [.s ⟨e.aux, false⟩])) ∧
    (∀ e s2, s.resuming (.pgpass d a b p q w ws c1) = some e → e.step = 1 →
      let pg := unpackTlb ((e.z.drop 1).headD VV.zero)
      let fg := unpackTlb ((e.z.drop 2).headD VV.zero)
      let fa : W64 := if w then e.yv &&& ~~~3#64 else e.yv &&& ~~~7#64
      let lines := ((s.copiesOf (fun x => x.dirty && x.touches pg.page)).flatMap (fun k =>
        ((s.slotOf k.1 k.2).lines (List.range 64) ++ (s.slotOf k.1 k.2).own.map Prod.fst).filter
          (fun l => inPage pg.page (256 * l)))).eraseDups
      s.writePending e.id pg.page = false → s.taskPending pg.page = false →
      s.writeBackAll (fun x => x.touches pg.page) = (s2, none) →
      exec (.pgpass d a b p q w ws c1) s = .next (
        ((s2.passStamp n pg fg fa (if w then 4 else 8) ws.toNat c1 e.zv lines).openPage e.id).finishC n e []))

/-! ### Tile tasks (R302 to R327) -/

/-- Every kind of tile task is carried out once it has been dispatched: `WPRE`, `MMA`, `MMAS`, `DRAIN`, `TCPY`, `TSET`,
`TXPS`, `TRED`, `TWB`, `KVQ`, `CRS`, `CAG`, `CBAR`, each by the definition that the model has for its rule; `WSWP` exchanges the active and the shadow buffer; `ACLR`
clears the accumulators, partial sums, counts and poison of the rows from 64 AR on; `ITIN` reads its list and hands it to the
prefetch engine.
Where each completes: a task whose tiles are in the cache, or can be installed and written, whose formats its kind accepts
and whose addresses its windows admit, is carried out, keeps its server for its duration, and leaves the rest of its engine as it was.
A matrix engine of an integer weight type adds to each accumulator of a row the exact sum of products of the row's codes
with the column's weights, and clamps it to 32 signed bits, whatever the accumulator held; other rows keep theirs.
(The low three bits of the addresses of `CBAR` are ignored, and its places read so: the model's reading, log entry 50. It ends
once its add has left and its read is satisfied: log entry 51.) -/
def Obligations.TileTasks : Prop :=
  (∀ s : State,
    CarriesOut s .wpre 3 runWpre ∧ CarriesOut s .mma 1 (runMma 0) ∧ CarriesOut s .mmas 2 (runMma 1) ∧
    CarriesOut s .drain 5 runDrain ∧ CarriesOut s .tcpy 7 runTcpy ∧ CarriesOut s .tset 8 runTset ∧
    CarriesOut s .txps 9 runTxps ∧ CarriesOut s .tred 10 runTred ∧ CarriesOut s .twb 12 runTwb ∧
    CarriesOut s .kvq 13 runKvq ∧ CarriesOut s .crs 14 (runRows true) ∧ CarriesOut s .cag 15 (runRows false) ∧
    CarriesOut s .cbar 16 runCbar ∧
    (∀ uid t, DueTask s uid 11 t → exec (.itin uid) s = .next (s.startItin t)) ∧
    (∀ uid t, DueTask s uid 4 t → ∃ u, exec (.wswp uid) s = .next u ∧ u.mem = s.mem ∧ Carried s u uid 1 ∧
      u.engineOf t = { s.engineOf t with act := (s.engineOf t).shadow, shadow := (s.engineOf t).act }) ∧
    (∀ uid t, DueTask s uid 6 t → ∃ u, exec (.aclr uid) s = .next u ∧ u.mem = s.mem ∧
      let e := s.engineOf t
      let lo := 64 * recAr t.rec_
      let hi := lo + 64 * (recK t.rec_ 40 39 + 1)
      (∀ m n, n < 128 → mget (u.engineOf t).acc (128 * m + n) 0 = (if lo ≤ m ∧ m < hi then 0 else mget e.acc (128 * m + n) 0) ∧
        mget (u.engineOf t).part (128 * m + n) 0 = (if lo ≤ m ∧ m < hi then 0 else mget e.part (128 * m + n) 0)) ∧
      (∀ m, mget (u.engineOf t).cnt m 0 = if lo ≤ m ∧ m < hi then 0 else mget e.cnt m 0) ∧
      Carried s u uid (2 + 16 * (recK t.rec_ 40 39 + 1)) ∧
      (u.engineOf t).act = e.act ∧ (u.engineOf t).shadow = e.shadow)) ∧
  (∀ (s s1 : State) (uid : Nat) (t : Task) (l l' xs ys : List (Nat × Slot)) (x : Nat × Slot),
    let asid := t.bound.asid
    let o := opnd t.rec_ 0
    let q := opnd t.rec_ 1
    let e := s.engineOf t
    (DueTask s uid 3 t → s.tilesAt t (o.tags asid 1) = some (x :: l) →
      let d := x.2.tens
      let ke := weightKe (weightType d.fmt d.sck t.copy.mode) d.sck
      fmtCb d.fmt = false → weightType d.fmt d.sck t.copy.mode ≠ 0 → ke * (recAr t.rec_ + 1) ≤ d.e →
      ∃ u n, exec (.wpre uid) s = .next u ∧ Carried s u uid (64 + n) ∧ (u.engineOf t).act = e.act ∧ (u.engineOf t).acc = e.acc ∧
        (u.engineOf t).shadow.wt = weightType d.fmt d.sck t.copy.mode ∧ (u.engineOf t).shadow.ke = ke) ∧
    (∀ k, (k = 1 ∨ k = 2) → DueTask s uid k t → s.tilesAt t (o.tags asid 1) = some l →
      (∀ y ∈ l, e.act.wt ≠ 0 ∧ acceptsA e.act.wt e.act.ke y.2.tens.fmt y.2.tens.sck = true ∧ y.2.tens.e = e.act.ke ∧
        y.2.tens.sck = k - 1) →
      ∃ u n, exec (if k = 1 then .mma uid else .mmas uid) s = .next u ∧ n ≤ 8 * l.length ∧ Carried s u uid (12 + 8 * n) ∧
        (u.engineOf t).act = e.act ∧ (u.engineOf t).shadow = e.shadow) ∧
    (DueTask s uid 5 t → s.prepWrites t [o.tag asid 0 0] = .ok s1 (x :: l) → x.2.tens.sck = 0 →
      drainFmtOk (recK t.rec_ 39 37) x.2.tens.fmt = true →
      ∃ u, exec (.drain uid) s = .next u ∧ Carried s u uid 72) ∧
    (DueTask s uid 8 t → s.prepWrites t (o.tags asid o.n0) = .ok s1 l → (∀ y ∈ l, tsetOk t.rec_ y.2.tens = true) →
      ∃ u, exec (.tset uid) s = .next u ∧ Carried s u uid (16 * o.tiles)) ∧
    (∀ k, s.prepWrites t (q.tags asid q.n0) = .ok s1 ys → s1.tilesAt t (o.tags asid o.n0) = some xs → DueTask s uid k t →
      (k = 7 → (∀ y ∈ xs.zip ys, y.1.2.tens.fmt = y.2.2.tens.fmt ∧ y.1.2.tens.sck = y.2.2.tens.sck ∧
          y.1.2.tens.cbk = y.2.2.tens.cbk) →
        ∃ u, exec (.tcpy uid) s = .next u ∧ Carried s u uid (32 * (xs.zip ys).length)) ∧
      (k = 9 → (∃ a b r, xs.zip ys = (a, b) :: r ∧ a.2.tens.fmt = b.2.tens.fmt ∧ a.2.tens.sck = 0 ∧ b.2.tens.sck = 0 ∧
          (a.2.tens.w = 8 ∨ a.2.tens.w = 16 ∨ a.2.tens.w = 32) ∧ 64 * recK t.rec_ 47 46 < a.2.tens.e ∧
          64 * recK t.rec_ 45 44 < a.2.tens.e) →
        ∃ u, exec (.txps uid) s = .next u ∧ Carried s u uid 40) ∧
      (k = 10 → (∀ y ∈ xs.zip ys, y.1.2.tens.fmt = y.2.2.tens.fmt ∧ y.1.2.tens.sck = 0 ∧ y.2.2.tens.sck = 0 ∧
          redFmt y.1.2.tens.fmt = true) →
        ∃ u, exec (.tred uid) s = .next u ∧ Carried s u uid (48 * (xs.zip ys).length))) ∧
    (DueTask s uid 12 t → s.tilesAt t (o.tags asid o.n0) = some xs →
      (∀ g ∈ o.tags asid o.n0, s.copiesOf (fun y => y.tag == g && y.dirty) = []) →
      ∃ u, exec (.twb uid) s = .next u ∧ Carried s u uid (32 * o.tiles) ∧ u.mem = s.mem) ∧
    (DueTask s uid 13 t → s.prepWrites t [q.tag asid 0 0] = .ok s1 (x :: l) →
      (∃ y, s1.tilesAt t (o.tags asid (s.kvqWide t)) = some (y :: l') ∧ (y.2.tens.fmt = 6 ∨ y.2.tens.fmt = 7) ∧
        y.2.tens.sck = 0) →
      kvqFormatOk x.2.tens.fmt x.2.tens.sck t.copy.mode = true → fmtCb x.2.tens.fmt = false →
      ∃ u, exec (.kvq uid) s = .next u ∧ Carried s u uid (64 + 32 * s.kvqWide t)) ∧
    (∀ (y : Slot), s.tile t (o.tag asid 0 0) = some x → s.windowTile t (q.tag asid 0 0) = (s1, .ok y) →
      x.2.tens.fmt = y.tens.fmt → x.2.tens.sck = y.tens.sck → x.2.tens.cbk = y.tens.cbk →
      (DueTask s uid 14 t → x.2.tens.sck = 0 → (y.tens.fmt = 6 ∨ y.tens.fmt = 7 ∨ y.tens.fmt = 4) →
        ∃ u, exec (.crs uid) s = .next u ∧ Carried s u uid 1) ∧
      (DueTask s uid 15 t → ∃ u, exec (.cag uid) s = .next u ∧ Carried s u uid 1)) ∧
    (∀ w dst pa, DueTask s uid 16 t → s.barPlaces t = (s1, .ok (w, dst, pa)) →
      ∃ u, exec (.cbar uid) s = .next u ∧ Carried s u uid 1 ∧ ∀ z ∈ u.tasks, z.uid = t.uid →
        z.out = [⟨((t.rec_.drop 2).headD 0) &&& ~~~7#64, dst, .add, pa, atOffsets 0 (leBytes 8 1), w⟩]) ∧
    (∀ ops p, DueTask s uid 11 t →
      s.readList t ((t.rec_.drop 2).headD 0) (recK t.rec_ 47 40 + 1) [] t.fork = (s1, .ok (ops, p)) →
      (∀ y ∈ ops, Opnd.passes y (Opnd.n0 y) = false) →
      ∃ u, exec (.itin uid) s = .next u ∧ ∀ z ∈ u.tasks, z.uid = t.uid → z.ran = true ∧ z.ops = ops)) ∧
  (∀ (e : Engine) (fmt pm1 m w : Nat) (a : List Nat) (ea : Nat → Int) (bad : Bool),
    (EFmt.ofCode e.act.wt).int? = some w →
    let sum (n : Nat) : Int := ((List.range a.length).map (fun k =>
      sIntN w ((a.drop k).headD 0) * sIntN w (mget e.act.w (128 * k + n) 0))).sum
    (∀ n < 128, mget (e.feed fmt pm1 m a ea bad).1.acc (128 * m + n) 0 =
      (clamp32 ((mget e.acc (128 * m + n) 0).toInt + sum n)).1) ∧
    (∀ m' n, n < 128 → m' ≠ m → mget (e.feed fmt pm1 m a ea bad).1.acc (128 * m' + n) 0 = mget e.acc (128 * m' + n) 0) ∧
    (e.feed fmt pm1 m a ea bad).1.act = e.act)

/-- How tile tasks begin and end. `DOCENT_GRANT` of a wing whose only task is eligible and has its tiles dispatches it for its
nominal duration. `TASK_COMPLETE` of a task with nothing outstanding ends it once its time has come: its counter rises by 1
and takes its flags, and a fault stops the queue instead. `QUEUE_DETACH` writes an idle queue's SEQ and RET, and 0 to the STOP
bit alone, to its header, and forgets it. `TILE_FILL_COMPLETE` of a placed fill reads its tensor's descriptor, then plans its
reads, then installs the copy once its window reads have all returned; a fault of any of these ends the fill with it. -/
def Obligations.TaskLifecycle : Prop :=
  (∀ (s s1 s2 : State) (w : Nat) (t t' : Task), s.tasks = [t] → t.wing = w → s.eligible t = true → s.docentHeld w = false →
    let o : Offer := ⟨t.bound.qnum, t.bound.lid, t.qpa, Nat.min (s.nominal t) 16384, t.uid⟩
    let arb := (s.wing w).docent.enter [t.bound.qnum]
    (s.modWing w (fun g => { g with docent := arb })).takeUp t = (s1, t') → s1.askTiles t' = (s2, .ready) →
    let u1 := (s2.modWing w (fun g => { g with docent := arb.grant (s.tickets o.q) o })).dispatchTask t'
    (∀ x ∈ u1.tasks, u1.eligible x = false) →
    ∃ u, exec (.docentGrant w) s = .next u ∧ u.tasks = u1.tasks ∧ u.mem = s2.mem) ∧
  (∀ (s : State) (w : Nat), (∀ t ∈ s.tasks, t.wing = w → t.phase ≠ .queued ∧ t.phase ≠ .parked) →
    ∃ u, exec (.docentGrant w) s = .next u ∧ u.mem = s.mem ∧ u.tasks = s.tasks ∧ u.agenda = s.agenda) ∧
  (∀ (s : State) (uid due : Nat) (t : Task), s.task? uid = some t → t.phase = .dispatched due → t.ran = true →
    t.ops = [] → t.out = [] → t.pend = 0 → due ≤ s.clk → t.kind ≠ 11 →
    (t.fault = none → ∃ u, exec (.taskComplete uid) s = .next u ∧ u.mem = s.mem ∧
      (∀ x ∈ u.tasks, x.uid = uid → x.phase = .done) ∧
      (s.saved = [] → (s.strand t.strand).bound.any (fun b => b.lid == t.bound.lid && b.grp == t.bound.grp) = true →
        ((u.strand t.strand).tc (recTc t.rec_)).count = ((s.strand t.strand).tc (recTc t.rec_)).count + 1 ∧
        ((u.strand t.strand).tc (recTc t.rec_)).flags = ((s.strand t.strand).tc (recTc t.rec_)).flags ||| t.flags ∧
        ((u.strand t.strand).tc (recTc t.rec_)).fault = ((s.strand t.strand).tc (recTc t.rec_)).fault)) ∧
    (∀ f, t.fault = some f → ∃ u, exec (.taskComplete uid) s = .next u ∧ u.mem = s.mem ∧
      (∀ x ∈ u.tasks, x.uid = uid → x.phase = .done) ∧ (∀ q ∈ u.tqueues, q.qpa = t.qpa → q.stop = true))) ∧
  (∀ (s : State) (uid due : Nat) (t : Task), s.task? uid = some t → t.phase = .dispatched due → t.ran = true →
    s.clk < due → t.fault = none → t.kind ≠ 11 → t.out = [] → exec (.taskComplete uid) s = .next s) ∧
  (∀ (s : State) (qpa : Nat) (q : TaskQueue), s.tqueue? qpa = some q →
    let idle := decide (q.seqno = q.ret) && !q.stop && !(s.wing q.wing).engines.any (fun e => e.2.claim == some qpa) &&
      !s.tasks.any (fun t => t.qpa == qpa)
    let old := leNat (s.readBytes (qpa + 16) 1)
    let header := leBytes 8 q.seqno.toNat ++ leBytes 8 q.ret.toNat ++ leBytes 1 (old - old % 2)
    (idle = false → exec (.queueDetach qpa) s = .next s) ∧
    (idle = true → ∃ u, exec (.queueDetach qpa) s = .next u ∧ u.tqueue? qpa = none ∧ u.tasks = s.tasks ∧
      ∀ a, u.readBytes a 1 = if qpa ≤ a ∧ a < qpa + 17 then (header.drop (a - qpa)).take 1 else s.readBytes a 1)) ∧
  (∀ (s s1 : State) (w id : Nat) (f : Fill) (l : List Rd),
    (s.wing w).fills.find? (fun f => f.id == id && !f.done && f.placed && !f.zero) = some f →
    let p := s.planFill w f.bound f.tag f.tens
    (f.desc = false → ∀ g, s.tileDesc f.bound w f.tag (f.waiters.foldl (fun p who => wmax p (s.waiterPts who)) 0) .poison = (s1, g) →
      (∀ t, g = .bad t → exec (.tileFillComplete w id) s = .next (s1.failFill w f t)) ∧
      (g = .wait → exec (.tileFillComplete w id) s = .next s1)) ∧
    (f.desc = true → f.planned = false →
      (∀ t, p.plan.verdict = some t → exec (.tileFillComplete w id) s = .next (p.plan.st.failFill w f t)) ∧
      (p.plan.verdict = none → p.plan.miss = true → exec (.tileFillComplete w id) s = .next (p.plan.st.modWing w (fun y =>
        { y with fills := y.fills.map (fun x => if x.id = id then f else x) })))) ∧
    (f.desc = true → f.planned = true → s.windowReads (.fill w f.id) f.bound.part f.rds [] = (s1, l, true) →
      s1.sliceFull f.tag f.slice = false → (s1.wing w).find f.tag = none →
      ∃ u, exec (.tileFillComplete w id) s = .next u ∧ (u.slotOf w (16 * f.set + f.way)).v = true ∧
        (u.slotOf w (16 * f.set + f.way)).tag = f.tag ∧ (u.slotOf w (16 * f.set + f.way)).tens = f.tens ∧
        ∀ x ∈ (u.wing w).fills, x.id = f.id → x.done = true)) ∧
  (∀ (s : State) (w id : Nat), (s.wing w).fills.find? (fun f => f.id == id && !f.done && f.placed && !f.zero) = none →
    exec (.tileFillComplete w id) s = .next s)

/-! ### The fabric (R342 to R358) -/

/-- `REQUEST_PACKET_ARRIVAL`: a packet for another module, of either class, goes on over the hop that the table names, if that link
works; one of another epoch than its source's entry changes nothing. The expected one of a pair waits behind the other inputs
while a `PGPASS` has a page that it writes closed, and else, with none held, completes: it is refused when
its entry says so, or else acts as one access of the commit agent: a store or multicast writes its bytes, and a multicast goes
on to the next target of its chain; an add raises its counter by 1; a load or an atomic sends back what was there; the 64th
commit sends the acknowledgement. One ahead by less than 4,096 is held, once; one already seen is acknowledged again; one
further ahead is dropped; one whose address lies outside module memory stops the model. `ACK_TIMER` sends the
acknowledgement owed. What is sent leaves over the first hop, and a failed link carries nothing.
(The stop at a reserved address, the course of a multicast's chain and the numbers of the packets' kinds are the model's choice: log
entries 58, 54 and 14.) -/
def Obligations.RequestsArrive : Prop :=
  ∀ (s : State) (src dst seq epoch part kind pa : Nat) (data : List Byte),
    let i : Instr := .requestPacketArrival src dst seq epoch part kind pa data
    let p := s.fabric.pairDst src
    let ahead := (seq + 2 ^ 32 - p.expected % 2 ^ 32) % 2 ^ 32
    let bytes := pktBytes data
    let response := kind % 8 = 7
    let ours := some dst = s.fabric.own ∧ epoch = idEpoch (s.fabric.entry src) ∧ ¬ response
    let shut := s.fabric.refuses src part = false ∧ (∃ k, pktKindOf kind = some k ∧ ∀ len, k ≠ .load len) ∧
      (s.closedAt pa = true ∨ ∃ b ∈ bytes, s.closedAt (pa + b.1) = true)
    let sends (num : Nat) (o : Hop → Out) : List Out := match s.fabric.hop num with
      | some h => s.fabric.sent ++ [o h]
      | none => s.fabric.sent
    let refs (c : Nat) (l : List Nat) : List Nat := l.filter (fun r => decide ((c + 2 ^ 32 - r) % 2 ^ 32 < 4096))
    let seen := (p.expected + 2 ^ 32 - 1) % 2 ^ 32
    let bit (m : Bool) : List Byte := if m then [1] else []
    (response → (some dst = s.fabric.own → exec i s = .next s) ∧
      (some dst ≠ s.fabric.own → ∃ t, exec i s = .next t ∧ t.mem = s.mem ∧
        t.fabric.sent = sends dst (fun h => .response h src dst seq kind data))) ∧
    (some dst ≠ s.fabric.own → ¬ response → (pktKindOf kind = none → exec i s = .next s) ∧
      (∀ k, pktKindOf kind = some k → ∃ t, exec i s = .next t ∧ t.mem = s.mem ∧ t.fabric.dst = s.fabric.dst ∧
        t.fabric.sent = sends dst (fun h => .packet h src dst seq epoch part k pa bytes))) ∧
    (some dst = s.fabric.own → epoch ≠ idEpoch (s.fabric.entry src) → exec i s = .next s) ∧
    (ours → ahead = 0 → shut → exec i s = .next { s with inbox := s.inbox ++ [i] }) ∧
    (ours → ahead = 0 → p.held = [] → ¬ shut →
      ((s.fabric.refuses src part = true ∨ ∀ k, pktKindOf kind = some k → pktInside k pa bytes = true) →
        ∃ t, exec i s = .next t ∧ (t.fabric.pairDst src).expected = (seq % 2 ^ 32 + 1) % 2 ^ 32) ∧
      (p.unackedN + 1 < 64 → s.fabric.refuses src part = true → ∃ t, exec i s = .next t ∧ t.mem = s.mem ∧
        (t.fabric.pairDst src).expected = (seq % 2 ^ 32 + 1) % 2 ^ 32 ∧
        (t.fabric.pairDst src).refusals = p.refusals ++ [seq % 2 ^ 32] ∧
        ((∀ c, pktKindOf kind ≠ some (.mcst c)) → t.fabric.sent = s.fabric.sent)) ∧
      (∀ k, s.fabric.refuses src part = false → pktKindOf kind = some k →
        (pktInside k pa bytes = false → exec i s = .fault .reservedAddress) ∧
        (p.unackedN + 1 < 64 → pktInside k pa bytes = true → (k = .store ∨ ∃ c, k = .mcst c) → ∃ t, exec i s = .next t ∧
          (∀ a, t.readBytes a 1 = match (bytes.map (fun b => (pa + b.1, b.2))).reverse.find? (fun b => b.1 == a) with
            | some b => [b.2]
            | none => s.readBytes a 1) ∧
          (t.fabric.pairDst src).expected = (seq % 2 ^ 32 + 1) % 2 ^ 32 ∧
          (t.fabric.pairDst src).unackedN = p.unackedN + 1 ∧ (t.fabric.pairDst src).owed = p.owed + 1 ∧
          (t.fabric.pairDst src).refusals = p.refusals ∧
          (k = .store → t.fabric.sent = s.fabric.sent) ∧
          ∀ l q c, k = .mcst ((l, q) :: c) → some l ≠ s.fabric.own →
            t.fabric.sent = sends l (fun h => .packet h src l q epoch part (.mcst c) pa bytes)) ∧
        (p.unackedN = 63 → k = .store → pktInside k pa bytes = true → some src ≠ s.fabric.own → ∃ t, exec i s = .next t ∧
          t.fabric.sent = sends src (fun h => .ack h src (seq % 2 ^ 32) (refs (seq % 2 ^ 32) p.refusals)) ∧
          (t.fabric.pairDst src).unackedN = 0 ∧ (t.fabric.pairDst src).owed = 0) ∧
        (p.unackedN + 1 < 64 → k = .add → pktInside k pa bytes = true → ∃ t, exec i s = .next t ∧
          ∀ a, t.readBytes a 1 = if pa ≤ a ∧ a < pa + 8 then
              [(BitVec.ofNat 64 (leNat (s.readBytes pa 8) + 1)).extractLsb' (8 * (a - pa)) 8]
            else s.readBytes a 1) ∧
        (∀ len, k = .load len → pktInside k pa bytes = true → some src ≠ s.fabric.own → p.unackedN + 1 < 64 →
          ∃ t, exec i s = .next t ∧ (∀ a, t.readBytes a 1 = s.readBytes a 1) ∧ (t.fabric.pairDst src).owed = p.owed ∧
          t.fabric.sent = sends src (fun h => .data h src (seq % 2 ^ 32)
            (s.readBytes pa len ++ bit ((linesOf pa len).any s.marked)))) ∧
        (∀ op, k = .atomic op → pktInside k pa bytes = true → some src ≠ s.fabric.own → op ≠ 9 → p.unackedN + 1 < 64 →
          ∃ t, exec i s = .next t ∧ t.fabric.sent = sends src (fun h => .data h src (seq % 2 ^ 32)
            (leBytes 8 (leNat (s.readBytes pa 8)) ++ bit (s.marked (pa / 256))))))) ∧
    (ours → ahead ≠ 0 → ahead < 4096 →
      ((p.held.any (fun x => x.seqno == seq % 2 ^ 32) = true ∨ 16384 ≤ s.fabric.reorder) → exec i s = .next s) ∧
      (p.held.any (fun x => x.seqno == seq % 2 ^ 32) = false → s.fabric.reorder < 16384 → ∃ t, exec i s = .next t ∧
        t.mem = s.mem ∧ t.fabric.reorder = s.fabric.reorder + 1 ∧
        (t.fabric.pairDst src).held = p.held ++ [⟨seq % 2 ^ 32, epoch, part, kind, pa, data⟩] ∧
        (t.fabric.pairDst src).expected = p.expected)) ∧
    (ours → 4096 ≤ ahead → ahead < 2 ^ 31 → exec i s = .next s) ∧
    (ours → 2 ^ 31 ≤ ahead → some src ≠ s.fabric.own → ∃ t, exec i s = .next t ∧ t.mem = s.mem ∧
      t.fabric.sent = sends src (fun h => .ack h src seen (refs seen p.refusals))) ∧
    (p.owed = 0 → exec (.ackTimer src) s = .next s) ∧
    (p.owed ≠ 0 → some src ≠ s.fabric.own → ∃ t, exec (.ackTimer src) s = .next t ∧ t.mem = s.mem ∧
      t.fabric.sent = sends src (fun h => .ack h src seen (refs seen p.refusals)) ∧
      (t.fabric.pairDst src).unackedN = 0 ∧ (t.fabric.pairDst src).owed = 0 ∧
      (t.fabric.pairDst src).refusals = refs seen p.refusals)

/-- The source side. `ACK_RECEIVED` that covers nothing retained changes nothing; else the packets it covers leave the
retention buffer, the others stay, the pair's clock starts again, and of its posted stores a strand keeps a record of those that
are not covered and of those refused.
`RETENTION_RESEND` sends every retained packet again, in order, over the first hop, when something of the pair has waited
65,536 clocks and the number is not held; `DESTINATION_FAILURE_REPORT` tells the Curator once, after 2^24.
`LINK_RETRAIN_FAIL` takes a link out of use and is reported once; `FLIT_CRC_RETRY` changes nothing that the model holds. -/
def Obligations.RetainedRequests : Prop :=
  ∀ (s : State) (dst c idx : Nat) (glob : Bool) (refusals : List Nat),
    let p := s.fabric.pairSrc dst
    let covered (k : Packet) : Bool := decide ((c + 2 ^ 32 - k.seqno) % 2 ^ 32 < 2 ^ 31)
    let gone := p.unacked.filter covered
    let stale (n : Nat) : Bool := p.unacked.any (fun k => !k.back) && !idHold (s.fabric.entry dst) && decide (p.advanced + n ≤ s.clk)
    (gone = [] → exec (.ackReceived dst c refusals) s = .next s) ∧
    (gone ≠ [] → ∃ t, exec (.ackReceived dst c refusals) s = .next t ∧
      (t.fabric.pairSrc dst).unacked = p.unacked.filter (fun k => !covered k) ∧
      (t.fabric.pairSrc dst).advanced = s.clk ∧ (t.fabric.pairSrc dst).reported = false) ∧
    (gone ≠ [] → (∀ k ∈ gone, k.kind.returns = false ∨ k.seqno ∉ refusals) → (∀ k ∈ gone, ∃ n id, k.who = .op n id) →
      ∃ t, exec (.ackReceived dst c refusals) s = .next t ∧ t.mem = s.mem ∧
        t.fabric.pairSrc dst = { p with unacked := p.unacked.filter (fun k => !covered k), advanced := s.clk, reported := false } ∧
        ∀ n, t.strand n = { s.strand n with posted := (s.strand n).posted.filterMap (fun q =>
          if q.dst = dst ∧ q.seqno ∈ gone.map Packet.seqno then
            (if q.seqno ∈ refusals then some { q with refused := true } else if q.refused = true then some q else none)
          else some q) }) ∧
    (stale 65536 = false → exec (.retentionResend dst) s = .next s) ∧
    (stale 65536 = true → some dst ≠ s.fabric.own →
      ∃ t, exec (.retentionResend dst) s = .next t ∧ t.mem = s.mem ∧
        t.fabric.sent = s.fabric.sent ++ (match s.fabric.hop dst with
          | some h => p.unacked.map (fun k =>
              .packet h s.fabric.ownNum dst k.seqno s.fabric.ownEpoch k.part k.kind k.pa k.bytes)
          | none => []) ∧
        (t.fabric.pairSrc dst).unacked.map Packet.seqno = p.unacked.map Packet.seqno ∧ (t.fabric.pairSrc dst).next = p.next) ∧
    ((stale (2 ^ 24) = false ∨ p.reported = true) → exec (.destinationFailureReport dst) s = .next s) ∧
    (stale (2 ^ 24) = true → p.reported = false → ∃ t, exec (.destinationFailureReport dst) s = .next t ∧ t.mem = s.mem ∧
      t.fabric.reports = s.fabric.reports ++ [[1, dst]] ∧ (t.fabric.pairSrc dst).reported = true) ∧
    ((glob, idx) ∈ s.fabric.failedLinks → exec (.linkRetrainFail glob idx) s = .next s) ∧
    ((glob, idx) ∉ s.fabric.failedLinks → ∃ t, exec (.linkRetrainFail glob idx) s = .next t ∧ t.mem = s.mem ∧
      t.fabric.failedLinks = s.fabric.failedLinks ++ [(glob, idx)] ∧ t.fabric.src = s.fabric.src ∧
      t.fabric.reports = s.fabric.reports ++ [[2, if glob then 1 else 0, idx]]) ∧
    exec (.flitCrcRetry glob idx) s = .next s

/-- Identity tables, windows and takeover: a shadow entry is written, the banks swap and the new shadow bank is a copy of the
new active one, the module's number with it, and the numbers of a pair begin at 0 when its entry is first enabled; a window
register takes its two words; step 1 of a takeover sets HOLD, bit 29,
of one entry in both banks; step 2 reports the number, the oldest retained number and the number expected; step 3 writes the
image, the entries and the pairs' numbers in the spare, and stops the model on an image that reaches outside module memory.
(The stop at an image that reaches outside module memory is the model's choice: log entry 58.) -/
def Obligations.IdentityAndTakeover : Prop :=
  ∀ (s : State) (idx w lmn : Nat) (x : W32) (w0 w8 : W64) (own : Option Nat) (entries : List (Nat × W32))
    (seqs : List (Nat × Nat × Nat)) (image : List (Nat × Byte)),
    let f := s.fabric
    (2 ^ 15 ≤ idx → exec (.identityShadowWrite idx x) s = .next s) ∧
    (idx < 2 ^ 15 → ∃ t, exec (.identityShadowWrite idx x) s = .next t ∧ t.mem = s.mem ∧ t.fabric.active = f.active ∧
      ∀ l, mget t.fabric.shadow l 0 = if l = idx then x else mget f.shadow l 0) ∧
    (∃ t, exec (.identitySwap own) s = .next t ∧ t.mem = s.mem ∧ t.fabric.active = f.shadow ∧ t.fabric.shadow = f.shadow ∧
      t.fabric.own = (match own with
        | some n => some n
        | none => f.own) ∧ t.strands = s.strands ∧
      ∀ l e, mget? f.shadow l = some e → idEn e = true → l ∉ f.enabled →
        (t.fabric.pairSrc l).next = 0 ∧ (t.fabric.pairDst l).expected = 0) ∧
    (64 ≤ w → exec (.windowRegisterWrite w w0 w8) s = .next s) ∧
    (w < 64 → ∃ t, exec (.windowRegisterWrite w w0 w8) s = .next t ∧ t.mem = s.mem ∧
      ∀ v, t.fabric.window v = if v = w then (w0, w8) else f.window v) ∧
    (∃ t, exec (.takeoverHold lmn) s = .next t ∧ t.mem = s.mem ∧ t.fabric.src = f.src ∧
      ∀ l, mget t.fabric.active l 0 = (if l = lmn then mget f.active l 0 ||| 0x20000000#32 else mget f.active l 0) ∧
        mget t.fabric.shadow l 0 = (if l = lmn then mget f.shadow l 0 ||| 0x20000000#32 else mget f.shadow l 0)) ∧
    (∃ t, exec (.takeoverReport lmn) s = .next t ∧ t.mem = s.mem ∧ t.fabric.src = f.src ∧
      t.fabric.reports = f.reports ++ [[3, lmn, (match (f.pairSrc lmn).unacked with
        | k :: _ => k.seqno
        | [] => (f.pairSrc lmn).next), (f.pairDst lmn).expected]]) ∧
    (image.all (fun b => inModule b.1 1) = false →
      exec (.spareSetup lmn entries seqs image) s = .fault .reservedAddress) ∧
    (image.all (fun b => inModule b.1 1) = true → entries.Pairwise (fun a b => a.1 ≠ b.1) →
      seqs.Pairwise (fun a b => a.1 ≠ b.1) → ∃ t, exec (.spareSetup lmn entries seqs image) s = .next t ∧
      (∀ a, t.readBytes a 1 = match image.reverse.find? (fun b => b.1 == a) with
        | some b => [b.2]
        | none => s.readBytes a 1) ∧ t.fabric.own = some lmn ∧
      (∀ e ∈ entries, mget t.fabric.active e.1 0 = e.2 ∧ mget t.fabric.shadow e.1 0 = e.2) ∧
      (∀ y ∈ seqs, (t.fabric.pairDst y.1).expected = y.2.1 % 2 ^ 32 ∧ (t.fabric.pairSrc y.1).next = y.2.2 % 2 ^ 32))

/-- The host ports and the clock. A snoop write stores its bytes in host memory, each line by the agent of the port where the
line's home is; a snoop read and a read of module memory answer with the bytes there and change none, a write of module memory
waits while a `PGPASS` has its page closed, and then stores them and is answered when done; an address outside the memory meant stops the model. `PTS_TICK` raises the pts of every
strand, of the front-end and of the commit agent by 1; `PATROL_SCRUB` changes neither data nor stamps.
(The stop at an address outside the memory meant is the model's choice: log entry 58.) -/
def Obligations.HostAndClock : Prop :=
  ∀ (s : State) (port pa len line : Nat) (data : List Byte),
    let hostRange (n : Nat) : Prop := paKind pa = .host ∧ paKind (pa + n - 1) = .host
    let stores (t : State) : Prop := ∀ a, t.readBytes a 1 =
      if pa ≤ a ∧ a < pa + data.length then (data.drop (a - pa)).take 1 else s.readBytes a 1
    let keeps (t : State) : Prop := ∀ a, t.readBytes a 1 = s.readBytes a 1
    (data = [] → exec (.hostSnoopWrite port pa data) s = .next s) ∧
    (data ≠ [] → ¬ hostRange data.length → exec (.hostSnoopWrite port pa data) s = .fault .reservedAddress) ∧
    (data ≠ [] → hostRange data.length → ∃ t, exec (.hostSnoopWrite port pa data) s = .next t ∧ stores t ∧
      t.strands = s.strands ∧ (∀ p, p ∉ (linesOf pa data.length).map (fun l => l % 4) →
        mget t.portPts p 0 = mget s.portPts p 0)) ∧
    (len = 0 → exec (.hostSnoopRead port pa len) s = .next s) ∧
    (len ≠ 0 → ¬ hostRange len → exec (.hostSnoopRead port pa len) s = .fault .reservedAddress) ∧
    (len ≠ 0 → hostRange len →
      ∃ t, exec (.hostSnoopRead port pa len) s = .next t ∧ keeps t ∧ t.strands = s.strands ∧
        t.fabric.sent = s.fabric.sent ++ [.hostData port (s.readBytes pa len)]) ∧
    let shut := ∃ a, pa ≤ a ∧ a < pa + data.length ∧ s.closedAt a = true
    (pa + data.length ≤ 0x018000000000 → shut → ∃ t, exec (.hostMemAccess port true pa len data) s = .next t ∧ keeps t ∧
      t.strands = s.strands ∧ .hostMemAccess port true pa len data ∈ t.inbox ∧ ∀ x ∈ s.inbox, x ∈ t.inbox) ∧
    (pa + data.length ≤ 0x018000000000 → ¬ shut → ∃ t, exec (.hostMemAccess port true pa len data) s = .next t ∧
      stores t ∧ t.strands = s.strands ∧ t.fabric.sent = s.fabric.sent ++ [.hostDone port]) ∧
    (pa + len ≤ 0x018000000000 → ∃ t, exec (.hostMemAccess port false pa len data) s = .next t ∧ keeps t ∧
      t.strands = s.strands ∧ t.fabric.sent = s.fabric.sent ++ [.hostData port (s.readBytes pa len)]) ∧
    (0x018000000000 < pa + len → exec (.hostMemAccess port false pa len data) s = .fault .reservedAddress) ∧
    (0x018000000000 < pa + data.length → exec (.hostMemAccess port true pa len data) s = .fault .reservedAddress) ∧
    (∃ t, exec .ptsTick s = .next t ∧ t.mem = s.mem ∧ t.homes = s.homes ∧ t.frontPts = s.frontPts + 1 ∧
      t.fabric.commitPts = s.fabric.commitPts + 1 ∧
      ∀ n, (mget? s.strands n).isSome = true → t.pts n = s.pts n + 1 ∧ (t.strand n).regs = (s.strand n).regs) ∧
    exec (.patrolScrub line) s = .next s

/-! ### Launches, saves, upkeep (R80 to R99, R374 to R402) -/

/-- Contexts and launch queues. A context record is registered once; an address that is not aligned or not in module memory stops
the model (its own choice, log entries 85 and 58); a queue below 1,024 is registered with its base, context and tickets, and the slots it had skipped stay recorded; `TICKET_SET`
changes the tickets alone. `LAUNCH_ACCEPT` with a free handle copies the record at HEAD, advances HEAD by 1 and gives the launch
the lowest free handle (the model's choice, log entry 73). `SKIP` of the slot at TAIL below RESV advances TAIL and records the
slot, and waits while 16 are recorded or the page of TAIL is closed; of any other slot it is refused and reported; of a queue
that failed it waits (the model's choice, log entry 79). `SKIP_DISCARD` advances HEAD past a recorded slot, and changes nothing
but what reading the queue changes where HEAD stands at no such slot and no skip waits that could go on.
The command port (Tables 4-9, 4-10), by whichever event a command arrives: a command with reserved bits set or an unknown
operation is refused with cause 7; a bind record that the checks of R92 refuse is refused with their cause; an accepted one
takes the lowest free entry of the Placement Table; a cancel of an unknown launch, or of one whose groups have all completed, is
accepted with nothing done, one of a live launch marks it cancelled and kills it from the next clock on. -/
def Obligations.LaunchQueues : Prop :=
  (∀ (s : State) (pa num ctx tickets qbase n : Nat),
    ((pa % 64 ≠ 0 ∨ 0x018000000000 < pa + 64) → exec (.contextRegister pa) s = .fault .reservedAddress) ∧
    (pa % 64 = 0 → pa + 64 ≤ 0x018000000000 →
      exec (.contextRegister pa) s = .next (if s.contexts.any (fun c => c.pa == pa) then s
        else { s with contexts := s.contexts ++ [⟨pa, []⟩] })) ∧
    (1024 ≤ num → exec (.queueRegister num qbase ctx tickets) s = .next s) ∧
    (num < 1024 → ∃ t q, exec (.queueRegister num qbase ctx tickets) s = .next t ∧
      mget? t.lqueues num = some q ∧ q.qbase = BitVec.ofNat 64 qbase ∧ q.ctx = ctx ∧ q.tickets = tickets ∧
      ((∀ o, mget? s.lqueues num = some o → o.waitSkips = []) → t.mem = s.mem ∧ q.failed = false ∧
        q.skips = ((mget? s.lqueues num).map LaunchQueue.skips).getD []) ∧
      ∀ m, m ≠ num → mget? t.lqueues m = mget? s.lqueues m) ∧
    (∃ t, exec (.ticketSet num tickets) s = .next t ∧ t.mem = s.mem ∧
      mget? t.lqueues num = (mget? s.lqueues num).map (fun q => { q with tickets := tickets })) ∧
    (∀ q lid s1 cw h s2 bs s3, mget? s.lqueues num = some q → s.freeHandle = some lid → q.failed = false →
      s.cur8.recovery = false → s.queueHead q = (s1, some (cw, h)) → h.logsz ≤ 16 → h.head < h.tail →
      q.skips.contains (BitVec.ofNat 64 h.head) = false →
      s1.frontClosed (ctxSpace cw 0) (q.qbase + 16) = false →
      s1.frontGet (ctxSpace cw 0) (q.slotVa h.logsz h.head) 64 = (s2, .ok bs) →
      s2.frontPut (ctxSpace cw 0) (q.qbase + 16) (leBytes 8 (h.head + 1)) = (s3, true) →
      ∃ t l, exec (.launchAccept num) s = .next t ∧ t.mem = s3.mem ∧ mget? t.launches lid = some l ∧
        l.rec_ = (List.range 8).map (word64 bs) ∧ l.qnum = num ∧ l.cancelled = false ∧
        l.rejected = (ctxBad cw || recordBad l.rec_) ∧ t.nextQueue = (num + 1) % 1024) ∧
    (mget? s.lqueues num = none → exec (.launchAccept num) s = .next s ∧ exec (.skip num n) s = .next s ∧
      exec (.skipDiscard num) s = .next s) ∧
    (∀ q, mget? s.lqueues num = some q → q.failed = true →
      exec (.skip num n) s = .next (s.holdSkip q.num n) ∧ exec (.skipDiscard num) s = .next s) ∧
    (∀ q s1 cw h, mget? s.lqueues num = some q → q.failed = false → s.queueHead q = (s1, some (cw, h)) →
      ((n ≠ h.tail ∨ h.resv ≤ n) → ∃ t, exec (.skip num n) s = .next t ∧ t.mem = s1.mem ∧ t.lqueues = s1.lqueues ∧
        t.cur8.log = s1.cur8.log ++ [3 + 8 * (q.num + 1024 * n)]) ∧
      (n = h.tail → n < h.resv → (16 ≤ q.skips.length ∨ s1.frontClosed (ctxSpace cw 0) (q.qbase + 8) = true) → ∃ t, exec (.skip num n) s = .next t ∧ t.mem = s1.mem ∧
        mget? t.lqueues q.num = (mget? s1.lqueues q.num).map (fun y =>
          { y with waitSkips := y.waitSkips ++ [BitVec.ofNat 64 n] })) ∧
      (∀ s2, n = h.tail → n < h.resv → q.skips.length < 16 → s1.frontClosed (ctxSpace cw 0) (q.qbase + 8) = false →
        s1.frontPut (ctxSpace cw 0) (q.qbase + 8) (leBytes 8 (n + 1)) = (s2, true) →
        ∃ t, exec (.skip num n) s = .next t ∧ t.mem = s2.mem ∧
          ∀ y, mget? s2.lqueues q.num = some y →
            mget? t.lqueues q.num = some { y with skips := y.skips ++ [BitVec.ofNat 64 n] })) ∧
    (∀ q s1 cw h s2 y, mget? s.lqueues num = some q → q.failed = false →
      s.queueHead q = (s1, some (cw, h)) → h.head < h.tail → q.skips.contains (BitVec.ofNat 64 h.head) = true →
      s1.frontClosed (ctxSpace cw 0) (q.qbase + 16) = false →
      s1.frontPut (ctxSpace cw 0) (q.qbase + 16) (leBytes 8 (h.head + 1)) = (s2, true) →
      mget? s2.lqueues num = some y → y.waitSkips = [] →
      ∃ t, exec (.skipDiscard num) s = .next t ∧ t.mem = s2.mem ∧
        mget? t.lqueues num = some { y with skips := y.skips.filter (fun k => k != BitVec.ofNat 64 h.head) }) ∧
    (∀ q s1 cw h, mget? s.lqueues num = some q → q.failed = false → s.queueHead q = (s1, some (cw, h)) →
      (h.tail ≤ h.head ∨ q.skips.contains (BitVec.ofNat 64 h.head) = false) → (q.waitSkips = [] ∨ 16 ≤ q.skips.length) →
      exec (.skipDiscard num) s = .next s1)) ∧
  (∀ (s : State) (i : Instr) (w0 w8 w16 w24 : W64), (i = .bind w0 w8 w16 w24 ∨ i = .cancel w0 w8 w16 w24) →
    let op := (w0.extractLsb' 62 2).toNat
    let lid := (w0.extractLsb' 0 12).toNat
    let ans (t : State) (acc : Bool) (cause entry : Nat) : Prop :=
      t.cur8.result = BitVec.ofNat 64 (2 ^ 63 + (if acc then 2 ^ 62 else 0) + cause % 8 * 2 ^ 56 + entry % 4096)
    ((w0.extractLsb' 12 50 ≠ 0 ∨ w8 ≠ 0 ∨ op = 0 ∨ op = 3 ∨ (op = 1 ∧ lid ≠ 0)) →
      ∃ t, exec i s = .next t ∧ ans t false 7 0 ∧ t.mem = s.mem ∧ t.placement = s.placement ∧ t.launches = s.launches) ∧
    (w0.extractLsb' 12 50 = 0 → w8 = 0 → op = 1 → lid = 0 →
      let c := s.bindCause w16.toNat w24.toNat
      (2048 ≤ s.placement.length → c = 1) ∧
      (s.placement.length < 2048 → w16.toNat < s.clk + 2048 → c = 2) ∧
      (c ≠ 0 → ∃ t, exec i s = .next t ∧ ans t false c 0 ∧ t.placement = s.placement ∧ t.groups = s.groups ∧ t.mem = s.mem) ∧
      (c = 0 → ∀ e < 2048, mget? s.placement e = none → (∀ x < e, (mget? s.placement x).isSome = true) →
        ∃ t b, exec i s = .next t ∧ ans t true 0 e ∧ t.mem = s.mem ∧ mget? t.placement e = some b ∧ b.start = w16.toNat ∧
          b.level = (w24.extractLsb' 60 3).toNat ∧ b.lid = (w24.extractLsb' 48 12).toNat ∧
          b.grp = (w24.extractLsb' 24 24).toNat ∧ b.smask = (w24.extractLsb' 20 4).toNat ∧
          b.unit = (w24.extractLsb' 11 9).toNat ∧ b.res = w24.getLsbD 10 ∧ b.prepared = false)) ∧
    (w0.extractLsb' 12 50 = 0 → w8 = 0 → op = 2 →
      ((∀ l, mget? s.launches lid = some l → l.rejected = true ∨ s.allEnded lid l = true) → ∃ t, exec i s = .next t ∧ ans t true 0 0 ∧ t.placement = s.placement ∧ t.mem = s.mem) ∧
      (∀ l, mget? s.launches lid = some l → l.rejected = false → s.allEnded lid l = false →
        ∃ t, exec i s = .next t ∧ t.agenda = s.agenda ++ [.kill lid] ∧ t.mem = s.mem ∧
          (mget? t.launches lid).map Launch.cancelled = some true ∧
          t.placement = s.placement.filter (fun p => p.2.lid != lid) ∧
          ans t true 0 (s.placement.filter (fun p => p.2.lid == lid)).length)))

/-- Groups and launches. `GROUP_PREPARE` reads the codebook images that the record names and keeps them as loaded banks, with
none named it completes at once; what goes wrong is kept for the start; a second time it does nothing. `GROUP_START` of a due
prepared record clears the cores that hold no strand of the context and gives them those banks, leaving the others (a core
whose context keeps a saved strand keeps its join bits, semaphores and mutexes: the model's reading, log entry 26), and starts
each strand of each group at its place: the PC is the entry plus the position's offset, s0 to s3 hold the argument, the group,
the position and the group count, s31 the stack, SRNG is the seed of the position, and the group runs; where the images could
not be had the groups end FAULTED. When the images are read is the model's choice (log entries 27 and 74). `GROUP_RESUME` puts the
saved strands back with PREQ and DLINE cleared.
`GROUP_COMPLETE` gives the group its status and frees its strands, once it has ended; `LAUNCH_COMPLETE` frees the handle of a
launch without a completion record, or whose record cannot be written, and writes the record of one that has it in memory; one
in a window goes out as two posted stores, each once the window has room for it, word 0 only after the others are acknowledged,
and the handle is freed once word 0 is. -/
def Obligations.GroupsAndLaunches : Prop :=
  (∀ (s : State) (e : Nat), mget? s.placement e = none →
    exec (.groupPrepare e) s = .next s ∧ exec (.groupStart e) s = .next s ∧ exec (.groupResume e) s = .next s) ∧
  (∀ (s : State) (e : Nat) (b : BindRec), mget? s.placement e = some b →
    (b.prepared = true → exec (.groupPrepare e) s = .next s) ∧
    ((s.clk < b.start ∨ b.res = true) → exec (.groupStart e) s = .next s) ∧
    ((s.clk < b.start ∨ b.res = false) → exec (.groupResume e) s = .next s) ∧
    (∀ l s1 cw, b.prepared = false → b.planned = false → b.res = false → mget? s.launches b.lid = some l →
      s.readCtx ((s.ctxPaOf b.lid).getD 0) = (s1, cw) →
      let p := s1.planImages l (boundOf l cw b.grp 0) (wingOf (b.strands.headD 0))
      (bitsN (recWord l.rec_ 7) 39 32 = 0 → ∃ t, exec (.groupPrepare e) s = .next t ∧ t.mem = s1.mem ∧ t.cores = s1.cores ∧
        (s1.placement = s.placement → mget? t.placement e = some { b with prepared := true, rds := [], banks := [] })) ∧
      (∀ f, p.verdict = some f → p.st.placement = s.placement → ∃ t, exec (.groupPrepare e) s = .next t ∧
        mget? t.placement e = some { b with prepared := true, fault := some f }) ∧
      (∀ s2 rs s3 rs' m, p.verdict = none → p.miss = false →
        p.st.windowReads (.prep b.uid) (ctxPart cw) p.rds [] = (s2, rs, true) → s2.readHere rs = (s3, rs') →
        loadBanks l rs' = .ok m → s3.placement = s.placement →
        ∃ t, exec (.groupPrepare e) s = .next t ∧ t.mem = s3.mem ∧ t.cores = s3.cores ∧
          mget? t.placement e = some { b with prepared := true, rds := [], banks := m })) ∧
    (let gs := if b.level = 0 then b.strands.zipIdx.map (fun p => (b.grp + p.2, [p.1])) else [(b.grp, b.strands)]
     let fresh := ((b.strands.map coreOf).eraseDups).filter (fun c => !s.coreHolds c b.lid)
     (∀ l f, b.prepared = true → b.res = false → b.start ≤ s.clk → mget? s.launches b.lid = some l → fresh ≠ [] →
       b.fault = some f → ∃ t, exec (.groupStart e) s = .next t ∧ mget? t.placement e = none ∧ t.strands = s.strands ∧
        t.mem = s.mem ∧ ∀ x ∈ gs, ∀ g ∈ t.groups, g.lid = b.lid → g.grp = x.1 → g.phase = .ended 2) ∧
     (∀ l, b.prepared = true → b.res = false → b.start ≤ s.clk → b.strands.Nodup → (fresh = [] ∨ b.fault = none) →
       mget? s.launches b.lid = some l → l.lid = b.lid →
       ∃ t, exec (.groupStart e) s = .next t ∧ mget? t.placement e = none ∧
        (∀ c, if c ∈ fresh then (t.core c).banks = b.banks ∧ (t.core c).gang = Gang.reset ∧
            (if b.level = 0 ∧ (s.core c).ctx = s.ctxPaOf b.lid ∧ s.savedStrand (s.ctxPaOf b.lid) = true then
               (t.core c).join = (s.core c).join ∧ (t.core c).sems = (s.core c).sems ∧ (t.core c).muts = (s.core c).muts
             else (t.core c).join = 0 ∧ (t.core c).sems = [] ∧ (t.core c).muts = [])
          else (t.core c).banks = (s.core c).banks ∧ (t.core c).join = (s.core c).join ∧ (t.core c).sems = (s.core c).sems) ∧
        ∀ x ∈ gs, (∀ g ∈ t.groups, g.lid = l.lid → g.grp = x.1 → g.phase = .running ∧ g.strands = x.2) ∧
        ∀ p n, x.2[p]? = some n →
          let st := t.strand n
          let w7 := recWord l.rec_ 7
          let w (k : Nat) : W64 := (l.rec_.drop k).headD 0
          st.running = true ∧ st.halted = false ∧ st.front.pc = (w 0 &&& ~~~63#64) + BitVec.ofInt 64 (64 * lineOff l.rec_ (n % 4)) ∧
          st.regs.sQ 0 = [.full ⟨w 2, false⟩] ∧ st.regs.sQ 1 = [.full ⟨BitVec.ofNat 64 x.1, false⟩] ∧
          st.regs.sQ 2 = [.full ⟨BitVec.ofNat 64 p, false⟩] ∧
          st.regs.sQ 3 = [.full ⟨BitVec.ofNat 64 (bitsN w7 63 40), false⟩] ∧
          st.regs.sP 31 = ⟨if bitsN w7 22 8 = 0 then 0 else w 3 + BitVec.ofNat 64 ((n + 1) * bitsN w7 22 8 * 4096), false⟩ ∧
          st.ctl.trapBase = w 4 ∧ st.ctl.srng = 0x9E3779B97F4A7C15#64 ^^^ BitVec.ofNat 64 p ∧ st.ctl.exl = false ∧
          st.ctl.splim = BitVec.ofNat 17 (256 * bitsN w7 31 23) ∧ (∀ r, 24 ≤ r → st.regs.vP r = VV.zero) ∧
          st.ctl.pts = l.pts ∧ st.flights = [] ∧ st.open_ = [] ∧ st.wq = []) ∧
     (∀ l, b.prepared = true → b.res = true → b.start ≤ s.clk → b.strands.Nodup →
       mget? s.launches b.lid = some l → l.lid = b.lid →
       ∃ t, exec (.groupResume e) s = .next t ∧ mget? t.placement e = none ∧
        ∀ x ∈ gs, ∀ sv, s.saved.find? (fun y => y.lid == l.lid && y.grp == x.1) = some sv →
        (∀ y ∈ t.saved, y.lid = l.lid → y.grp ≠ x.1) ∧
        (∀ g ∈ t.groups, g.lid = l.lid → g.grp = x.1 → g.phase = .running ∧ g.strands = x.2) ∧
        ∀ p n img, x.2[p]? = some n → mget? sv.strands p = some img →
          (t.strand n).regs = img.regs ∧ (t.strand n).ctl.preq = false ∧ (t.strand n).ctl.dline = 0 ∧
          (t.strand n).front.pc = img.front.pc ∧ (t.strand n).front.wake = s.clk ∧ (t.strand n).ctl.epc = img.ctl.epc ∧
          (t.strand n).ctl.srng = img.ctl.srng ∧ (t.strand n).spill = img.spill))) ∧
  (∀ (s : State) (lid grp : Nat),
    (s.groupAt lid grp = none → exec (.groupComplete lid grp) s = .next s) ∧
    (∀ g, s.groupAt lid grp = some g → s.groupEnds g = false → exec (.groupComplete lid grp) s = .next s) ∧
    (∀ g, s.groupAt lid grp = some g → s.groupEnds g = true → ∃ t, exec (.groupComplete lid grp) s = .next t ∧ t.mem = s.mem ∧
      (∀ n ∈ g.strands, (t.strand n).bound = none ∧ (t.strand n).running = false) ∧
      (∀ g' ∈ t.groups, g'.lid = lid → g'.grp = grp → g'.phase = .ended (
        if g.phase = .killed then (if g.faulted then 2 else 1) else if (s.liveFault g).isSome then 2 else 0)))) ∧
  (∀ (s : State) (lid : Nat) (l : Launch),
    (mget? s.launches lid = none → exec (.launchComplete lid) s = .next s) ∧
    (mget? s.launches lid = some l → s.launchEnds l = false → exec (.launchComplete lid) s = .next s) ∧
    (mget? s.launches lid = some l → s.launchEnds l = true → (l.rec_.drop 6).headD 0 = 0 →
      ∃ t, exec (.launchComplete lid) s = .next t ∧ mget? t.launches lid = none ∧ t.mem = s.mem ∧
        t.cur8.log = s.cur8.log ++ [2 + 8 * lid] ∧ ∀ g ∈ t.groups, g.lid ≠ lid) ∧
    (mget? s.launches lid = some l → s.launchEnds l = true → (l.rec_.drop 6).headD 0 ≠ 0 →
      let cw := s.launchCtx l
      let r := s.frontXlate (ctxSpace cw 0) ((l.rec_.drop 6).headD 0 &&& ~~~63#64) true
      let bs := (r.1.completionWords l (ctxAsid cw)).flatMap (fun w => leBytes 8 w.toNat)
      (∀ x, r.2 = .error x → ∃ t, exec (.launchComplete lid) s = .next t ∧ mget? t.launches lid = none ∧ t.mem = r.1.mem) ∧
      (∀ pa x, r.2 = .ok pa → r.1.target (ctxPart cw) pa = .error x →
        ∃ t, exec (.launchComplete lid) s = .next t ∧ mget? t.launches lid = none ∧ t.mem = r.1.mem) ∧
      (∀ pa w dst q, r.2 = .ok pa → r.1.target (ctxPart cw) pa = .ok (.window w dst q) → l.lid = lid →
        mget? r.1.launches lid = some l →
        let wait := (r.1.fabric.pairSrc dst).outstanding.any (fun k => k.who == .front lid)
        let room := (r.1.askAllow w (.front lid) 1).2 && r.1.fabric.roomFor dst
        let sends (o n : Nat) : Prop := ∃ t k, exec (.launchComplete lid) s = .next t ∧ t.mem = r.1.mem ∧
          (t.fabric.pairSrc dst).unacked = (r.1.fabric.pairSrc dst).unacked ++ [k] ∧ k.kind = .store ∧ k.pa = q ∧
          k.who = .front lid ∧ k.bytes = atOffsets o ((bs.drop o).take n) ∧
          (mget? t.launches lid).map Launch.recordStage = some (l.recordStage + 1)
        (l.recordStage = 0 → room = true → sends 8 56) ∧
        (l.recordStage = 1 → wait = false → room = true → sends 0 8) ∧
        (2 ≤ l.recordStage → wait = false → ∃ t, exec (.launchComplete lid) s = .next t ∧ mget? t.launches lid = none ∧
          t.mem = r.1.mem) ∧
        (1 ≤ l.recordStage → wait = true → exec (.launchComplete lid) s = .next r.1) ∧
        ((l.recordStage = 0 ∨ (l.recordStage = 1 ∧ wait = false)) → room = false →
          ∃ t, exec (.launchComplete lid) s = .next t ∧ t.mem = r.1.mem ∧ t.fabric.src = r.1.fabric.src ∧
            mget? t.launches lid = some l)) ∧
      (∀ pa q, r.2 = .ok pa → r.1.target (ctxPart cw) pa = .ok (.mem q) →
        (r.1.closedAt q = true → exec (.launchComplete lid) s = .next r.1) ∧
        (r.1.closedAt q = false → ∃ t, exec (.launchComplete lid) s = .next t ∧ mget? t.launches lid = none ∧
          ∀ a, t.readBytes a 1 = if q ≤ a ∧ a < q + 64 then (bs.drop (a - q)).take 1 else r.1.readBytes a 1))))

/-- Pre-emption and debugging. `PREEMPT_REQUEST` sets PREQ and DLINE of every strand of a running group in one clock, and
does nothing to any other; `FORCED_SAVE` does nothing before the save is due, then stops every strand of the group, and once
all have settled stores the group. `DEBUG_STOP` leaves a strand that is not bound and running as it is, lets any other issue
nothing more, and stops it in place, with SVCAUSE = 0x13, once it has settled; `DEBUG_RESUME` lets a stopped one go on after the
bytes that the debugger writes into its block (where its fields lie is the model's choice, log entry 84); DBGCTL takes the two
bits the Curator writes. A forced save has its own event in each clock, and captures in a later one than it begins in (R363;
log entry 24). -/
def Obligations.SavesAndDebug : Prop :=
  ∀ (s : State) (lid grp len n : Nat) (v : W64) (edits : List (Nat × Byte)),
    (s.groupAt lid grp = none → exec (.preemptRequest lid grp len) s = .next s ∧ exec (.forcedSave lid grp) s = .next s) ∧
    (∀ g, s.groupAt lid grp = some g →
      (g.phase ≠ .running → exec (.preemptRequest lid grp len) s = .next s) ∧
      (g.phase = .running → ∃ t, exec (.preemptRequest lid grp len) s = .next t ∧ t.mem = s.mem ∧
        (∀ k ∈ g.strands, (t.strand k).ctl.preq = true ∧ (t.strand k).ctl.dline = BitVec.ofNat 32 len ∧
          (t.strand k).ctl.t0 = s.clk ∧ (t.strand k).regs = (s.strand k).regs) ∧
        ∀ k, k ∉ g.strands → t.strand k = s.strand k) ∧
      (s.saveDue g = false → exec (.forcedSave lid grp) s = .next s) ∧
      (s.saveDue g = true → g.phase = .running → ∃ t, exec (.forcedSave lid grp) s = .next t ∧ t.mem = s.mem ∧ t.saved = s.saved ∧
          (∀ g' ∈ t.groups, g'.lid = lid → g'.grp = grp → g'.phase = .saving) ∧
          ∀ k ∈ g.strands, (s.strand k).halted = false → (t.strand k).front.stopped = true ∧ (t.strand k).regs = (s.strand k).regs) ∧
      (g.phase = .saving → g.strands.all (fun k => (s.strand k).settledForSave) = false →
        exec (.forcedSave lid grp) s = .next s) ∧
      (∀ s2 h, g.phase = .saving → g.strands.all (fun k => (s.strand k).settledForSave) = true →
        g.strands.foldl (fun s k => s.capture k .preempt) s = s2 → s2.groupAt lid grp = some h → h.phase = .saving →
        g.lid = lid → g.grp = grp → ∃ t, exec (.forcedSave lid grp) s = .next t ∧
          (∃ x ∈ t.saved, x.lid = lid ∧ x.grp = grp ∧ x.strands.length = g.strands.length ∧ x.svcause = .preempt) ∧
          (∀ g' ∈ t.groups, g'.lid = lid → g'.grp = grp → g'.phase = .saved) ∧
          ∀ k ∈ g.strands, (t.strand k).bound = none ∧ (t.strand k).running = false)) ∧
    (((s.strand n).bound = none ∨ (s.strand n).running = false ∨ (s.strand n).halted = true) →
      exec (.debugStop n) s = .next s) ∧
    ((s.strand n).bound.isSome = true → (s.strand n).running = true → (s.strand n).halted = false →
      let st := s.strand n
      (st.front.stopped = false → ∃ t, exec (.debugStop n) s = .next t ∧ t.strand n = st.beginSave ∧
        (∀ m, m ≠ n → t.strand m = s.strand m) ∧ t.mem = s.mem) ∧
      (st.front.stopped = true → (st.settledForSave = false ∨ s.pushing n = true) → exec (.debugStop n) s = .next s) ∧
      (st.front.stopped = true → st.front.trapping = none → (s.core (coreOf n)).gang.on = false → st.settledForSave = true →
        s.pushing n = false → ∃ t, exec (.debugStop n) s = .next t ∧ (t.strand n).running = false ∧
        (t.strand n).front.stopped = true ∧ (t.strand n).bound = st.bound ∧ (t.strand n).ctl.svcause = 0x13#8 ∧
        (t.strand n).regs.sp = st.regs.sp ∧ (t.strand n).regs.vp = st.regs.vp ∧ (t.strand n).regs.kp = st.regs.kp ∧
        (st.past = [] → (t.strand n).regs = st.regs) ∧ t.mem = s.mem)) ∧
    (((s.strand n).bound = none ∨ (s.strand n).running = true ∨ (s.strand n).front.stopped = false) →
      exec (.debugResume ⟨n, edits⟩) s = .next s) ∧
    ((s.strand n).bound.isSome = true → (s.strand n).running = false → (s.strand n).front.stopped = true →
      (∃ t, exec (.debugResume ⟨n, []⟩) s = .next t ∧ (t.strand n).running = true ∧ (t.strand n).front.stopped = false ∧
        (t.strand n).front.pc = (s.strand n).front.pc ∧ (t.strand n).regs = (s.strand n).regs ∧ t.mem = s.mem) ∧
      ∃ t, exec (.debugResume ⟨n, edits⟩) s = .next t ∧ (t.strand n).running = true ∧ (t.strand n).front.stopped = false ∧
        (t.strand n).regs = ((s.strand n).poke edits).regs ∧ (t.strand n).front.pc = ((s.strand n).poke edits).front.pc ∧
        (∀ m, m ≠ n → t.strand m = s.strand m) ∧ t.mem = s.mem) ∧
    (∃ t, exec (.curatorDbgctlWrite n v) s = .next t ∧ (t.strand n).ctl.dbgctl = v.extractLsb' 0 2 ∧
      (t.strand n).regs = (s.strand n).regs ∧ t.mem = s.mem ∧ ∀ m, m ≠ n → t.strand m = s.strand m)

/-- Upkeep of the module: a walk ends its miss, installs its translation, which serves every miss it covers, or leaves its fault;
a shootdown drops the translations of its range and completes its `TLBINV` once no old access is left; a page migration asks for
the shootdown of its page, whose end leaves no copy that touches the page; a context teardown waits for the context's launches
and then leaves no tile copy, task queue or catalogue entry of it; an uncorrectable error marks its line, or tags the scalar
register or tile row that holds the word, and is counted in the launch it met; a restartable launch is relaunched, and at the
fourth error ends with every group that has started FAULTED (the model's reading, log entries 25 and 83), unless it has been
cancelled already; a report answers an attestation nonce of 32 bytes only; a margin below its threshold raises the supply of its
die while it can; the power throttle holds back grants above 7,200 W alone; the module stops at 110 °C; a module reset keeps
memory, marks and flash and leaves strands, launches, groups and contexts as at reset, and the module with no number of its own.
The steps of a teardown, of a shootdown and of a migration are as log entry 28 reads them, the numbering of units and what the
trip drops as entry 29, and what a reset keeps as entry 30. -/
def Obligations.Upkeep : Prop :=
  ∀ (s : State) (w asid va lid pa draw temp : Nat) (place : ErrPlace) (nonce : List Byte) (margins : List (Nat × Bool)),
    ((s.wing w).misses.find? (fun m => m.asid == asid && m.page == va % 2 ^ 57 / 4096) = none →
      exec (.walkComplete w asid va) s = .next s) ∧
    (∀ m s1 x k, (s.wing w).misses.find? (fun m => m.asid == asid && m.page == va % 2 ^ 57 / 4096) = some m →
      let s0 := s.modWing w (fun g => { g with
        misses := g.misses.filter (fun x => !(x.asid == m.asid && x.page == m.page))
        missFaults := g.missFaults.filter (fun f => decide (s.clk ≤ f.clk + 1)) })
      let r := s0.walk ⟨m.root, m.asid, m.tenant, 0, w / 8⟩ ((BitVec.ofNat 57 (4096 * m.page)).signExtend 64) m.wantD
      (r = (s1, .leaf x) → ∃ t, exec (.walkComplete w asid va) s = .next t ∧ x ∈ (t.wing w).tlb ∧ t.mem = s1.mem ∧
        ∀ y ∈ (t.wing w).misses, y.servedBy x = false) ∧
      (∀ c, r = (s1, .fault c k) → ∃ t, exec (.walkComplete w asid va) s = .next t ∧
        ⟨m.asid, m.page, c, k, s.clk⟩ ∈ (t.wing w).missFaults ∧ t.mem = s1.mem)) ∧
    (s.cur8.shootdowns = [] → exec .shootdown s = .next s) ∧
    (∀ q r, s.cur8.shootdowns = q :: r →
      (q.dropped = none → ∃ t, exec .shootdown s = .next t ∧ t.mem = s.mem ∧
        (∀ c, ∀ x ∈ (t.core c).tlb, q.drops x = false) ∧ (∀ v, ∀ x ∈ (t.wing v).tlb, q.drops x = false)) ∧
      (∀ k, q.dropped = some k → s.oldAccess q k = true → exec .shootdown s = .next s) ∧
      (∀ k e, q.dropped = some k → s.oldAccess q k = false → q.move = none → s.entry? q.n q.id = some e → e.dests = [] →
        e.id = q.id → ∃ t, exec .shootdown s = .next t ∧ t.cur8.shootdowns = r ∧ t.entry? q.n q.id = none ∧ t.mem = s.mem) ∧
      (∀ k a, q.dropped = some k → s.oldAccess q k = false → q.move = some a →
        ∃ t, exec .shootdown s = .next t ∧ t.cur8.shootdowns = r ∧
          ∀ v j, (t.slotOf v j).v = true → (t.slotOf v j).onPage q.asid a = false)) ∧
    (∃ t, exec (.pageMigrate asid va) s = .next t ∧ t.mem = s.mem ∧ t.strands = s.strands ∧ t.wings = s.wings ∧
      ∃ q, t.cur8.shootdowns = s.cur8.shootdowns ++ [q] ∧ q.asid = asid ∧ (q.base, q.len) = s.pageSpan asid va ∧
        q.move = some va ∧ q.dropped = none) ∧
    (s.launches.any (fun l => ctxAsid (s.launchCtx l.2) == asid) = true → exec (.contextTeardown asid) s = .next s) ∧
    (s.launches.any (fun l => ctxAsid (s.launchCtx l.2) == asid) = false → ∃ t, exec (.contextTeardown asid) s = .next t ∧
      (∀ c ∈ t.contexts, ctxAsid c.words ≠ asid) ∧ (∀ q ∈ t.tqueues, q.asid ≠ asid) ∧ (∀ e ∈ t.catalogue, e.tag.asid ≠ asid) ∧
      ∀ v j, (t.slotOf v j).v = true → (t.slotOf v j).tag.asid ≠ asid) ∧
    (∀ l, mget? s.launches lid = some l → (l.restartable = false ∨ l.rejected = true ∨ l.cancelled = true) →
      ∃ t l', exec (.memueUndo lid ⟨pa, place⟩) s = .next t ∧ t.mem = s.mem ∧ mget? t.launches lid = some l' ∧ l'.uerr = true ∧
        l'.uecnt = Nat.min 255 (l.uecnt + 1) ∧ (l.uerr = false → l'.uepa = pa) ∧
        (place = .line → paHome pa = true → t.marked (pa / 256) = true)) ∧
    (∀ l, mget? s.launches lid = some l → l.restartable = true → l.rejected = false → l.cancelled = false →
      ∃ t l', exec (.memueUndo lid ⟨pa, place⟩) s = .next t ∧ mget? t.launches lid = some l' ∧ l'.uerr = true ∧
        l'.uecnt = Nat.min 255 (l.uecnt + 1) ∧
        (l.relaunch < 3 → l'.relaunch = l.relaunch + 1 ∧ l'.started = false ∧ l'.cancelled = l.cancelled ∧
          ∀ g ∈ t.groups, g.lid ≠ lid) ∧
        (3 ≤ l.relaunch → l'.relaunch = l.relaunch ∧ l'.cancelled = true ∧ l'.endClk = s.clk ∧
          ∀ g ∈ t.groups, g.lid = lid → g.phase = .ended 2)) ∧
    (mget? s.launches lid = none → ∃ t, exec (.memueUndo lid ⟨pa, place⟩) s = .next t ∧ t.mem = s.mem ∧
      (place = .line → paHome pa = true → t.marked (pa / 256) = true)) ∧
    (∀ n r, n < 2048 → 24 ≤ r → mget? s.launches lid = none → ∃ t, exec (.memueUndo lid ⟨pa, .scalar n r 0⟩) s = .next t ∧
      t.mem = s.mem ∧ t.marks = s.marks ∧ (t.strand n).regs.sP r = ⟨((s.strand n).regs.sP r).v, true⟩ ∧
      ∀ m, m ≠ n → t.strand m = s.strand m) ∧
    (∀ v k r, mget? s.launches lid = none → (mget? (s.wing v).slots k).isSome = true →
      ∃ t, exec (.memueUndo lid ⟨pa, .row v k r⟩) s = .next t ∧ t.mem = s.mem ∧ t.marks = s.marks ∧ t.strands = s.strands ∧
      (t.slotOf v k).prow = (s.slotOf v k).prow ||| (1#64 <<< r)) ∧
    (nonce.length ≠ 32 → exec (.attestationRequest nonce) s = .next s) ∧
    (nonce.length = 32 → ∃ t rest, exec (.attestationRequest nonce) s = .next t ∧ t.mem = s.mem ∧
      t.fabric.sent = s.fabric.sent ++ [.mailbox (nonce ++ rest)]) ∧
    (exec (.marginSample []) s = .next s) ∧
    (∀ m t, exec (.marginSample [m]) s = .next t → exec (.marginSample (m :: margins)) s = exec (.marginSample margins) t) ∧
    (∀ u, u < 72 → let d := if u < 64 then u / 8 else u - 64
      (exec (.marginSample [(u, false)]) s = .next s) ∧
      ((s.die d).supply < Config.topSupply → ∃ t, exec (.marginSample [(u, true)]) s = .next t ∧ t.mem = s.mem ∧
        (t.die d).supply = (s.die d).supply + 1 ∧ t.strands = s.strands) ∧
      (Config.topSupply ≤ (s.die d).supply → u ∉ s.cur8.withdrawn → ∃ t, exec (.marginSample [(u, true)]) s = .next t ∧
        t.mem = s.mem ∧ u ∈ t.cur8.withdrawn)) ∧
    (∃ t, exec (.powerSample draw) s = .next t ∧ t.mem = s.mem ∧
      ∀ v < 64, (draw ≤ 7200 → (t.wing v).withheld = 0) ∧ (t.wing v).withheld < 64) ∧
    (temp < 110 → exec (.thermalTrip temp) s = .next s) ∧
    (110 ≤ temp → ∃ t, exec (.thermalTrip temp) s = .next t ∧ t.cur8.thermal = true ∧ t.mem = s.mem ∧ t.agenda = []) ∧
    (∃ t, exec .moduleReset s = .next t ∧ t.mem = s.mem ∧ t.marks = s.marks ∧ t.launches = [] ∧ t.groups = [] ∧
      t.contexts = [] ∧ t.cur8.thermal = false ∧ t.fabric.own = none ∧ t.strands = State.reset.strands ∧
      t.cur8.flash = s.cur8.flash)
end

