-- ==== Sys2Proof/Laws/State.lean ====
section
/-! SUPPORT. One lemma per field per update of the state, and reading what was written: sparse maps, units, registers. -/

namespace Sys2Proof.Machine

/-! ### Sparse maps -/

@[simp] theorem mget_nil {α : Type} (k : Nat) (d : α) : mget [] k d = d := rfl
@[simp] theorem mget?_nil {α : Type} (k : Nat) : mget? ([] : AMap α) k = none := rfl

/-- Reading a key after setting one gives the value set there, and elsewhere what was there. -/
@[simp] theorem mget_mset {α : Type} (m : AMap α) (k j : Nat) (v d : α) :
    mget (mset m k v) j d = if k = j then v else mget m j d := by
  induction m with
  | nil => simp [mset, mget]
  | cons p r ih =>
    obtain ⟨i, w⟩ := p
    unfold mset
    split
    · simp [mget]
    · split
      · next h => subst h; by_cases h3 : k = j <;> simp [mget, h3]
      · next h =>
        by_cases h3 : i = j
        · subst h3; simp [mget, h]
        · simp [mget, h3, ih]

@[simp] theorem mget?_mset {α : Type} (m : AMap α) (k j : Nat) (v : α) :
    mget? (mset m k v) j = if k = j then some v else mget? m j := by
  induction m with
  | nil => simp [mset, mget?]
  | cons p r ih =>
    obtain ⟨i, w⟩ := p
    unfold mset
    split
    · simp [mget?]
    · split
      · next h => subst h; by_cases h3 : k = j <;> simp [mget?, h3]
      · next h =>
        by_cases h3 : i = j
        · subst h3; simp [mget?, h]
        · simp [mget?, h3, ih]

/-- Reading a key after removing one. -/
@[simp] theorem mget_mdel {α : Type} (m : AMap α) (k j : Nat) (d : α) :
    mget (mdel m k) j d = if k = j then d else mget m j d := by
  induction m with
  | nil => simp [mdel, mget]
  | cons p r ih =>
    obtain ⟨i, w⟩ := p
    unfold mdel
    split
    · next h => subst h; rw [ih]; by_cases h2 : i = j <;> simp [mget, h2]
    · next h =>
      by_cases h2 : i = j
      · subst h2; simp [mget, Ne.symm h]
      · simp [mget, h2, ih]

@[simp] theorem mget?_mdel {α : Type} (m : AMap α) (k j : Nat) :
    mget? (mdel m k) j = if k = j then none else mget? m j := by
  induction m with
  | nil => simp [mdel, mget?]
  | cons p r ih =>
    obtain ⟨i, w⟩ := p
    unfold mdel
    split
    · next h => subst h; rw [ih]; by_cases h2 : i = j <;> simp [mget?, h2]
    · next h =>
      by_cases h2 : i = j
      · subst h2; simp [mget?, Ne.symm h]
      · simp [mget?, h2, ih]

/-! ### Units -/

@[simp] theorem State.strand_setStrand (s : State) (n m : Nat) (x : Strand) :
    (s.setStrand n x).strand m = if n = m then x else s.strand m := by simp [State.strand, State.setStrand]
@[simp] theorem State.strand_modStrand (s : State) (n m : Nat) (f : Strand → Strand) :
    (s.modStrand n f).strand m = if n = m then f (s.strand n) else s.strand m := by simp [State.modStrand]
@[simp] theorem State.core_setStrand (s : State) (n m : Nat) (x : Strand) : (s.setStrand n x).core m = s.core m := rfl
@[simp] theorem State.core_modStrand (s : State) (n m : Nat) (f : Strand → Strand) : (s.modStrand n f).core m = s.core m := rfl
@[simp] theorem State.wing_setStrand (s : State) (n m : Nat) (x : Strand) : (s.setStrand n x).wing m = s.wing m := rfl
@[simp] theorem State.wing_modStrand (s : State) (n m : Nat) (f : Strand → Strand) : (s.modStrand n f).wing m = s.wing m := rfl
@[simp] theorem State.die_setStrand (s : State) (n m : Nat) (x : Strand) : (s.setStrand n x).die m = s.die m := rfl
@[simp] theorem State.die_modStrand (s : State) (n m : Nat) (f : Strand → Strand) : (s.modStrand n f).die m = s.die m := rfl
@[simp] theorem State.setStrand_clk (s : State) (n : Nat) (x : Strand) : (s.setStrand n x).clk = s.clk := rfl
@[simp] theorem State.modStrand_clk (s : State) (n : Nat) (f : Strand → Strand) : (s.modStrand n f).clk = s.clk := rfl
@[simp] theorem State.setStrand_mem (s : State) (n : Nat) (x : Strand) : (s.setStrand n x).mem = s.mem := rfl
@[simp] theorem State.modStrand_mem (s : State) (n : Nat) (f : Strand → Strand) : (s.modStrand n f).mem = s.mem := rfl
@[simp] theorem State.setStrand_marks (s : State) (n : Nat) (x : Strand) : (s.setStrand n x).marks = s.marks := rfl
@[simp] theorem State.modStrand_marks (s : State) (n : Nat) (f : Strand → Strand) : (s.modStrand n f).marks = s.marks := rfl
@[simp] theorem State.setStrand_homes (s : State) (n : Nat) (x : Strand) : (s.setStrand n x).homes = s.homes := rfl
@[simp] theorem State.modStrand_homes (s : State) (n : Nat) (f : Strand → Strand) : (s.modStrand n f).homes = s.homes := rfl
@[simp] theorem State.setStrand_cores (s : State) (n : Nat) (x : Strand) : (s.setStrand n x).cores = s.cores := rfl
@[simp] theorem State.modStrand_cores (s : State) (n : Nat) (f : Strand → Strand) : (s.modStrand n f).cores = s.cores := rfl
@[simp] theorem State.setStrand_wings (s : State) (n : Nat) (x : Strand) : (s.setStrand n x).wings = s.wings := rfl
@[simp] theorem State.modStrand_wings (s : State) (n : Nat) (f : Strand → Strand) : (s.modStrand n f).wings = s.wings := rfl
@[simp] theorem State.setStrand_dies (s : State) (n : Nat) (x : Strand) : (s.setStrand n x).dies = s.dies := rfl
@[simp] theorem State.modStrand_dies (s : State) (n : Nat) (f : Strand → Strand) : (s.modStrand n f).dies = s.dies := rfl
@[simp] theorem State.setStrand_catalogue (s : State) (n : Nat) (x : Strand) : (s.setStrand n x).catalogue = s.catalogue := rfl
@[simp] theorem State.modStrand_catalogue (s : State) (n : Nat) (f : Strand → Strand) : (s.modStrand n f).catalogue = s.catalogue := rfl
@[simp] theorem State.setStrand_tqueues (s : State) (n : Nat) (x : Strand) : (s.setStrand n x).tqueues = s.tqueues := rfl
@[simp] theorem State.modStrand_tqueues (s : State) (n : Nat) (f : Strand → Strand) : (s.modStrand n f).tqueues = s.tqueues := rfl
@[simp] theorem State.setStrand_tasks (s : State) (n : Nat) (x : Strand) : (s.setStrand n x).tasks = s.tasks := rfl
@[simp] theorem State.modStrand_tasks (s : State) (n : Nat) (f : Strand → Strand) : (s.modStrand n f).tasks = s.tasks := rfl
@[simp] theorem State.setStrand_contexts (s : State) (n : Nat) (x : Strand) : (s.setStrand n x).contexts = s.contexts := rfl
@[simp] theorem State.modStrand_contexts (s : State) (n : Nat) (f : Strand → Strand) : (s.modStrand n f).contexts = s.contexts := rfl
@[simp] theorem State.setStrand_lqueues (s : State) (n : Nat) (x : Strand) : (s.setStrand n x).lqueues = s.lqueues := rfl
@[simp] theorem State.modStrand_lqueues (s : State) (n : Nat) (f : Strand → Strand) : (s.modStrand n f).lqueues = s.lqueues := rfl
@[simp] theorem State.setStrand_nextQueue (s : State) (n : Nat) (x : Strand) : (s.setStrand n x).nextQueue = s.nextQueue := rfl
@[simp] theorem State.modStrand_nextQueue (s : State) (n : Nat) (f : Strand → Strand) : (s.modStrand n f).nextQueue = s.nextQueue := rfl
@[simp] theorem State.setStrand_frontPts (s : State) (n : Nat) (x : Strand) : (s.setStrand n x).frontPts = s.frontPts := rfl
@[simp] theorem State.modStrand_frontPts (s : State) (n : Nat) (f : Strand → Strand) : (s.modStrand n f).frontPts = s.frontPts := rfl
@[simp] theorem State.setStrand_portPts (s : State) (n : Nat) (x : Strand) : (s.setStrand n x).portPts = s.portPts := rfl
@[simp] theorem State.modStrand_portPts (s : State) (n : Nat) (f : Strand → Strand) : (s.modStrand n f).portPts = s.portPts := rfl
@[simp] theorem State.setStrand_launches (s : State) (n : Nat) (x : Strand) : (s.setStrand n x).launches = s.launches := rfl
@[simp] theorem State.modStrand_launches (s : State) (n : Nat) (f : Strand → Strand) : (s.modStrand n f).launches = s.launches := rfl
@[simp] theorem State.setStrand_groups (s : State) (n : Nat) (x : Strand) : (s.setStrand n x).groups = s.groups := rfl
@[simp] theorem State.modStrand_groups (s : State) (n : Nat) (f : Strand → Strand) : (s.modStrand n f).groups = s.groups := rfl
@[simp] theorem State.setStrand_placement (s : State) (n : Nat) (x : Strand) : (s.setStrand n x).placement = s.placement := rfl
@[simp] theorem State.modStrand_placement (s : State) (n : Nat) (f : Strand → Strand) : (s.modStrand n f).placement = s.placement := rfl
@[simp] theorem State.setStrand_saved (s : State) (n : Nat) (x : Strand) : (s.setStrand n x).saved = s.saved := rfl
@[simp] theorem State.modStrand_saved (s : State) (n : Nat) (f : Strand → Strand) : (s.modStrand n f).saved = s.saved := rfl
@[simp] theorem State.setStrand_fabric (s : State) (n : Nat) (x : Strand) : (s.setStrand n x).fabric = s.fabric := rfl
@[simp] theorem State.modStrand_fabric (s : State) (n : Nat) (f : Strand → Strand) : (s.modStrand n f).fabric = s.fabric := rfl
@[simp] theorem State.setStrand_cur8 (s : State) (n : Nat) (x : Strand) : (s.setStrand n x).cur8 = s.cur8 := rfl
@[simp] theorem State.modStrand_cur8 (s : State) (n : Nat) (f : Strand → Strand) : (s.modStrand n f).cur8 = s.cur8 := rfl
@[simp] theorem State.setStrand_agenda (s : State) (n : Nat) (x : Strand) : (s.setStrand n x).agenda = s.agenda := rfl
@[simp] theorem State.modStrand_agenda (s : State) (n : Nat) (f : Strand → Strand) : (s.modStrand n f).agenda = s.agenda := rfl
@[simp] theorem State.setStrand_inbox (s : State) (n : Nat) (x : Strand) : (s.setStrand n x).inbox = s.inbox := rfl
@[simp] theorem State.modStrand_inbox (s : State) (n : Nat) (f : Strand → Strand) : (s.modStrand n f).inbox = s.inbox := rfl
@[simp] theorem State.setStrand_cur (s : State) (n : Nat) (x : Strand) : (s.setStrand n x).cur = s.cur := rfl
@[simp] theorem State.modStrand_cur (s : State) (n : Nat) (f : Strand → Strand) : (s.modStrand n f).cur = s.cur := rfl
@[simp] theorem State.setStrand_opId (s : State) (n : Nat) (x : Strand) : (s.setStrand n x).opId = s.opId := rfl
@[simp] theorem State.modStrand_opId (s : State) (n : Nat) (f : Strand → Strand) : (s.modStrand n f).opId = s.opId := rfl
@[simp] theorem State.setStrand_clkOp (s : State) (n : Nat) (x : Strand) : (s.setStrand n x).clkOp = s.clkOp := rfl
@[simp] theorem State.modStrand_clkOp (s : State) (n : Nat) (f : Strand → Strand) : (s.modStrand n f).clkOp = s.clkOp := rfl
@[simp] theorem State.setStrand_freeCtr (s : State) (n : Nat) (x : Strand) : (s.setStrand n x).freeCtr = s.freeCtr := rfl
@[simp] theorem State.modStrand_freeCtr (s : State) (n : Nat) (f : Strand → Strand) : (s.modStrand n f).freeCtr = s.freeCtr := rfl
@[simp] theorem State.core_setCore (s : State) (n m : Nat) (x : Core) :
    (s.setCore n x).core m = if n = m then x else s.core m := by simp [State.core, State.setCore]
@[simp] theorem State.core_modCore (s : State) (n m : Nat) (f : Core → Core) :
    (s.modCore n f).core m = if n = m then f (s.core n) else s.core m := by simp [State.modCore]
@[simp] theorem State.strand_setCore (s : State) (n m : Nat) (x : Core) : (s.setCore n x).strand m = s.strand m := rfl
@[simp] theorem State.strand_modCore (s : State) (n m : Nat) (f : Core → Core) : (s.modCore n f).strand m = s.strand m := rfl
@[simp] theorem State.wing_setCore (s : State) (n m : Nat) (x : Core) : (s.setCore n x).wing m = s.wing m := rfl
@[simp] theorem State.wing_modCore (s : State) (n m : Nat) (f : Core → Core) : (s.modCore n f).wing m = s.wing m := rfl
@[simp] theorem State.die_setCore (s : State) (n m : Nat) (x : Core) : (s.setCore n x).die m = s.die m := rfl
@[simp] theorem State.die_modCore (s : State) (n m : Nat) (f : Core → Core) : (s.modCore n f).die m = s.die m := rfl
@[simp] theorem State.setCore_clk (s : State) (n : Nat) (x : Core) : (s.setCore n x).clk = s.clk := rfl
@[simp] theorem State.modCore_clk (s : State) (n : Nat) (f : Core → Core) : (s.modCore n f).clk = s.clk := rfl
@[simp] theorem State.setCore_mem (s : State) (n : Nat) (x : Core) : (s.setCore n x).mem = s.mem := rfl
@[simp] theorem State.modCore_mem (s : State) (n : Nat) (f : Core → Core) : (s.modCore n f).mem = s.mem := rfl
@[simp] theorem State.setCore_marks (s : State) (n : Nat) (x : Core) : (s.setCore n x).marks = s.marks := rfl
@[simp] theorem State.modCore_marks (s : State) (n : Nat) (f : Core → Core) : (s.modCore n f).marks = s.marks := rfl
@[simp] theorem State.setCore_homes (s : State) (n : Nat) (x : Core) : (s.setCore n x).homes = s.homes := rfl
@[simp] theorem State.modCore_homes (s : State) (n : Nat) (f : Core → Core) : (s.modCore n f).homes = s.homes := rfl
@[simp] theorem State.setCore_strands (s : State) (n : Nat) (x : Core) : (s.setCore n x).strands = s.strands := rfl
@[simp] theorem State.modCore_strands (s : State) (n : Nat) (f : Core → Core) : (s.modCore n f).strands = s.strands := rfl
@[simp] theorem State.setCore_wings (s : State) (n : Nat) (x : Core) : (s.setCore n x).wings = s.wings := rfl
@[simp] theorem State.modCore_wings (s : State) (n : Nat) (f : Core → Core) : (s.modCore n f).wings = s.wings := rfl
@[simp] theorem State.setCore_dies (s : State) (n : Nat) (x : Core) : (s.setCore n x).dies = s.dies := rfl
@[simp] theorem State.modCore_dies (s : State) (n : Nat) (f : Core → Core) : (s.modCore n f).dies = s.dies := rfl
@[simp] theorem State.setCore_catalogue (s : State) (n : Nat) (x : Core) : (s.setCore n x).catalogue = s.catalogue := rfl
@[simp] theorem State.modCore_catalogue (s : State) (n : Nat) (f : Core → Core) : (s.modCore n f).catalogue = s.catalogue := rfl
@[simp] theorem State.setCore_tqueues (s : State) (n : Nat) (x : Core) : (s.setCore n x).tqueues = s.tqueues := rfl
@[simp] theorem State.modCore_tqueues (s : State) (n : Nat) (f : Core → Core) : (s.modCore n f).tqueues = s.tqueues := rfl
@[simp] theorem State.setCore_tasks (s : State) (n : Nat) (x : Core) : (s.setCore n x).tasks = s.tasks := rfl
@[simp] theorem State.modCore_tasks (s : State) (n : Nat) (f : Core → Core) : (s.modCore n f).tasks = s.tasks := rfl
@[simp] theorem State.setCore_contexts (s : State) (n : Nat) (x : Core) : (s.setCore n x).contexts = s.contexts := rfl
@[simp] theorem State.modCore_contexts (s : State) (n : Nat) (f : Core → Core) : (s.modCore n f).contexts = s.contexts := rfl
@[simp] theorem State.setCore_lqueues (s : State) (n : Nat) (x : Core) : (s.setCore n x).lqueues = s.lqueues := rfl
@[simp] theorem State.modCore_lqueues (s : State) (n : Nat) (f : Core → Core) : (s.modCore n f).lqueues = s.lqueues := rfl
@[simp] theorem State.setCore_nextQueue (s : State) (n : Nat) (x : Core) : (s.setCore n x).nextQueue = s.nextQueue := rfl
@[simp] theorem State.modCore_nextQueue (s : State) (n : Nat) (f : Core → Core) : (s.modCore n f).nextQueue = s.nextQueue := rfl
@[simp] theorem State.setCore_frontPts (s : State) (n : Nat) (x : Core) : (s.setCore n x).frontPts = s.frontPts := rfl
@[simp] theorem State.modCore_frontPts (s : State) (n : Nat) (f : Core → Core) : (s.modCore n f).frontPts = s.frontPts := rfl
@[simp] theorem State.setCore_portPts (s : State) (n : Nat) (x : Core) : (s.setCore n x).portPts = s.portPts := rfl
@[simp] theorem State.modCore_portPts (s : State) (n : Nat) (f : Core → Core) : (s.modCore n f).portPts = s.portPts := rfl
@[simp] theorem State.setCore_launches (s : State) (n : Nat) (x : Core) : (s.setCore n x).launches = s.launches := rfl
@[simp] theorem State.modCore_launches (s : State) (n : Nat) (f : Core → Core) : (s.modCore n f).launches = s.launches := rfl
@[simp] theorem State.setCore_groups (s : State) (n : Nat) (x : Core) : (s.setCore n x).groups = s.groups := rfl
@[simp] theorem State.modCore_groups (s : State) (n : Nat) (f : Core → Core) : (s.modCore n f).groups = s.groups := rfl
@[simp] theorem State.setCore_placement (s : State) (n : Nat) (x : Core) : (s.setCore n x).placement = s.placement := rfl
@[simp] theorem State.modCore_placement (s : State) (n : Nat) (f : Core → Core) : (s.modCore n f).placement = s.placement := rfl
@[simp] theorem State.setCore_saved (s : State) (n : Nat) (x : Core) : (s.setCore n x).saved = s.saved := rfl
@[simp] theorem State.modCore_saved (s : State) (n : Nat) (f : Core → Core) : (s.modCore n f).saved = s.saved := rfl
@[simp] theorem State.setCore_fabric (s : State) (n : Nat) (x : Core) : (s.setCore n x).fabric = s.fabric := rfl
@[simp] theorem State.modCore_fabric (s : State) (n : Nat) (f : Core → Core) : (s.modCore n f).fabric = s.fabric := rfl
@[simp] theorem State.setCore_cur8 (s : State) (n : Nat) (x : Core) : (s.setCore n x).cur8 = s.cur8 := rfl
@[simp] theorem State.modCore_cur8 (s : State) (n : Nat) (f : Core → Core) : (s.modCore n f).cur8 = s.cur8 := rfl
@[simp] theorem State.setCore_agenda (s : State) (n : Nat) (x : Core) : (s.setCore n x).agenda = s.agenda := rfl
@[simp] theorem State.modCore_agenda (s : State) (n : Nat) (f : Core → Core) : (s.modCore n f).agenda = s.agenda := rfl
@[simp] theorem State.setCore_inbox (s : State) (n : Nat) (x : Core) : (s.setCore n x).inbox = s.inbox := rfl
@[simp] theorem State.modCore_inbox (s : State) (n : Nat) (f : Core → Core) : (s.modCore n f).inbox = s.inbox := rfl
@[simp] theorem State.setCore_cur (s : State) (n : Nat) (x : Core) : (s.setCore n x).cur = s.cur := rfl
@[simp] theorem State.modCore_cur (s : State) (n : Nat) (f : Core → Core) : (s.modCore n f).cur = s.cur := rfl
@[simp] theorem State.setCore_opId (s : State) (n : Nat) (x : Core) : (s.setCore n x).opId = s.opId := rfl
@[simp] theorem State.modCore_opId (s : State) (n : Nat) (f : Core → Core) : (s.modCore n f).opId = s.opId := rfl
@[simp] theorem State.setCore_clkOp (s : State) (n : Nat) (x : Core) : (s.setCore n x).clkOp = s.clkOp := rfl
@[simp] theorem State.modCore_clkOp (s : State) (n : Nat) (f : Core → Core) : (s.modCore n f).clkOp = s.clkOp := rfl
@[simp] theorem State.setCore_freeCtr (s : State) (n : Nat) (x : Core) : (s.setCore n x).freeCtr = s.freeCtr := rfl
@[simp] theorem State.modCore_freeCtr (s : State) (n : Nat) (f : Core → Core) : (s.modCore n f).freeCtr = s.freeCtr := rfl
@[simp] theorem State.wing_setWing (s : State) (n m : Nat) (x : Wing) :
    (s.setWing n x).wing m = if n = m then x else s.wing m := by simp [State.wing, State.setWing]
@[simp] theorem State.wing_modWing (s : State) (n m : Nat) (f : Wing → Wing) :
    (s.modWing n f).wing m = if n = m then f (s.wing n) else s.wing m := by simp [State.modWing]
@[simp] theorem State.strand_setWing (s : State) (n m : Nat) (x : Wing) : (s.setWing n x).strand m = s.strand m := rfl
@[simp] theorem State.strand_modWing (s : State) (n m : Nat) (f : Wing → Wing) : (s.modWing n f).strand m = s.strand m := rfl
@[simp] theorem State.core_setWing (s : State) (n m : Nat) (x : Wing) : (s.setWing n x).core m = s.core m := rfl
@[simp] theorem State.core_modWing (s : State) (n m : Nat) (f : Wing → Wing) : (s.modWing n f).core m = s.core m := rfl
@[simp] theorem State.die_setWing (s : State) (n m : Nat) (x : Wing) : (s.setWing n x).die m = s.die m := rfl
@[simp] theorem State.die_modWing (s : State) (n m : Nat) (f : Wing → Wing) : (s.modWing n f).die m = s.die m := rfl
@[simp] theorem State.setWing_clk (s : State) (n : Nat) (x : Wing) : (s.setWing n x).clk = s.clk := rfl
@[simp] theorem State.modWing_clk (s : State) (n : Nat) (f : Wing → Wing) : (s.modWing n f).clk = s.clk := rfl
@[simp] theorem State.setWing_mem (s : State) (n : Nat) (x : Wing) : (s.setWing n x).mem = s.mem := rfl
@[simp] theorem State.modWing_mem (s : State) (n : Nat) (f : Wing → Wing) : (s.modWing n f).mem = s.mem := rfl
@[simp] theorem State.setWing_marks (s : State) (n : Nat) (x : Wing) : (s.setWing n x).marks = s.marks := rfl
@[simp] theorem State.modWing_marks (s : State) (n : Nat) (f : Wing → Wing) : (s.modWing n f).marks = s.marks := rfl
@[simp] theorem State.setWing_homes (s : State) (n : Nat) (x : Wing) : (s.setWing n x).homes = s.homes := rfl
@[simp] theorem State.modWing_homes (s : State) (n : Nat) (f : Wing → Wing) : (s.modWing n f).homes = s.homes := rfl
@[simp] theorem State.setWing_strands (s : State) (n : Nat) (x : Wing) : (s.setWing n x).strands = s.strands := rfl
@[simp] theorem State.modWing_strands (s : State) (n : Nat) (f : Wing → Wing) : (s.modWing n f).strands = s.strands := rfl
@[simp] theorem State.setWing_cores (s : State) (n : Nat) (x : Wing) : (s.setWing n x).cores = s.cores := rfl
@[simp] theorem State.modWing_cores (s : State) (n : Nat) (f : Wing → Wing) : (s.modWing n f).cores = s.cores := rfl
@[simp] theorem State.setWing_dies (s : State) (n : Nat) (x : Wing) : (s.setWing n x).dies = s.dies := rfl
@[simp] theorem State.modWing_dies (s : State) (n : Nat) (f : Wing → Wing) : (s.modWing n f).dies = s.dies := rfl
@[simp] theorem State.setWing_catalogue (s : State) (n : Nat) (x : Wing) : (s.setWing n x).catalogue = s.catalogue := rfl
@[simp] theorem State.modWing_catalogue (s : State) (n : Nat) (f : Wing → Wing) : (s.modWing n f).catalogue = s.catalogue := rfl
@[simp] theorem State.setWing_tqueues (s : State) (n : Nat) (x : Wing) : (s.setWing n x).tqueues = s.tqueues := rfl
@[simp] theorem State.modWing_tqueues (s : State) (n : Nat) (f : Wing → Wing) : (s.modWing n f).tqueues = s.tqueues := rfl
@[simp] theorem State.setWing_tasks (s : State) (n : Nat) (x : Wing) : (s.setWing n x).tasks = s.tasks := rfl
@[simp] theorem State.modWing_tasks (s : State) (n : Nat) (f : Wing → Wing) : (s.modWing n f).tasks = s.tasks := rfl
@[simp] theorem State.setWing_contexts (s : State) (n : Nat) (x : Wing) : (s.setWing n x).contexts = s.contexts := rfl
@[simp] theorem State.modWing_contexts (s : State) (n : Nat) (f : Wing → Wing) : (s.modWing n f).contexts = s.contexts := rfl
@[simp] theorem State.setWing_lqueues (s : State) (n : Nat) (x : Wing) : (s.setWing n x).lqueues = s.lqueues := rfl
@[simp] theorem State.modWing_lqueues (s : State) (n : Nat) (f : Wing → Wing) : (s.modWing n f).lqueues = s.lqueues := rfl
@[simp] theorem State.setWing_nextQueue (s : State) (n : Nat) (x : Wing) : (s.setWing n x).nextQueue = s.nextQueue := rfl
@[simp] theorem State.modWing_nextQueue (s : State) (n : Nat) (f : Wing → Wing) : (s.modWing n f).nextQueue = s.nextQueue := rfl
@[simp] theorem State.setWing_frontPts (s : State) (n : Nat) (x : Wing) : (s.setWing n x).frontPts = s.frontPts := rfl
@[simp] theorem State.modWing_frontPts (s : State) (n : Nat) (f : Wing → Wing) : (s.modWing n f).frontPts = s.frontPts := rfl
@[simp] theorem State.setWing_portPts (s : State) (n : Nat) (x : Wing) : (s.setWing n x).portPts = s.portPts := rfl
@[simp] theorem State.modWing_portPts (s : State) (n : Nat) (f : Wing → Wing) : (s.modWing n f).portPts = s.portPts := rfl
@[simp] theorem State.setWing_launches (s : State) (n : Nat) (x : Wing) : (s.setWing n x).launches = s.launches := rfl
@[simp] theorem State.modWing_launches (s : State) (n : Nat) (f : Wing → Wing) : (s.modWing n f).launches = s.launches := rfl
@[simp] theorem State.setWing_groups (s : State) (n : Nat) (x : Wing) : (s.setWing n x).groups = s.groups := rfl
@[simp] theorem State.modWing_groups (s : State) (n : Nat) (f : Wing → Wing) : (s.modWing n f).groups = s.groups := rfl
@[simp] theorem State.setWing_placement (s : State) (n : Nat) (x : Wing) : (s.setWing n x).placement = s.placement := rfl
@[simp] theorem State.modWing_placement (s : State) (n : Nat) (f : Wing → Wing) : (s.modWing n f).placement = s.placement := rfl
@[simp] theorem State.setWing_saved (s : State) (n : Nat) (x : Wing) : (s.setWing n x).saved = s.saved := rfl
@[simp] theorem State.modWing_saved (s : State) (n : Nat) (f : Wing → Wing) : (s.modWing n f).saved = s.saved := rfl
@[simp] theorem State.setWing_fabric (s : State) (n : Nat) (x : Wing) : (s.setWing n x).fabric = s.fabric := rfl
@[simp] theorem State.modWing_fabric (s : State) (n : Nat) (f : Wing → Wing) : (s.modWing n f).fabric = s.fabric := rfl
@[simp] theorem State.setWing_cur8 (s : State) (n : Nat) (x : Wing) : (s.setWing n x).cur8 = s.cur8 := rfl
@[simp] theorem State.modWing_cur8 (s : State) (n : Nat) (f : Wing → Wing) : (s.modWing n f).cur8 = s.cur8 := rfl
@[simp] theorem State.setWing_agenda (s : State) (n : Nat) (x : Wing) : (s.setWing n x).agenda = s.agenda := rfl
@[simp] theorem State.modWing_agenda (s : State) (n : Nat) (f : Wing → Wing) : (s.modWing n f).agenda = s.agenda := rfl
@[simp] theorem State.setWing_inbox (s : State) (n : Nat) (x : Wing) : (s.setWing n x).inbox = s.inbox := rfl
@[simp] theorem State.modWing_inbox (s : State) (n : Nat) (f : Wing → Wing) : (s.modWing n f).inbox = s.inbox := rfl
@[simp] theorem State.setWing_cur (s : State) (n : Nat) (x : Wing) : (s.setWing n x).cur = s.cur := rfl
@[simp] theorem State.modWing_cur (s : State) (n : Nat) (f : Wing → Wing) : (s.modWing n f).cur = s.cur := rfl
@[simp] theorem State.setWing_opId (s : State) (n : Nat) (x : Wing) : (s.setWing n x).opId = s.opId := rfl
@[simp] theorem State.modWing_opId (s : State) (n : Nat) (f : Wing → Wing) : (s.modWing n f).opId = s.opId := rfl
@[simp] theorem State.setWing_clkOp (s : State) (n : Nat) (x : Wing) : (s.setWing n x).clkOp = s.clkOp := rfl
@[simp] theorem State.modWing_clkOp (s : State) (n : Nat) (f : Wing → Wing) : (s.modWing n f).clkOp = s.clkOp := rfl
@[simp] theorem State.setWing_freeCtr (s : State) (n : Nat) (x : Wing) : (s.setWing n x).freeCtr = s.freeCtr := rfl
@[simp] theorem State.modWing_freeCtr (s : State) (n : Nat) (f : Wing → Wing) : (s.modWing n f).freeCtr = s.freeCtr := rfl
@[simp] theorem State.die_setDie (s : State) (n m : Nat) (x : Die) :
    (s.setDie n x).die m = if n = m then x else s.die m := by simp [State.die, State.setDie]
@[simp] theorem State.die_modDie (s : State) (n m : Nat) (f : Die → Die) :
    (s.modDie n f).die m = if n = m then f (s.die n) else s.die m := by simp [State.modDie]
@[simp] theorem State.strand_setDie (s : State) (n m : Nat) (x : Die) : (s.setDie n x).strand m = s.strand m := rfl
@[simp] theorem State.strand_modDie (s : State) (n m : Nat) (f : Die → Die) : (s.modDie n f).strand m = s.strand m := rfl
@[simp] theorem State.core_setDie (s : State) (n m : Nat) (x : Die) : (s.setDie n x).core m = s.core m := rfl
@[simp] theorem State.core_modDie (s : State) (n m : Nat) (f : Die → Die) : (s.modDie n f).core m = s.core m := rfl
@[simp] theorem State.wing_setDie (s : State) (n m : Nat) (x : Die) : (s.setDie n x).wing m = s.wing m := rfl
@[simp] theorem State.wing_modDie (s : State) (n m : Nat) (f : Die → Die) : (s.modDie n f).wing m = s.wing m := rfl
@[simp] theorem State.setDie_clk (s : State) (n : Nat) (x : Die) : (s.setDie n x).clk = s.clk := rfl
@[simp] theorem State.modDie_clk (s : State) (n : Nat) (f : Die → Die) : (s.modDie n f).clk = s.clk := rfl
@[simp] theorem State.setDie_mem (s : State) (n : Nat) (x : Die) : (s.setDie n x).mem = s.mem := rfl
@[simp] theorem State.modDie_mem (s : State) (n : Nat) (f : Die → Die) : (s.modDie n f).mem = s.mem := rfl
@[simp] theorem State.setDie_marks (s : State) (n : Nat) (x : Die) : (s.setDie n x).marks = s.marks := rfl
@[simp] theorem State.modDie_marks (s : State) (n : Nat) (f : Die → Die) : (s.modDie n f).marks = s.marks := rfl
@[simp] theorem State.setDie_homes (s : State) (n : Nat) (x : Die) : (s.setDie n x).homes = s.homes := rfl
@[simp] theorem State.modDie_homes (s : State) (n : Nat) (f : Die → Die) : (s.modDie n f).homes = s.homes := rfl
@[simp] theorem State.setDie_strands (s : State) (n : Nat) (x : Die) : (s.setDie n x).strands = s.strands := rfl
@[simp] theorem State.modDie_strands (s : State) (n : Nat) (f : Die → Die) : (s.modDie n f).strands = s.strands := rfl
@[simp] theorem State.setDie_cores (s : State) (n : Nat) (x : Die) : (s.setDie n x).cores = s.cores := rfl
@[simp] theorem State.modDie_cores (s : State) (n : Nat) (f : Die → Die) : (s.modDie n f).cores = s.cores := rfl
@[simp] theorem State.setDie_wings (s : State) (n : Nat) (x : Die) : (s.setDie n x).wings = s.wings := rfl
@[simp] theorem State.modDie_wings (s : State) (n : Nat) (f : Die → Die) : (s.modDie n f).wings = s.wings := rfl
@[simp] theorem State.setDie_catalogue (s : State) (n : Nat) (x : Die) : (s.setDie n x).catalogue = s.catalogue := rfl
@[simp] theorem State.modDie_catalogue (s : State) (n : Nat) (f : Die → Die) : (s.modDie n f).catalogue = s.catalogue := rfl
@[simp] theorem State.setDie_tqueues (s : State) (n : Nat) (x : Die) : (s.setDie n x).tqueues = s.tqueues := rfl
@[simp] theorem State.modDie_tqueues (s : State) (n : Nat) (f : Die → Die) : (s.modDie n f).tqueues = s.tqueues := rfl
@[simp] theorem State.setDie_tasks (s : State) (n : Nat) (x : Die) : (s.setDie n x).tasks = s.tasks := rfl
@[simp] theorem State.modDie_tasks (s : State) (n : Nat) (f : Die → Die) : (s.modDie n f).tasks = s.tasks := rfl
@[simp] theorem State.setDie_contexts (s : State) (n : Nat) (x : Die) : (s.setDie n x).contexts = s.contexts := rfl
@[simp] theorem State.modDie_contexts (s : State) (n : Nat) (f : Die → Die) : (s.modDie n f).contexts = s.contexts := rfl
@[simp] theorem State.setDie_lqueues (s : State) (n : Nat) (x : Die) : (s.setDie n x).lqueues = s.lqueues := rfl
@[simp] theorem State.modDie_lqueues (s : State) (n : Nat) (f : Die → Die) : (s.modDie n f).lqueues = s.lqueues := rfl
@[simp] theorem State.setDie_nextQueue (s : State) (n : Nat) (x : Die) : (s.setDie n x).nextQueue = s.nextQueue := rfl
@[simp] theorem State.modDie_nextQueue (s : State) (n : Nat) (f : Die → Die) : (s.modDie n f).nextQueue = s.nextQueue := rfl
@[simp] theorem State.setDie_frontPts (s : State) (n : Nat) (x : Die) : (s.setDie n x).frontPts = s.frontPts := rfl
@[simp] theorem State.modDie_frontPts (s : State) (n : Nat) (f : Die → Die) : (s.modDie n f).frontPts = s.frontPts := rfl
@[simp] theorem State.setDie_portPts (s : State) (n : Nat) (x : Die) : (s.setDie n x).portPts = s.portPts := rfl
@[simp] theorem State.modDie_portPts (s : State) (n : Nat) (f : Die → Die) : (s.modDie n f).portPts = s.portPts := rfl
@[simp] theorem State.setDie_launches (s : State) (n : Nat) (x : Die) : (s.setDie n x).launches = s.launches := rfl
@[simp] theorem State.modDie_launches (s : State) (n : Nat) (f : Die → Die) : (s.modDie n f).launches = s.launches := rfl
@[simp] theorem State.setDie_groups (s : State) (n : Nat) (x : Die) : (s.setDie n x).groups = s.groups := rfl
@[simp] theorem State.modDie_groups (s : State) (n : Nat) (f : Die → Die) : (s.modDie n f).groups = s.groups := rfl
@[simp] theorem State.setDie_placement (s : State) (n : Nat) (x : Die) : (s.setDie n x).placement = s.placement := rfl
@[simp] theorem State.modDie_placement (s : State) (n : Nat) (f : Die → Die) : (s.modDie n f).placement = s.placement := rfl
@[simp] theorem State.setDie_saved (s : State) (n : Nat) (x : Die) : (s.setDie n x).saved = s.saved := rfl
@[simp] theorem State.modDie_saved (s : State) (n : Nat) (f : Die → Die) : (s.modDie n f).saved = s.saved := rfl
@[simp] theorem State.setDie_fabric (s : State) (n : Nat) (x : Die) : (s.setDie n x).fabric = s.fabric := rfl
@[simp] theorem State.modDie_fabric (s : State) (n : Nat) (f : Die → Die) : (s.modDie n f).fabric = s.fabric := rfl
@[simp] theorem State.setDie_cur8 (s : State) (n : Nat) (x : Die) : (s.setDie n x).cur8 = s.cur8 := rfl
@[simp] theorem State.modDie_cur8 (s : State) (n : Nat) (f : Die → Die) : (s.modDie n f).cur8 = s.cur8 := rfl
@[simp] theorem State.setDie_agenda (s : State) (n : Nat) (x : Die) : (s.setDie n x).agenda = s.agenda := rfl
@[simp] theorem State.modDie_agenda (s : State) (n : Nat) (f : Die → Die) : (s.modDie n f).agenda = s.agenda := rfl
@[simp] theorem State.setDie_inbox (s : State) (n : Nat) (x : Die) : (s.setDie n x).inbox = s.inbox := rfl
@[simp] theorem State.modDie_inbox (s : State) (n : Nat) (f : Die → Die) : (s.modDie n f).inbox = s.inbox := rfl
@[simp] theorem State.setDie_cur (s : State) (n : Nat) (x : Die) : (s.setDie n x).cur = s.cur := rfl
@[simp] theorem State.modDie_cur (s : State) (n : Nat) (f : Die → Die) : (s.modDie n f).cur = s.cur := rfl
@[simp] theorem State.setDie_opId (s : State) (n : Nat) (x : Die) : (s.setDie n x).opId = s.opId := rfl
@[simp] theorem State.modDie_opId (s : State) (n : Nat) (f : Die → Die) : (s.modDie n f).opId = s.opId := rfl
@[simp] theorem State.setDie_clkOp (s : State) (n : Nat) (x : Die) : (s.setDie n x).clkOp = s.clkOp := rfl
@[simp] theorem State.modDie_clkOp (s : State) (n : Nat) (f : Die → Die) : (s.modDie n f).clkOp = s.clkOp := rfl
@[simp] theorem State.setDie_freeCtr (s : State) (n : Nat) (x : Die) : (s.setDie n x).freeCtr = s.freeCtr := rfl
@[simp] theorem State.modDie_freeCtr (s : State) (n : Nat) (f : Die → Die) : (s.modDie n f).freeCtr = s.freeCtr := rfl

/-! ### Registers -/

@[simp] theorem Regs.sQ_setSQ (r : Regs) (i j : Nat) (x : List (QCell SV)) :
    (r.setSQ i x).sQ j = if i = j then x else r.sQ j := by simp [Regs.sQ, Regs.setSQ]
@[simp] theorem Regs.vQ_setSQ (r : Regs) (i j : Nat) (x : List (QCell SV)) : (r.setSQ i x).vQ j = r.vQ j := rfl
@[simp] theorem Regs.sP_setSQ (r : Regs) (i j : Nat) (x : List (QCell SV)) : (r.setSQ i x).sP j = r.sP j := rfl
@[simp] theorem Regs.vP_setSQ (r : Regs) (i j : Nat) (x : List (QCell SV)) : (r.setSQ i x).vP j = r.vP j := rfl
@[simp] theorem Regs.kP_setSQ (r : Regs) (i j : Nat) (x : List (QCell SV)) : (r.setSQ i x).kP j = r.kP j := rfl
@[simp] theorem Regs.setSQ_sp (r : Regs) (i : Nat) (x : List (QCell SV)) : (r.setSQ i x).sp = r.sp := rfl
@[simp] theorem Regs.setSQ_vq (r : Regs) (i : Nat) (x : List (QCell SV)) : (r.setSQ i x).vq = r.vq := rfl
@[simp] theorem Regs.setSQ_vp (r : Regs) (i : Nat) (x : List (QCell SV)) : (r.setSQ i x).vp = r.vp := rfl
@[simp] theorem Regs.setSQ_kp (r : Regs) (i : Nat) (x : List (QCell SV)) : (r.setSQ i x).kp = r.kp := rfl
@[simp] theorem Regs.vQ_setVQ (r : Regs) (i j : Nat) (x : List (QCell VV)) :
    (r.setVQ i x).vQ j = if i = j then x else r.vQ j := by simp [Regs.vQ, Regs.setVQ]
@[simp] theorem Regs.sQ_setVQ (r : Regs) (i j : Nat) (x : List (QCell VV)) : (r.setVQ i x).sQ j = r.sQ j := rfl
@[simp] theorem Regs.sP_setVQ (r : Regs) (i j : Nat) (x : List (QCell VV)) : (r.setVQ i x).sP j = r.sP j := rfl
@[simp] theorem Regs.vP_setVQ (r : Regs) (i j : Nat) (x : List (QCell VV)) : (r.setVQ i x).vP j = r.vP j := rfl
@[simp] theorem Regs.kP_setVQ (r : Regs) (i j : Nat) (x : List (QCell VV)) : (r.setVQ i x).kP j = r.kP j := rfl
@[simp] theorem Regs.setVQ_sq (r : Regs) (i : Nat) (x : List (QCell VV)) : (r.setVQ i x).sq = r.sq := rfl
@[simp] theorem Regs.setVQ_sp (r : Regs) (i : Nat) (x : List (QCell VV)) : (r.setVQ i x).sp = r.sp := rfl
@[simp] theorem Regs.setVQ_vp (r : Regs) (i : Nat) (x : List (QCell VV)) : (r.setVQ i x).vp = r.vp := rfl
@[simp] theorem Regs.setVQ_kp (r : Regs) (i : Nat) (x : List (QCell VV)) : (r.setVQ i x).kp = r.kp := rfl
@[simp] theorem Regs.sP_setSP (r : Regs) (i j : Nat) (x : SV) :
    (r.setSP i x).sP j = if i = j then x else r.sP j := by simp [Regs.sP, Regs.setSP]
@[simp] theorem Regs.sQ_setSP (r : Regs) (i j : Nat) (x : SV) : (r.setSP i x).sQ j = r.sQ j := rfl
@[simp] theorem Regs.vQ_setSP (r : Regs) (i j : Nat) (x : SV) : (r.setSP i x).vQ j = r.vQ j := rfl
@[simp] theorem Regs.vP_setSP (r : Regs) (i j : Nat) (x : SV) : (r.setSP i x).vP j = r.vP j := rfl
@[simp] theorem Regs.kP_setSP (r : Regs) (i j : Nat) (x : SV) : (r.setSP i x).kP j = r.kP j := rfl
@[simp] theorem Regs.setSP_sq (r : Regs) (i : Nat) (x : SV) : (r.setSP i x).sq = r.sq := rfl
@[simp] theorem Regs.setSP_vq (r : Regs) (i : Nat) (x : SV) : (r.setSP i x).vq = r.vq := rfl
@[simp] theorem Regs.setSP_vp (r : Regs) (i : Nat) (x : SV) : (r.setSP i x).vp = r.vp := rfl
@[simp] theorem Regs.setSP_kp (r : Regs) (i : Nat) (x : SV) : (r.setSP i x).kp = r.kp := rfl
@[simp] theorem Regs.vP_setVP (r : Regs) (i j : Nat) (x : VV) :
    (r.setVP i x).vP j = if i = j then x else r.vP j := by simp [Regs.vP, Regs.setVP]
@[simp] theorem Regs.sQ_setVP (r : Regs) (i j : Nat) (x : VV) : (r.setVP i x).sQ j = r.sQ j := rfl
@[simp] theorem Regs.vQ_setVP (r : Regs) (i j : Nat) (x : VV) : (r.setVP i x).vQ j = r.vQ j := rfl
@[simp] theorem Regs.sP_setVP (r : Regs) (i j : Nat) (x : VV) : (r.setVP i x).sP j = r.sP j := rfl
@[simp] theorem Regs.kP_setVP (r : Regs) (i j : Nat) (x : VV) : (r.setVP i x).kP j = r.kP j := rfl
@[simp] theorem Regs.setVP_sq (r : Regs) (i : Nat) (x : VV) : (r.setVP i x).sq = r.sq := rfl
@[simp] theorem Regs.setVP_sp (r : Regs) (i : Nat) (x : VV) : (r.setVP i x).sp = r.sp := rfl
@[simp] theorem Regs.setVP_vq (r : Regs) (i : Nat) (x : VV) : (r.setVP i x).vq = r.vq := rfl
@[simp] theorem Regs.setVP_kp (r : Regs) (i : Nat) (x : VV) : (r.setVP i x).kp = r.kp := rfl

/-- k0 discards what is written to it and reads all ones (R126). -/
@[simp] theorem Regs.kP_setKP (r : Regs) (i j : Nat) (x : PV) :
    (r.setKP i x).kP j = if j = 0 then ⟨~~~0#64, 0⟩ else if i = j then x else r.kP j := by
  unfold Regs.setKP Regs.kP
  by_cases h : j = 0
  · simp [h]
  · by_cases h2 : i = 0
    · have : ¬ 0 = j := by omega
      simp [h, h2, this]
    · simp [h, h2]

@[simp] theorem Regs.kP_zero (r : Regs) : r.kP 0 = ⟨~~~0#64, 0⟩ := rfl

end Sys2Proof.Machine
end

