-- ==== Sys2Proof/Laws/Memory.lean ====
section
/-! SUPPORT. Memory: reading what was written, and every memory operation keeps the canonical form (log entry 2). -/

namespace Sys2Proof.Machine

/-! ### Bytes -/

theorem memGet_memDel (m : List Host.Cell) (a b : Nat) : memGet (memDel m a) b = if a = b then 0 else memGet m b := by
  induction m with
  | nil => simp [memDel, memGet]
  | cons p r ih =>
    obtain ⟨k, v⟩ := p
    unfold memDel
    split
    · next h => subst h; rw [ih]; by_cases h2 : k = b <;> simp [memGet, h2]
    · next h =>
      by_cases h2 : k = b
      · subst h2; simp [memGet, Ne.symm h]
      · simp [memGet, h2, ih]

theorem memGet_memPut (m : List Host.Cell) (a b : Nat) (x : Byte) :
    memGet (memPut m a x) b = if a = b then x else memGet m b := by
  induction m with
  | nil => simp [memPut, memGet]
  | cons p r ih =>
    obtain ⟨k, v⟩ := p
    unfold memPut
    split
    · simp [memGet]
    · split
      · next h => subst h; by_cases h2 : a = b <;> simp [memGet, h2]
      · next h =>
        by_cases h2 : k = b
        · subst h2; simp [memGet, h]
        · simp [memGet, h2, ih]

/-- A byte reads as written; every other reads as before. -/
theorem memGet_memSet (m : List Host.Cell) (a b : Nat) (x : Byte) :
    memGet (memSet m a x) b = if a = b then x else memGet m b := by
  unfold memSet
  split
  · next h => subst h; exact memGet_memDel m a b
  · exact memGet_memPut m a b x

/-- A write of bytes leaves every other address as it was. -/
theorem memGet_memSetAll_of_not_mem (m : List Host.Cell) (l : List (Nat × Byte)) (a : Nat) (h : ∀ p ∈ l, p.1 ≠ a) :
    memGet (memSetAll m l) a = memGet m a := by
  induction l generalizing m with
  | nil => rfl
  | cons p r ih =>
    have h1 : p.1 ≠ a := h p (by simp)
    have h2 : memSetAll m (p :: r) = memSetAll (memSet m p.1 p.2) r := rfl
    rw [h2, ih _ (fun q hq => h q (by simp [hq])), memGet_memSet, if_neg h1]

/-! ### The canonical form -/

theorem mem_memDel {m : List Host.Cell} {a : Nat} {c : Host.Cell} (h : c ∈ memDel m a) : c ∈ m := by
  induction m with
  | nil => simp [memDel] at h
  | cons p r ih =>
    obtain ⟨k, v⟩ := p
    unfold memDel at h
    split at h
    · exact List.mem_cons_of_mem _ (ih h)
    · rcases List.mem_cons.mp h with h | h
      · simp [h]
      · exact List.mem_cons_of_mem _ (ih h)

theorem memDel_wf {m : List Host.Cell} (a : Nat) (h : Memory.wf m) : Memory.wf (memDel m a) := by
  refine ⟨?_, fun c hc => h.2 c (mem_memDel hc)⟩
  have h1 := h.1
  clear h
  induction m with
  | nil => simp [memDel]
  | cons p r ih =>
    obtain ⟨k, v⟩ := p
    have hp := List.pairwise_cons.mp h1
    unfold memDel
    split
    · exact ih hp.2
    · exact List.pairwise_cons.mpr ⟨fun c hc => hp.1 c (mem_memDel hc), ih hp.2⟩

theorem mem_memPut {m : List Host.Cell} {a : Nat} {x : Byte} {c : Host.Cell} (h : c ∈ memPut m a x) :
    c = (a, x) ∨ c ∈ m := by
  induction m with
  | nil => simp [memPut] at h; exact .inl h
  | cons p r ih =>
    obtain ⟨k, v⟩ := p
    unfold memPut at h
    split at h
    · simpa using h
    · split at h
      · rcases List.mem_cons.mp h with h | h
        · exact .inl h
        · exact .inr (List.mem_cons_of_mem _ h)
      · rcases List.mem_cons.mp h with h | h
        · exact .inr (by simp [h])
        · exact (ih h).imp id (List.mem_cons_of_mem _)

theorem memPut_wf {m : List Host.Cell} (a : Nat) {x : Byte} (hx : x ≠ 0) (h : Memory.wf m) : Memory.wf (memPut m a x) := by
  refine ⟨?_, fun c hc => ?_⟩
  · have h1 := h.1
    clear h
    induction m with
    | nil => simp [memPut]
    | cons p r ih =>
      obtain ⟨k, v⟩ := p
      have hp := List.pairwise_cons.mp h1
      unfold memPut
      split
      · next hk =>
        refine List.pairwise_cons.mpr ⟨fun c hc => ?_, h1⟩
        rcases List.mem_cons.mp hc with hc | hc
        · subst hc; exact hk
        · exact Nat.lt_trans hk (hp.1 c hc)
      · split
        · next hk => subst hk; exact List.pairwise_cons.mpr ⟨fun c hc => hp.1 c hc, hp.2⟩
        · next h2 h3 =>
          refine List.pairwise_cons.mpr ⟨fun c hc => ?_, ih hp.2⟩
          rcases mem_memPut hc with hc | hc
          · subst hc; show k < a; omega
          · exact hp.1 c hc
  · rcases mem_memPut hc with hc | hc
    · subst hc; exact hx
    · exact h.2 c hc

theorem memSet_wf {m : List Host.Cell} (a : Nat) (x : Byte) (h : Memory.wf m) : Memory.wf (memSet m a x) := by
  unfold memSet
  split
  · exact memDel_wf a h
  · next hx => exact memPut_wf a hx h

/-- Every write of bytes keeps the canonical form. -/
theorem memSetAll_wf {m : List Host.Cell} (l : List (Nat × Byte)) (h : Memory.wf m) : Memory.wf (memSetAll m l) := by
  induction l generalizing m with
  | nil => exact h
  | cons p r ih => exact ih (memSet_wf p.1 p.2 h)

/-- Memory after reset has the canonical form. -/
theorem reset_wf : Memory.wf State.reset.mem := ⟨List.Pairwise.nil, fun _ h => absurd h (by simp [State.reset])⟩

/-! ### What the accesses do to memory -/

theorem foldl_keeps {α β : Type} (P : β → Prop) (f : β → α → β) (l : List α) (b : β) (hb : P b)
    (h : ∀ b a, P b → P (f b a)) : P (l.foldl f b) := by
  induction l generalizing b with
  | nil => exact hb
  | cons a r ih => exact ih (f b a) (h b a hb)

@[simp] theorem State.unmark_mem (s : State) (l : Nat) : (s.unmark l).mem = s.mem := rfl
@[simp] theorem State.mark_mem (s : State) (l : Nat) : (s.mark l).mem = s.mem := rfl
@[simp] theorem State.setPts_mem (s : State) (n : Nat) (p : W64) : (s.setPts n p).mem = s.mem := rfl

/-! ### Merging the bits that a copy holds -/

theorem memMerge_wf {m : List Host.Cell} (l : List (Nat × Byte × Byte)) (h : Memory.wf m) : Memory.wf (memMerge m l) :=
  foldl_keeps Memory.wf _ _ _ h (fun _ _ hm => memSet_wf _ _ hm)

/-- A merge leaves every other address as it was. -/
theorem memGet_memMerge_of_not_mem (m : List Host.Cell) (l : List (Nat × Byte × Byte)) (a : Nat) (h : ∀ p ∈ l, p.1 ≠ a) :
    memGet (memMerge m l) a = memGet m a := by
  induction l generalizing m with
  | nil => rfl
  | cons p r ih =>
    have h2 : memMerge m (p :: r) = memMerge (memSet m p.1 (mixByte (memGet m p.1) p.2.1 p.2.2)) r := rfl
    rw [h2, ih _ (fun q hq => h q (by simp [hq])), memGet_memSet, if_neg (h p (by simp))]

/-- What a merge leaves at an address depends on memory at that address alone. -/
theorem memGet_memMerge_congr {m m' : List Host.Cell} (l : List (Nat × Byte × Byte)) (a : Nat)
    (h : memGet m a = memGet m' a) : memGet (memMerge m l) a = memGet (memMerge m' l) a := by
  induction l generalizing m m' with
  | nil => exact h
  | cons p r ih =>
    refine ih ?_
    rw [memGet_memSet, memGet_memSet]
    split
    · next hp => rw [hp, h]
    · exact h

theorem State.memNow_wf {s : State} (l : List Nat) (h : Memory.wf s.mem) : Memory.wf (s.memNow l) :=
  foldl_keeps Memory.wf _ _ _ h (fun _ _ hm => memMerge_wf _ hm)

/-! ### The byte that a reader finds at an address -/

/-- The byte that a reader finds at an address: a copy's, where one holds it exclusively, else memory's (R230). -/
def State.view (s : State) (a : Nat) : Byte := memGet (memMerge s.mem (s.ownedBytes (a / 256))) a

theorem State.readBytes_one (s : State) (a : Nat) : s.readBytes a 1 = [s.view a] := by
  have h : linesOf a 1 = [a / 256] := by
    unfold linesOf
    rw [show (a + 1 - 1) / 256 + 1 - a / 256 = 1 by simp]
    rfl
  unfold State.readBytes State.memNow State.view
  rw [h]
  rfl

/-- What is held of a line lies in that line. -/
theorem State.ownedBytes_line {s : State} {l : Nat} {p : Nat × Byte × Byte} (h : p ∈ s.ownedBytes l) : p.1 / 256 = l := by
  unfold State.ownedBytes at h
  split at h
  · cases h
  · simp only [List.mem_flatMap, List.mem_filter, beq_iff_eq] at h
    obtain ⟨_, _, _, _, _, h⟩ := h
    exact h

/-- Nothing is held of a line that has no exclusive holder. -/
theorem State.ownedBytes_of_none {s : State} {l : Nat} (h : (s.home l).excl = none) : s.ownedBytes l = [] := by
  unfold State.ownedBytes
  rw [h]

theorem State.view_of_none {s : State} {a : Nat} (h : (s.home (a / 256)).excl = none) : s.view a = memGet s.mem a := by
  unfold State.view
  rw [State.ownedBytes_of_none h]
  rfl

/-- The view depends on memory, on who holds lines, and on the copies in the tile caches. -/
theorem State.view_congr {s t : State} (hm : t.mem = s.mem) (hh : ∀ l, (t.home l).excl = (s.home l).excl)
    (hw : t.wings = s.wings) (a : Nat) : t.view a = s.view a := by
  unfold State.view State.ownedBytes State.wing
  rw [hm, hh, hw]

theorem State.settleExcl_view (s : State) (w a : Nat) : (s.settleExcl w).view a = s.view a := rfl

@[simp] theorem State.settleExcl_mem (s : State) (w : Nat) : (s.settleExcl w).mem = s.mem := rfl
@[simp] theorem State.settleExcl_homes (s : State) (w : Nat) : (s.settleExcl w).homes = s.homes := rfl

/-! ### Recalling a line -/

theorem State.recall_wf {s : State} (l : Nat) (h : Memory.wf s.mem) : Memory.wf (s.recall l).mem := by
  unfold State.recall
  split
  · exact h
  · exact State.memNow_wf _ h

/-- A line that has been recalled has no exclusive holder; the others have the holders they had. -/
theorem State.recall_excl (s : State) (l k : Nat) :
    ((s.recall l).home k).excl = if l = k then none else (s.home k).excl := by
  unfold State.recall
  split
  · next h =>
    split
    · next hk => rw [← hk]; exact h
    · rfl
  · show (mget (mset s.homes l _) k _).excl = _
    rw [mget_mset]
    split <;> rfl

/-- A recall changes no value (R225). -/
theorem State.recall_view (s : State) (l a : Nat) : (s.recall l).view a = s.view a := by
  unfold State.recall
  cases h : (s.home l).excl with
  | none => rfl
  | some w =>
    dsimp only
    rw [State.settleExcl_view]
    by_cases hl : l = a / 256
    · subst hl
      refine State.view_of_none ?_
      show (mget (mset s.homes _ _) _ _).excl = none
      rw [mget_mset, if_pos rfl]
    · have hh : ∀ (f : Wing → Wing) (mem marks),
          ((({ s with mem := mem, marks := marks, homes := mset s.homes l { s.home l with excl := none } } : State).modWing w
            f).home (a / 256)).excl = (s.home (a / 256)).excl := by
        intro f mem marks
        show (mget (mset s.homes l _) (a / 256) _).excl = _
        rw [mget_mset, if_neg hl]
        rfl
      unfold State.view State.ownedBytes
      rw [hh]
      cases hx : (s.home (a / 256)).excl with
      | none =>
        exact memGet_memMerge_of_not_mem _ _ _ (fun p hp hpa => hl ((State.ownedBytes_line hp).symm.trans (by rw [hpa])))
      | some v =>
        dsimp only
        have ho : ∀ (k : Slot), (({ k with own := k.own.filter (fun o => o.1 != l) } : Slot).own.filter
            (fun o => o.1 == a / 256)) = k.own.filter (fun o => o.1 == a / 256) := by
          intro k
          simp only [List.filter_filter]
          refine List.filter_congr (fun o _ => ?_)
          by_cases hq : o.1 = a / 256
          · simp [hq, Ne.symm hl]
          · simp [hq]
        refine (memGet_memMerge_congr _ _
          (memGet_memMerge_of_not_mem s.mem (s.ownedBytes l) a
            (fun p hp hpa => hl ((State.ownedBytes_line hp).symm.trans (by rw [hpa]))))).trans ?_
        refine congrArg (fun z => memGet (memMerge s.mem z) a) ?_
        show List.flatMap _ (mget (mset s.wings w _) v _).slots = _
        rw [mget_mset]
        split
        · next hv =>
          subst hv
          rw [List.flatMap_map]
          refine congrArg (fun z => List.flatMap z (s.wing w).slots) (funext fun k => ?_)
          rw [ho]
          rfl
        · rfl

theorem State.recallAll_wf {s : State} (ls : List Nat) (h : Memory.wf s.mem) : Memory.wf (ls.foldl State.recall s).mem :=
  foldl_keeps (fun t : State => Memory.wf t.mem) _ _ _ h (fun _ _ ht => State.recall_wf _ ht)

theorem State.recallAll_view (s : State) (ls : List Nat) (a : Nat) : (ls.foldl State.recall s).view a = s.view a :=
  foldl_keeps (fun t : State => t.view a = s.view a) _ _ _ rfl (fun _ _ ht => (State.recall_view _ _ _).trans ht)

theorem State.recallAll_excl {s : State} {ls : List Nat} {k : Nat} (h : k ∈ ls) : ((ls.foldl State.recall s).home k).excl = none := by
  induction ls generalizing s with
  | nil => cases h
  | cons l r ih =>
    show ((r.foldl State.recall (s.recall l)).home k).excl = none
    by_cases hr : k ∈ r
    · exact ih hr
    · have hk : l = k := by rcases List.mem_cons.mp h with h | h; exact h.symm; exact absurd h hr
      refine foldl_keeps (fun t : State => (t.home k).excl = none) _ _ _ ?_ (fun b j hb => ?_)
      · rw [State.recall_excl, if_pos hk]
      · rw [State.recall_excl]; split
        · rfl
        · exact hb

/-! ### Loads and stores -/

theorem State.readHome_wf {s : State} (pts : W64) (l : Nat) (h : Memory.wf s.mem) : Memory.wf (s.readHome pts l).1.mem :=
  State.recall_wf l h

theorem foldl_mset_of_mem {α : Type} (ls : List Nat) (m : AMap α) (v d : α) (k : Nat) :
    mget (ls.foldl (fun h l => mset h l v) m) k d = if k ∈ ls then v else mget m k d := by
  induction ls generalizing m with
  | nil => simp
  | cons l r ih =>
    rw [List.foldl_cons, ih, mget_mset]
    by_cases h1 : k ∈ r
    · simp [h1]
    · by_cases h2 : l = k
      · simp [h2]
      · simp [h1, h2, Ne.symm h2]

/-- Clearing marks changes neither memory nor who holds a line. -/
theorem unmarkAll_same (c : Nat → Prop) [DecidablePred c] (ls : List Nat) (s : State) :
    let t := ls.foldl (fun s l => if c l then s.unmark l else s) s
    t.mem = s.mem ∧ t.homes = s.homes ∧ t.wings = s.wings := by
  refine foldl_keeps (fun t : State => t.mem = s.mem ∧ t.homes = s.homes ∧ t.wings = s.wings) _ _ _ ⟨rfl, rfl, rfl⟩
    (fun b a hb => ?_)
  split
  · exact hb
  · exact hb

/-- A write at one stamp keeps the canonical form. -/
theorem State.storeAt_wf {s : State} (ts : W64) (bytes : List (Nat × Byte)) (hw : Memory.wf s.mem) :
    Memory.wf (s.storeAt ts bytes).mem := by
  unfold State.storeAt
  dsimp only
  rw [(unmarkAll_same _ _ _).1]
  exact memSetAll_wf _ (State.recallAll_wf _ hw)

/-- A write at one stamp leaves every byte outside it as readers found it. -/
theorem State.storeAt_view_of_not_mem (s : State) (ts : W64) (bytes : List (Nat × Byte)) (a : Nat)
    (h : ∀ p ∈ bytes, p.1 ≠ a) : (s.storeAt ts bytes).view a = s.view a := by
  unfold State.storeAt
  dsimp only
  obtain ⟨hm, hh, hw⟩ := unmarkAll_same (fun l =>
    256 ≤ ((bytes.filter (fun p => p.1 / 256 == l)).map Prod.fst).eraseDups.length)
    ((bytes.map (fun p => p.1 / 256)).eraseDups) { ((bytes.map (fun p => p.1 / 256)).eraseDups).foldl State.recall s with
      mem := memSetAll (((bytes.map (fun p => p.1 / 256)).eraseDups).foldl State.recall s).mem bytes
      homes := ((bytes.map (fun p => p.1 / 256)).eraseDups).foldl (fun h l => mset h l ⟨ts, ts, none⟩)
        (((bytes.map (fun p => p.1 / 256)).eraseDups).foldl State.recall s).homes }
  refine (State.view_congr hm (fun l => by unfold State.home; rw [hh]) hw a).trans ?_
  rw [← State.recallAll_view s ((bytes.map (fun p => p.1 / 256)).eraseDups) a]
  generalize ((bytes.map (fun p => p.1 / 256)).eraseDups) = ls
  have hx : ∀ (mem : List Host.Cell), State.home { ls.foldl State.recall s with
      mem := mem, homes := ls.foldl (fun h l => mset h l ⟨ts, ts, none⟩) (ls.foldl State.recall s).homes } (a / 256) =
      if a / 256 ∈ ls then ⟨ts, ts, none⟩ else (ls.foldl State.recall s).home (a / 256) := by
    intro mem
    show mget _ _ _ = _
    exact foldl_mset_of_mem _ _ _ _ _
  by_cases hl : a / 256 ∈ ls
  · rw [State.view_of_none (by rw [hx, if_pos hl]), State.view_of_none (State.recallAll_excl hl)]
    exact memGet_memSetAll_of_not_mem _ _ _ h
  · unfold State.view State.ownedBytes
    rw [hx, if_neg hl]
    exact memGet_memMerge_congr _ _ (memGet_memSetAll_of_not_mem _ _ _ h)

/-- One store of an agent keeps the canonical form. -/
theorem State.store_wf {s : State} (pts : W64) (bytes : List (Nat × Byte)) (hw : Memory.wf s.mem) :
    Memory.wf (s.store pts bytes).1.mem := by
  unfold State.store
  split
  · exact hw
  · exact State.storeAt_wf _ _ hw

/-- One store of an agent leaves every byte outside it as readers found it. -/
theorem State.store_view_of_not_mem (s : State) (pts : W64) (bytes : List (Nat × Byte)) (a : Nat)
    (h : ∀ p ∈ bytes, p.1 ≠ a) : (s.store pts bytes).1.view a = s.view a := by
  unfold State.store
  split
  · rfl
  · exact State.storeAt_view_of_not_mem _ _ _ _ h

/-- A load keeps the canonical form and changes no value. -/
theorem State.loadLine_view {s : State} (core : Option Nat) (die asid : Nat) (pts : W64) (line : Nat) (acq : Bool) :
    (Memory.wf s.mem → Memory.wf (s.loadLine core die asid pts line acq).st.mem) ∧
    ∀ a, (s.loadLine core die asid pts line acq).st.view a = s.view a := by
  have key : ∀ (d : AMap Die) (c : AMap Core) (m g : W64) a, State.view { s.recall line with
      homes := mset (s.recall line).homes line { (s.recall line).home line with mrts := wmax m g }, dies := d, cores := c } a =
      s.view a := by
    intro d c m g a
    rw [← State.recall_view s line a]
    refine State.view_congr (s := s.recall line) (t := { s.recall line with
      homes := mset (s.recall line).homes line { (s.recall line).home line with mrts := wmax m g }, dies := d, cores := c })
      rfl (fun l => ?_) rfl a
    show (mget (mset (s.recall line).homes line _) l _).excl = _
    rw [mget_mset]
    split
    · next h => subst h; rfl
    · rfl
  unfold State.loadLine
  cases core <;> dsimp only <;> repeat' split
  all_goals first
    | exact ⟨fun h => h, fun _ => rfl⟩
    | exact ⟨fun h => State.recall_wf line h, fun a => key _ _ _ _ a⟩

theorem State.loadLine_wf {s : State} (core : Option Nat) (die asid : Nat) (pts : W64) (line : Nat) (acq : Bool)
    (h : Memory.wf s.mem) : Memory.wf (s.loadLine core die asid pts line acq).st.mem := (s.loadLine_view _ _ _ _ _ _).1 h

theorem State.load_wf {s : State} (n pa len : Nat) (acq : Bool) (h : Memory.wf s.mem) : Memory.wf (s.load n pa len acq).1.mem :=
  State.loadLine_wf _ _ _ _ _ _ h

/-- A strand's load changes no value. -/
theorem State.load_view (s : State) (n pa len : Nat) (acq : Bool) (a : Nat) : (s.load n pa len acq).1.view a = s.view a :=
  (s.loadLine_view _ _ _ _ _ _).2 a

/-! ### Walks -/

theorem State.readPte_wf {s : State} (sp : Space) (bypass : Bool) (level va pa : Nat) (h : Memory.wf s.mem) :
    Memory.wf (s.readPte sp bypass level va pa).1.mem := by
  unfold State.readPte
  dsimp only
  split
  · exact h
  · exact State.loadLine_wf _ _ _ _ _ _ h

theorem State.walkGo_wf {s : State} (sp : Space) (bypass : Bool) (va level node : Nat) (h : Memory.wf s.mem) :
    Memory.wf (s.walkGo sp bypass va level node).1.mem := by
  induction level generalizing s node with
  | zero =>
    unfold State.walkGo
    dsimp only
    repeat' split
    all_goals first | exact h | exact State.readPte_wf _ _ _ _ _ h
  | succ l ih =>
    unfold State.walkGo
    dsimp only
    repeat' split
    all_goals first | exact h | exact State.readPte_wf _ _ _ _ _ h | exact ih _ (State.readPte_wf _ _ _ _ _ h)

/-- Setting A and D keeps the canonical form. -/
theorem State.setAD_wf {s t : State} {sp : Space} {e e' : Tlb} {d : Bool} (h : s.setAD sp e d = some (t, e'))
    (hw : Memory.wf s.mem) : Memory.wf t.mem := by
  unfold State.setAD at h
  dsimp only at h
  generalize e.w0 ||| (if d = true then 0x300#64 else 0x100#64) = w at h
  split at h
  · cases h; exact hw
  · split at h
    · cases h
    · cases h
      exact State.store_wf _ _ hw

theorem State.walk_wf {s : State} (sp : Space) (va : W64) (d : Bool) (hw : Memory.wf s.mem) :
    Memory.wf (s.walk sp va d).1.mem := by
  unfold State.walk
  split
  · exact hw
  · have h1 := State.walkGo_wf sp false (va57 va) 4 sp.root hw
    split
    · next e => rw [e] at h1; exact h1
    · next s1 t e =>
      rw [e] at h1
      split
      · next e2 => exact State.setAD_wf e2 h1
      · have h2 := State.walkGo_wf sp true (va57 va) 4 sp.root h1
        split
        · next e3 => rw [e3] at h2; exact h2
        · next e3 =>
          rw [e3] at h2
          split
          · next e4 => exact State.setAD_wf e4 h2
          · exact h2

theorem State.walkPut_wf {s : State} (sp : Space) (w : Nat) (va : W64) (d : Bool) (hw : Memory.wf s.mem) :
    Memory.wf (s.walkPut sp w va d).1.mem := by
  have h := State.walk_wf sp va d hw
  unfold State.walkPut
  dsimp only
  split <;> exact h

theorem State.xlateNow_wf {s : State} (sp : Space) (w : Nat) (va : W64) (acc : Acc) (hw : Memory.wf s.mem) :
    Memory.wf (s.xlateNow sp w va acc).1.mem := by
  have h1 := State.walkPut_wf sp w va false hw
  have key : ∀ r : State × WalkEnd, Memory.wf r.1.mem → Memory.wf (match r with
      | (s1, .fault k x) => ((s1, .error (k, x)) : State × Except (Cause × Nat) (Nat × Tlb))
      | (s1, .leaf t) =>
        match leafCheck t va sp.die acc with
        | some (k, x) => (s1, .error (k, x))
        | none =>
          if acc = Acc.store ∧ !pteD t.w0 then
            (match s1.walkPut sp w va true with
             | (s2, .leaf u) => (s2, .ok (u.pa va, u))
             | (s2, .fault k x) => (s2, .error (k, x)))
          else (s1, .ok (t.pa va, t))).1.mem := by
    rintro ⟨s1, e⟩ h
    have h2 := State.walkPut_wf sp w va true h
    cases e <;> dsimp only <;> repeat' split
    all_goals first | exact h | (next e => rw [e] at h2; exact h2)
  unfold State.xlateNow
  dsimp only
  split
  · exact hw
  · refine key _ ?_
    split
    · exact hw
    · exact h1

/-! ### Translations -/

@[simp] theorem State.openMiss_mem (s : State) (w : Nat) (m : Miss) : (s.openMiss w m).mem = s.mem := rfl

@[simp] theorem State.xlateMiss_mem (s : State) (sp : Space) (w : Nat) (va : W64) (d : Bool) :
    (s.xlateMiss sp w va d).1.mem = s.mem := by
  unfold State.xlateMiss
  dsimp only
  split <;> rfl

@[simp] theorem State.xlateUse_mem (s : State) (sp : Space) (w : Nat) (t : Tlb) (va : W64) (acc : Acc) :
    (s.xlateUse sp w t va acc).1.mem = s.mem := by
  unfold State.xlateUse
  repeat' split
  all_goals first | rfl | exact s.xlateMiss_mem _ _ _ _

@[simp] theorem State.xlateWing_mem (s : State) (sp : Space) (w : Nat) (va : W64) (acc : Acc) :
    (s.xlateWing sp w va acc).1.mem = s.mem := by
  unfold State.xlateWing
  repeat' split
  all_goals first | rfl | exact s.xlateMiss_mem _ _ _ _ | exact s.xlateUse_mem _ _ _ _ _

/-- Translating for a strand changes no byte: its walk is another step's. -/
@[simp] theorem State.xlate_mem (s : State) (n : Nat) (va : W64) (acc : Acc) : (s.xlate n va acc).1.mem = s.mem := by
  unfold State.xlate
  dsimp only
  repeat' split
  all_goals first | rfl | exact s.xlateMiss_mem _ _ _ _ | exact s.xlateUse_mem _ _ _ _ _ |
    exact State.xlateUse_mem _ _ _ _ _ _

/-! ### The write log -/

@[simp] theorem State.modLaunch_mem (s : State) (lid : Nat) (f : Launch → Launch) : (s.modLaunch lid f).mem = s.mem := by
  unfold State.modLaunch; split <;> rfl

@[simp] theorem State.loseRst_mem (s : State) (lid : Nat) : (s.loseRst lid).mem = s.mem := State.modLaunch_mem _ _ _

theorem State.logWrite_wf {s : State} (sp : Space) (va0 : W64) (bytes : List Byte) (hw : Memory.wf s.mem) :
    Memory.wf (s.logWrite sp va0 bytes).1.mem := by
  unfold State.logWrite
  refine foldl_keeps (fun a : State × Bool => Memory.wf a.1.mem) _ _ _ hw (fun a j ha => ?_)
  have h1 := State.xlateNow_wf sp (8 * sp.die) (va0 + BitVec.ofNat 64 (64 * j)) .store ha
  dsimp only
  repeat' split
  · exact h1
  · exact h1
  · exact memSetAll_wf _ (State.recall_wf _ h1)

/-- The write log keeps the canonical form. -/
theorem State.logLine_wf {s : State} (lid die line : Nat) (hw : Memory.wf s.mem) : Memory.wf (s.logLine lid die line).mem := by
  have h1 := fun sp va bs => State.logWrite_wf (s := s.recall line) sp va bs (State.recall_wf line hw)
  unfold State.logLine
  dsimp only
  repeat' split
  all_goals first
    | exact hw
    | (rw [State.loseRst_mem]; first | exact hw | exact h1 _ _ _)
    | (rw [State.modLaunch_mem]; exact h1 _ _ _)

theorem State.logBytes_wf {s : State} (lid die : Nat) (bytes : List (Nat × Byte)) (hw : Memory.wf s.mem) :
    Memory.wf (s.logBytes lid die bytes).mem :=
  foldl_keeps (fun t : State => Memory.wf t.mem) _ _ _ hw (fun _ _ h => State.logLine_wf _ _ _ h)

theorem State.storeBy_wf {s : State} (n : Nat) (bytes : List (Nat × Byte)) (hw : Memory.wf s.mem) :
    Memory.wf (s.storeBy n bytes).mem := by
  unfold State.storeBy
  dsimp only
  rw [State.setPts_mem]
  refine State.store_wf _ _ ?_
  split
  · exact hw
  · exact State.logBytes_wf _ _ _ hw

end Sys2Proof.Machine
end

