-- ==== Sys2Proof/Laws/Ops.lean ====
section
/-! SUPPORT. What the shared operations can do: which parts of the state they leave alone, and what the forms of issue
answer. -/

namespace Sys2Proof

open Sys2Proof.Machine

namespace Machine

/-! ### A relation that a fold keeps -/

/-- What every step of a fold leaves unchanged, the fold leaves unchanged. -/
theorem foldl_same {α β γ : Type} (p : β → γ) (f : β → α → β) (l : List α) (b : β) (h : ∀ b a, p (f b a) = p b) :
    p (l.foldl f b) = p b :=
  foldl_keeps (fun x => p x = p b) f l b rfl (fun x a hx => (h x a).trans hx)

/-! ### Memory under the operations of `Machine/Ops.lean`, `Bank.lean`, `Access.lean` and `Reads.lean` -/

@[simp] theorem State.newId_mem (s : State) : s.newId.2.mem = s.mem := rfl
@[simp] theorem State.draw_mem (s : State) : s.draw.2.mem = s.mem := rfl
@[simp] theorem State.modRegs_mem (s : State) (n : Nat) (f : Regs → Regs) : (s.modRegs n f).mem = s.mem := rfl
@[simp] theorem State.stall_mem (s : State) (n : Nat) : (s.stall n).mem = s.mem := rfl
@[simp] theorem State.jump_mem (s : State) (n : Nat) (q : W64) : (s.jump n q).mem = s.mem := rfl
@[simp] theorem State.modEntry_mem (s : State) (n id : Nat) (f : Entry → Entry) : (s.modEntry n id f).mem = s.mem := rfl
@[simp] theorem State.dropEntry_mem (s : State) (n id : Nat) : (s.dropEntry n id).mem = s.mem := rfl
@[simp] theorem State.orFlags_mem (s : State) (n : Nat) (f : LaneFlags) : (s.orFlags n f).mem = s.mem := rfl
@[simp] theorem State.captureBank_mem (s : State) (c b : Nat) : (s.captureBank c b).mem = s.mem := rfl
@[simp] theorem State.releaseBanks_mem (s : State) (c : Nat) (l : List (Nat × Nat)) : (s.releaseBanks c l).mem = s.mem :=
  foldl_same State.mem _ _ _ (fun _ _ => rfl)

@[simp] theorem State.reserve_mem (s : State) (n id : Nat) (d : Dest) : (s.reserve n id d).mem = s.mem := by
  cases d <;> unfold State.reserve <;> dsimp only <;> repeat' split
  all_goals rfl

@[simp] theorem State.deliver_mem (s : State) (n id seq : Nat) (w : WB) : (s.deliver n id seq w).mem = s.mem := by
  cases w <;> rfl

@[simp] theorem State.completeFlight_mem (s : State) (n : Nat) (f : Flight) : (s.completeFlight n f).mem = s.mem := by
  unfold State.completeFlight
  simp only [State.releaseBanks_mem, State.modStrand_mem]
  exact foldl_same State.mem _ _ _ (fun _ _ => State.deliver_mem _ _ _ _ _)

@[simp] theorem State.completeEntry_mem (s : State) (n : Nat) (e : Entry) (vals : List DVal) (fl : LaneFlags) :
    (s.completeEntry n e vals fl).mem = s.mem := by
  unfold State.completeEntry
  simp only [State.releaseBanks_mem, State.orFlags_mem]
  exact foldl_same State.mem _ _ _ (fun _ _ => State.deliver_mem _ _ _ _ _)

/-- Issue of a slot B changes no byte of memory. -/
@[simp] theorem State.issueB_mem (s : State) (n lat : Nat) (i : Instr) (st : Strand) (m act : W64) (fl : LaneFlags)
    (bks : List Nat) (o : BOut) : (s.issueB n lat i st m act fl bks o).mem = s.mem := by
  unfold State.issueB
  dsimp only
  rw [foldl_same State.mem _ _ _ (fun _ _ => State.captureBank_mem _ _ _),
    foldl_same State.mem _ _ _ (fun _ _ => State.reserve_mem _ _ _ _)]
  rfl

@[simp] theorem State.openOp_mem (s : State) (n slot : Nat) (i : Instr) (st : Strand) (c : Cap) (r : Bool) (l : List Rd) :
    (s.openOp n slot i st c r l).mem = s.mem := by
  unfold State.openOp
  dsimp only
  split
  · rw [State.modStrand_mem]
    exact foldl_same State.mem _ _ _ (fun _ _ => State.reserve_mem _ _ _ _)
  · exact foldl_same State.mem _ _ _ (fun _ _ => State.reserve_mem _ _ _ _)

@[simp] theorem State.putC_mem (s : State) (n : Nat) (i : Instr) (vals : List DVal) (fl : LaneFlags) :
    (s.putC n i vals fl).mem = s.mem := by
  unfold State.putC
  dsimp only
  split
  · rfl
  · exact foldl_same State.mem _ _ _ (fun _ _ => State.reserve_mem _ _ _ _)

@[simp] theorem State.finishC_mem (s : State) (n : Nat) (e : Entry) (vals : List DVal) :
    (s.finishC n e vals).mem = s.mem := by
  unfold State.finishC
  dsimp only
  split <;> rfl

/-! ### Traps (R364, R365) -/

@[simp] theorem State.withdrawEntry_mem (s : State) (n : Nat) (e : Entry) : (s.withdrawEntry n e).mem = s.mem := by
  unfold State.withdrawEntry
  dsimp only
  refine foldl_same State.mem _ _ _ (fun s d => ?_)
  cases d <;> rfl

@[simp] theorem State.cancelTasksOf_mem (s : State) (lid grp : Nat) : (s.cancelTasksOf lid grp).mem = s.mem := rfl

@[simp] theorem State.stopStrand_mem (s : State) (n : Nat) : (s.stopStrand n).mem = s.mem := by
  unfold State.stopStrand
  simp only [State.modStrand_mem]
  rw [foldl_same State.mem _ _ _ (fun _ _ => State.releaseBanks_mem _ _ _),
    foldl_same State.mem _ _ _ (fun _ _ => State.releaseBanks_mem _ _ _)]

@[simp] theorem State.killGroup_mem (s : State) (lid grp : Nat) (b : Bool) : (s.killGroup lid grp b).mem = s.mem := by
  unfold State.killGroup
  split
  · rfl
  · rw [State.cancelTasksOf_mem]
    exact foldl_same State.mem _ _ _ (fun _ _ => State.stopStrand_mem _ _)

@[simp] theorem State.recordFault_mem (s : State) (lid : Nat) (f : FirstFault) : (s.recordFault lid f).mem = s.mem := by
  unfold State.recordFault
  dsimp only
  repeat' split
  all_goals rfl

@[simp] theorem State.endGroupFaulted_mem (s : State) (n : Nat) (pc : W64) (t : Trap) :
    (s.endGroupFaulted n pc t).mem = s.mem := by
  unfold State.endGroupFaulted
  split
  · rfl
  · simp

@[simp] theorem State.makeFrame_mem (s : State) (n seq : Nat) : (s.makeFrame n seq).mem = s.mem := by
  unfold State.makeFrame
  simp only [State.modStrand_mem]
  exact foldl_same State.mem _ _ _ (fun _ _ => State.withdrawEntry_mem _ _ _)

/-- Taking a trap changes no byte of memory. -/
@[simp] theorem State.enterTrap_mem (s : State) (n seq : Nat) (pc : W64) (t : Trap) : (s.enterTrap n seq pc t).mem = s.mem := by
  unfold State.enterTrap
  dsimp only
  repeat' split
  all_goals simp

@[simp] theorem State.tryTrap_mem (s : State) (n : Nat) : (s.tryTrap n).mem = s.mem := by
  unfold State.tryTrap
  dsimp only
  repeat' split
  all_goals simp

@[simp] theorem State.raise_mem (s : State) (n : Nat) (t : Trap) : (s.raise n t).mem = s.mem := by
  unfold State.raise
  dsimp only
  split <;> simp

@[simp] theorem State.returnTrap_mem (s : State) (n : Nat) : (s.returnTrap n).mem = s.mem := by
  unfold State.returnTrap
  dsimp only
  split <;> rfl

end Machine

/-! ### The forms of issue -/

/-- The test says that the check passes with something. -/
theorem passesB_iff (s : State) (slot : Nat) (i : Instr) : passesB s slot i = true ↔ ∃ g, Passes s slot i g := by
  unfold passesB Passes
  cases h : checkInstr s s.cur slot i with
  | go st a b c p act fl bks => exact ⟨fun _ => ⟨⟨st, a, b, c, p, act, fl, bks⟩, rfl⟩, fun _ => rfl⟩
  | skip => simp
  | stall => simp
  | trap t => simp

/-- A slot-B form whose check passes issues what it computes. -/
theorem runB_of_passes {s : State} {lat : Nat} {i : Instr} {g : Pass} (f : BIn → BOut) (h : Passes s 1 i g) :
    s.runB lat i f = .next (issuedB s lat i g (f g.bin)) := by
  unfold Passes at h
  unfold State.runB
  rw [h]
  rfl

/-- A plan that met no trap raises none. -/
theorem Machine.Plan.verdict_of_none {p : Plan} (h : p.trap = none) : p.verdict = none := by
  unfold Plan.verdict
  rw [h]

/-- A slot-A form answers one of these: nothing, a stall, a trap, or what it does on the state its checks leave. -/
theorem runA_of_passesA {s : State} {i : Instr} {g : Pass} {p : Plan} (plan : AIn → State → Plan)
    (go : AIn → Strand → Plan → LaneFlags → State → State) (h : Passes s 0 i g) (hp : plan g.ain s = p)
    (ht : p.trap = none) (hm : p.miss = false) (ho : g.st.openFull i = false) :
    s.runA i plan go = .next (go g.ain g.st p (flagsA i g) p.st) := by
  unfold Passes at h
  subst hp
  simp only [Pass.ain, Pass.va, Pass.vb] at ht hm
  simp only [State.runA, h, Plan.verdict_of_none ht, hm, ho, Bool.or_false, flagsA, Pass.ain, Pass.va, Pass.vb]
  rfl

/-- A slot-C form that does not wait has its effect once its check passes untagged. -/
theorem runC_of_passesC {s : State} {i : Instr} {g : Pass} (f : CIn → State → State) (h : PassesC s i g) :
    s.runC i f = .next (f g.cin (poppedC s g)) := by
  obtain ⟨h1, h2⟩ := h
  unfold Passes at h1
  simp only [State.runC, h1, h2]
  rfl

/-- A waiting slot-C form does its part of each clock with its entry. -/
theorem runWaitC_of_resuming {s : State} {i : Instr} {e : Entry} (a : CIn → Nat → W64) (pre : CIn → State → Option Trap)
    (go : Entry → State → State) (h : s.resuming i = some e) : s.runWaitC i a pre go = .next (go e s) := by
  unfold State.runWaitC
  simp only [h]

theorem runWaitC_of_opensC {s : State} {i : Instr} {g : Pass} {e : Entry} (a : CIn → Nat → W64) (go : Entry → State → State)
    (h : OpensC s i g e) : s.runWaitC i a noTrap go = .next (go e (openedC s i g)) := by
  obtain ⟨h1, ⟨h2, h3⟩, h4, h5⟩ := h
  unfold Passes at h2
  simp only [openedC, Pass.va, Pass.vb, Pass.vc] at h5
  simp only [State.runWaitC, h1, h2, h3, h4, noTrap, Bool.false_eq_true, if_false, h5, openedC, Pass.va, Pass.vb, Pass.vc]

theorem runB_completes (s : State) (lat : Nat) (i : Instr) (f : BIn → BOut) : Completes (s.runB lat i f) := by
  unfold State.runB
  split <;> exact ⟨_, rfl⟩

theorem runA_completes (s : State) (i : Instr) (plan : AIn → State → Plan)
    (go : AIn → Strand → Plan → LaneFlags → State → State) : Completes (s.runA i plan go) := by
  unfold State.runA
  dsimp only
  repeat' split
  all_goals exact ⟨_, rfl⟩

theorem runC_completes (s : State) (i : Instr) (f : CIn → State → State) : Completes (s.runC i f) := by
  unfold State.runC
  dsimp only
  repeat' split
  all_goals exact ⟨_, rfl⟩

theorem runWaitC_completes (s : State) (i : Instr) (a : CIn → Nat → W64) (pre : CIn → State → Option Trap)
    (go : Entry → State → State) : Completes (s.runWaitC i a pre go) := by
  unfold State.runWaitC
  dsimp only
  repeat' split
  all_goals exact ⟨_, rfl⟩

end Sys2Proof
end

