-- ==== Sys2Proof/Laws/PerInstr.lean ====
section
/-! SUPPORT. Families of statements about every instruction as syntax: one lemma per constructor.

`Encodes`: every slot instruction has a word in a class of its own (R121, R134 to R137). -/

namespace Sys2Proof.Laws.Encodes

/-- A slot instruction has an encoding; a step of another agent has none. -/
def Statement (i : Instr) : Prop := i.isSlot = true → (encode i).isSome = true

theorem add : ∀ a0 a1 a2 a3 a4 a5 a6 a7, Statement (.add a0 a1 a2 a3 a4 a5 a6 a7) := fun _ _ _ _ _ _ _ _ _ => rfl
theorem sub : ∀ a0 a1 a2 a3 a4 a5 a6 a7, Statement (.sub a0 a1 a2 a3 a4 a5 a6 a7) := fun _ _ _ _ _ _ _ _ _ => rfl
theorem mul : ∀ a0 a1 a2 a3 a4 a5 a6 a7, Statement (.mul a0 a1 a2 a3 a4 a5 a6 a7) := fun _ _ _ _ _ _ _ _ _ => rfl
theorem mulh : ∀ a0 a1 a2 a3 a4 a5 a6 a7, Statement (.mulh a0 a1 a2 a3 a4 a5 a6 a7) := fun _ _ _ _ _ _ _ _ _ => rfl
theorem mulhu : ∀ a0 a1 a2 a3 a4 a5 a6 a7, Statement (.mulhu a0 a1 a2 a3 a4 a5 a6 a7) := fun _ _ _ _ _ _ _ _ _ => rfl
theorem div : ∀ a0 a1 a2 a3 a4 a5 a6 a7, Statement (.div a0 a1 a2 a3 a4 a5 a6 a7) := fun _ _ _ _ _ _ _ _ _ => rfl
theorem divu : ∀ a0 a1 a2 a3 a4 a5 a6 a7, Statement (.divu a0 a1 a2 a3 a4 a5 a6 a7) := fun _ _ _ _ _ _ _ _ _ => rfl
theorem rem : ∀ a0 a1 a2 a3 a4 a5 a6 a7, Statement (.rem a0 a1 a2 a3 a4 a5 a6 a7) := fun _ _ _ _ _ _ _ _ _ => rfl
theorem remu : ∀ a0 a1 a2 a3 a4 a5 a6 a7, Statement (.remu a0 a1 a2 a3 a4 a5 a6 a7) := fun _ _ _ _ _ _ _ _ _ => rfl
theorem and : ∀ a0 a1 a2 a3 a4 a5 a6 a7, Statement (.and a0 a1 a2 a3 a4 a5 a6 a7) := fun _ _ _ _ _ _ _ _ _ => rfl
theorem or : ∀ a0 a1 a2 a3 a4 a5 a6 a7, Statement (.or a0 a1 a2 a3 a4 a5 a6 a7) := fun _ _ _ _ _ _ _ _ _ => rfl
theorem xor : ∀ a0 a1 a2 a3 a4 a5 a6 a7, Statement (.xor a0 a1 a2 a3 a4 a5 a6 a7) := fun _ _ _ _ _ _ _ _ _ => rfl
theorem andn : ∀ a0 a1 a2 a3 a4 a5 a6 a7, Statement (.andn a0 a1 a2 a3 a4 a5 a6 a7) := fun _ _ _ _ _ _ _ _ _ => rfl
theorem shl : ∀ a0 a1 a2 a3 a4 a5 a6 a7, Statement (.shl a0 a1 a2 a3 a4 a5 a6 a7) := fun _ _ _ _ _ _ _ _ _ => rfl
theorem shr : ∀ a0 a1 a2 a3 a4 a5 a6 a7, Statement (.shr a0 a1 a2 a3 a4 a5 a6 a7) := fun _ _ _ _ _ _ _ _ _ => rfl
theorem sar : ∀ a0 a1 a2 a3 a4 a5 a6 a7, Statement (.sar a0 a1 a2 a3 a4 a5 a6 a7) := fun _ _ _ _ _ _ _ _ _ => rfl
theorem rot : ∀ a0 a1 a2 a3 a4 a5 a6 a7, Statement (.rot a0 a1 a2 a3 a4 a5 a6 a7) := fun _ _ _ _ _ _ _ _ _ => rfl
theorem min : ∀ a0 a1 a2 a3 a4 a5 a6 a7, Statement (.min a0 a1 a2 a3 a4 a5 a6 a7) := fun _ _ _ _ _ _ _ _ _ => rfl
theorem max : ∀ a0 a1 a2 a3 a4 a5 a6 a7, Statement (.max a0 a1 a2 a3 a4 a5 a6 a7) := fun _ _ _ _ _ _ _ _ _ => rfl
theorem minu : ∀ a0 a1 a2 a3 a4 a5 a6 a7, Statement (.minu a0 a1 a2 a3 a4 a5 a6 a7) := fun _ _ _ _ _ _ _ _ _ => rfl
theorem maxu : ∀ a0 a1 a2 a3 a4 a5 a6 a7, Statement (.maxu a0 a1 a2 a3 a4 a5 a6 a7) := fun _ _ _ _ _ _ _ _ _ => rfl
theorem clz : ∀ a0 a1 a2 a3 a4 a5, Statement (.clz a0 a1 a2 a3 a4 a5) := fun _ _ _ _ _ _ _ => rfl
theorem ctz : ∀ a0 a1 a2 a3 a4 a5, Statement (.ctz a0 a1 a2 a3 a4 a5) := fun _ _ _ _ _ _ _ => rfl
theorem popc : ∀ a0 a1 a2 a3 a4 a5, Statement (.popc a0 a1 a2 a3 a4 a5) := fun _ _ _ _ _ _ _ => rfl
theorem bfx : ∀ a0 a1 a2 a3 a4, Statement (.bfx a0 a1 a2 a3 a4) := fun _ _ _ _ _ _ => rfl
theorem bfxu : ∀ a0 a1 a2 a3 a4, Statement (.bfxu a0 a1 a2 a3 a4) := fun _ _ _ _ _ _ => rfl
theorem bfi : ∀ a0 a1 a2 a3 a4, Statement (.bfi a0 a1 a2 a3 a4) := fun _ _ _ _ _ _ => rfl
theorem sext : ∀ a0 a1 a2 a3 a4 a5 a6, Statement (.sext a0 a1 a2 a3 a4 a5 a6) := fun _ _ _ _ _ _ _ _ => rfl
theorem zext : ∀ a0 a1 a2 a3 a4 a5 a6, Statement (.zext a0 a1 a2 a3 a4 a5 a6) := fun _ _ _ _ _ _ _ _ => rfl
theorem sel : ∀ a0 a1 a2 a3 a4 a5 a6 a7, Statement (.sel a0 a1 a2 a3 a4 a5 a6 a7) := fun _ _ _ _ _ _ _ _ _ => rfl
theorem mov : ∀ a0 a1 a2 a3 a4 a5, Statement (.mov a0 a1 a2 a3 a4 a5) := fun _ _ _ _ _ _ _ => rfl
theorem movi : ∀ a0 a1, Statement (.movi a0 a1) := fun _ _ _ => rfl
theorem lea : ∀ a0 a1 a2 a3, Statement (.lea a0 a1 a2 a3) := fun _ _ _ _ _ => rfl
theorem cmp : ∀ a0 a1 a2 a3 a4 a5 a6, Statement (.cmp a0 a1 a2 a3 a4 a5 a6) := fun _ _ _ _ _ _ _ _ => rfl
theorem fadd : ∀ a0 a1 a2 a3 a4 a5 a6 a7, Statement (.fadd a0 a1 a2 a3 a4 a5 a6 a7) := fun _ _ _ _ _ _ _ _ _ => rfl
theorem fsub : ∀ a0 a1 a2 a3 a4 a5 a6 a7, Statement (.fsub a0 a1 a2 a3 a4 a5 a6 a7) := fun _ _ _ _ _ _ _ _ _ => rfl
theorem fmul : ∀ a0 a1 a2 a3 a4 a5 a6 a7, Statement (.fmul a0 a1 a2 a3 a4 a5 a6 a7) := fun _ _ _ _ _ _ _ _ _ => rfl
theorem fma : ∀ a0 a1 a2 a3 a4 a5 a6 a7, Statement (.fma a0 a1 a2 a3 a4 a5 a6 a7) := fun _ _ _ _ _ _ _ _ _ => rfl
theorem fdiv : ∀ a0 a1 a2 a3 a4 a5 a6 a7, Statement (.fdiv a0 a1 a2 a3 a4 a5 a6 a7) := fun _ _ _ _ _ _ _ _ _ => rfl
theorem fsqrt : ∀ a0 a1 a2 a3 a4 a5, Statement (.fsqrt a0 a1 a2 a3 a4 a5) := fun _ _ _ _ _ _ _ => rfl
theorem fmin : ∀ a0 a1 a2 a3 a4 a5 a6 a7, Statement (.fmin a0 a1 a2 a3 a4 a5 a6 a7) := fun _ _ _ _ _ _ _ _ _ => rfl
theorem fmax : ∀ a0 a1 a2 a3 a4 a5 a6 a7, Statement (.fmax a0 a1 a2 a3 a4 a5 a6 a7) := fun _ _ _ _ _ _ _ _ _ => rfl
theorem fcmp : ∀ a0 a1 a2 a3 a4 a5 a6, Statement (.fcmp a0 a1 a2 a3 a4 a5 a6) := fun _ _ _ _ _ _ _ _ => rfl
theorem fcvt : ∀ a0 a1 a2 a3 a4 a5 a6, Statement (.fcvt a0 a1 a2 a3 a4 a5 a6) := fun _ _ _ _ _ _ _ _ => rfl
theorem vadd : ∀ a0 a1 a2 a3 a4 a5 a6 a7, Statement (.vadd a0 a1 a2 a3 a4 a5 a6 a7) := fun _ _ _ _ _ _ _ _ _ => rfl
theorem vsub : ∀ a0 a1 a2 a3 a4 a5 a6 a7, Statement (.vsub a0 a1 a2 a3 a4 a5 a6 a7) := fun _ _ _ _ _ _ _ _ _ => rfl
theorem vmul : ∀ a0 a1 a2 a3 a4 a5 a6 a7, Statement (.vmul a0 a1 a2 a3 a4 a5 a6 a7) := fun _ _ _ _ _ _ _ _ _ => rfl
theorem vmulh : ∀ a0 a1 a2 a3 a4 a5 a6 a7, Statement (.vmulh a0 a1 a2 a3 a4 a5 a6 a7) := fun _ _ _ _ _ _ _ _ _ => rfl
theorem vmac : ∀ a0 a1 a2 a3 a4 a5 a6 a7, Statement (.vmac a0 a1 a2 a3 a4 a5 a6 a7) := fun _ _ _ _ _ _ _ _ _ => rfl
theorem vmac2 : ∀ a0 a1 a2 a3 a4 a5 a6 a7, Statement (.vmac2 a0 a1 a2 a3 a4 a5 a6 a7) := fun _ _ _ _ _ _ _ _ _ => rfl
theorem vdot4 : ∀ a0 a1 a2 a3 a4 a5 a6 a7, Statement (.vdot4 a0 a1 a2 a3 a4 a5 a6 a7) := fun _ _ _ _ _ _ _ _ _ => rfl
theorem vabs : ∀ a0 a1 a2 a3 a4 a5, Statement (.vabs a0 a1 a2 a3 a4 a5) := fun _ _ _ _ _ _ _ => rfl
theorem vneg : ∀ a0 a1 a2 a3 a4 a5, Statement (.vneg a0 a1 a2 a3 a4 a5) := fun _ _ _ _ _ _ _ => rfl
theorem vmin : ∀ a0 a1 a2 a3 a4 a5 a6 a7, Statement (.vmin a0 a1 a2 a3 a4 a5 a6 a7) := fun _ _ _ _ _ _ _ _ _ => rfl
theorem vmax : ∀ a0 a1 a2 a3 a4 a5 a6 a7, Statement (.vmax a0 a1 a2 a3 a4 a5 a6 a7) := fun _ _ _ _ _ _ _ _ _ => rfl
theorem vand : ∀ a0 a1 a2 a3 a4 a5 a6 a7, Statement (.vand a0 a1 a2 a3 a4 a5 a6 a7) := fun _ _ _ _ _ _ _ _ _ => rfl
theorem vor : ∀ a0 a1 a2 a3 a4 a5 a6 a7, Statement (.vor a0 a1 a2 a3 a4 a5 a6 a7) := fun _ _ _ _ _ _ _ _ _ => rfl
theorem vxor : ∀ a0 a1 a2 a3 a4 a5 a6 a7, Statement (.vxor a0 a1 a2 a3 a4 a5 a6 a7) := fun _ _ _ _ _ _ _ _ _ => rfl
theorem vshl : ∀ a0 a1 a2 a3 a4 a5 a6 a7, Statement (.vshl a0 a1 a2 a3 a4 a5 a6 a7) := fun _ _ _ _ _ _ _ _ _ => rfl
theorem vshr : ∀ a0 a1 a2 a3 a4 a5 a6 a7, Statement (.vshr a0 a1 a2 a3 a4 a5 a6 a7) := fun _ _ _ _ _ _ _ _ _ => rfl
theorem vsar : ∀ a0 a1 a2 a3 a4 a5 a6 a7, Statement (.vsar a0 a1 a2 a3 a4 a5 a6 a7) := fun _ _ _ _ _ _ _ _ _ => rfl
theorem vshrr : ∀ a0 a1 a2 a3 a4 a5 a6 a7, Statement (.vshrr a0 a1 a2 a3 a4 a5 a6 a7) := fun _ _ _ _ _ _ _ _ _ => rfl
theorem vsat : ∀ a0 a1 a2 a3 a4 a5 a6 a7, Statement (.vsat a0 a1 a2 a3 a4 a5 a6 a7) := fun _ _ _ _ _ _ _ _ _ => rfl
theorem vpack : ∀ a0 a1 a2 a3 a4 a5 a6 a7 a8 a9, Statement (.vpack a0 a1 a2 a3 a4 a5 a6 a7 a8 a9) := fun _ _ _ _ _ _ _ _ _ _ _ => rfl
theorem vunpk : ∀ a0 a1 a2 a3 a4 a5 a6 a7 a8, Statement (.vunpk a0 a1 a2 a3 a4 a5 a6 a7 a8) := fun _ _ _ _ _ _ _ _ _ _ => rfl
theorem vcmp : ∀ a0 a1 a2 a3 a4 a5 a6 a7 a8, Statement (.vcmp a0 a1 a2 a3 a4 a5 a6 a7 a8) := fun _ _ _ _ _ _ _ _ _ _ => rfl
theorem vsel : ∀ a0 a1 a2 a3 a4 a5 a6 a7, Statement (.vsel a0 a1 a2 a3 a4 a5 a6 a7) := fun _ _ _ _ _ _ _ _ _ => rfl
theorem vslide : ∀ a0 a1 a2 a3 a4 a5 a6 a7, Statement (.vslide a0 a1 a2 a3 a4 a5 a6 a7) := fun _ _ _ _ _ _ _ _ _ => rfl
theorem vbcast : ∀ a0 a1 a2 a3 a4 a5, Statement (.vbcast a0 a1 a2 a3 a4 a5) := fun _ _ _ _ _ _ _ => rfl
theorem vext : ∀ a0 a1 a2 a3 a4, Statement (.vext a0 a1 a2 a3 a4) := fun _ _ _ _ _ _ => rfl
theorem vins : ∀ a0 a1 a2 a3, Statement (.vins a0 a1 a2 a3) := fun _ _ _ _ _ => rfl
theorem vperm : ∀ a0 a1 a2 a3 a4 a5 a6 a7, Statement (.vperm a0 a1 a2 a3 a4 a5 a6 a7) := fun _ _ _ _ _ _ _ _ _ => rfl
theorem vcompr : ∀ a0 a1 a2 a3 a4 a5 a6 a7, Statement (.vcompr a0 a1 a2 a3 a4 a5 a6 a7) := fun _ _ _ _ _ _ _ _ _ => rfl
theorem vexpd : ∀ a0 a1 a2 a3 a4 a5 a6 a7, Statement (.vexpd a0 a1 a2 a3 a4 a5 a6 a7) := fun _ _ _ _ _ _ _ _ _ => rfl
theorem vred : ∀ a0 a1 a2 a3 a4 a5 a6 a7 a8, Statement (.vred a0 a1 a2 a3 a4 a5 a6 a7 a8) := fun _ _ _ _ _ _ _ _ _ _ => rfl
theorem vscan : ∀ a0 a1 a2 a3 a4 a5 a6 a7, Statement (.vscan a0 a1 a2 a3 a4 a5 a6 a7) := fun _ _ _ _ _ _ _ _ _ => rfl
theorem vpopc : ∀ a0 a1 a2 a3 a4 a5, Statement (.vpopc a0 a1 a2 a3 a4 a5) := fun _ _ _ _ _ _ _ => rfl
theorem vfadd : ∀ a0 a1 a2 a3 a4 a5 a6 a7, Statement (.vfadd a0 a1 a2 a3 a4 a5 a6 a7) := fun _ _ _ _ _ _ _ _ _ => rfl
theorem vfsub : ∀ a0 a1 a2 a3 a4 a5 a6 a7, Statement (.vfsub a0 a1 a2 a3 a4 a5 a6 a7) := fun _ _ _ _ _ _ _ _ _ => rfl
theorem vfmul : ∀ a0 a1 a2 a3 a4 a5 a6 a7, Statement (.vfmul a0 a1 a2 a3 a4 a5 a6 a7) := fun _ _ _ _ _ _ _ _ _ => rfl
theorem vfma : ∀ a0 a1 a2 a3 a4 a5 a6 a7, Statement (.vfma a0 a1 a2 a3 a4 a5 a6 a7) := fun _ _ _ _ _ _ _ _ _ => rfl
theorem vfnma : ∀ a0 a1 a2 a3 a4 a5 a6 a7, Statement (.vfnma a0 a1 a2 a3 a4 a5 a6 a7) := fun _ _ _ _ _ _ _ _ _ => rfl
theorem vfmin : ∀ a0 a1 a2 a3 a4 a5 a6 a7, Statement (.vfmin a0 a1 a2 a3 a4 a5 a6 a7) := fun _ _ _ _ _ _ _ _ _ => rfl
theorem vfmax : ∀ a0 a1 a2 a3 a4 a5 a6 a7, Statement (.vfmax a0 a1 a2 a3 a4 a5 a6 a7) := fun _ _ _ _ _ _ _ _ _ => rfl
theorem vfabs : ∀ a0 a1 a2 a3 a4 a5, Statement (.vfabs a0 a1 a2 a3 a4 a5) := fun _ _ _ _ _ _ _ => rfl
theorem vfneg : ∀ a0 a1 a2 a3 a4 a5, Statement (.vfneg a0 a1 a2 a3 a4 a5) := fun _ _ _ _ _ _ _ => rfl
theorem vfdiv : ∀ a0 a1 a2 a3 a4 a5 a6 a7, Statement (.vfdiv a0 a1 a2 a3 a4 a5 a6 a7) := fun _ _ _ _ _ _ _ _ _ => rfl
theorem vfsqrt : ∀ a0 a1 a2 a3 a4 a5, Statement (.vfsqrt a0 a1 a2 a3 a4 a5) := fun _ _ _ _ _ _ _ => rfl
theorem vfrcp : ∀ a0 a1 a2 a3 a4 a5, Statement (.vfrcp a0 a1 a2 a3 a4 a5) := fun _ _ _ _ _ _ _ => rfl
theorem vfrsq : ∀ a0 a1 a2 a3 a4 a5, Statement (.vfrsq a0 a1 a2 a3 a4 a5) := fun _ _ _ _ _ _ _ => rfl
theorem vfexp2 : ∀ a0 a1 a2 a3 a4 a5, Statement (.vfexp2 a0 a1 a2 a3 a4 a5) := fun _ _ _ _ _ _ _ => rfl
theorem vflog2 : ∀ a0 a1 a2 a3 a4 a5, Statement (.vflog2 a0 a1 a2 a3 a4 a5) := fun _ _ _ _ _ _ _ => rfl
theorem vfcmp : ∀ a0 a1 a2 a3 a4 a5 a6 a7 a8, Statement (.vfcmp a0 a1 a2 a3 a4 a5 a6 a7 a8) := fun _ _ _ _ _ _ _ _ _ _ => rfl
theorem vfclass : ∀ a0 a1 a2 a3 a4 a5, Statement (.vfclass a0 a1 a2 a3 a4 a5) := fun _ _ _ _ _ _ _ => rfl
theorem vfred : ∀ a0 a1 a2 a3 a4 a5 a6 a7 a8, Statement (.vfred a0 a1 a2 a3 a4 a5 a6 a7 a8) := fun _ _ _ _ _ _ _ _ _ _ => rfl
theorem vfdot2 : ∀ a0 a1 a2 a3 a4 a5 a6 a7, Statement (.vfdot2 a0 a1 a2 a3 a4 a5 a6 a7) := fun _ _ _ _ _ _ _ _ _ => rfl
theorem vcvt : ∀ a0 a1 a2 a3 a4 a5 a6, Statement (.vcvt a0 a1 a2 a3 a4 a5 a6) := fun _ _ _ _ _ _ _ _ => rfl
theorem vcvti : ∀ a0 a1 a2 a3 a4 a5 a6 a7 a8, Statement (.vcvti a0 a1 a2 a3 a4 a5 a6 a7 a8) := fun _ _ _ _ _ _ _ _ _ _ => rfl
theorem vcvtf : ∀ a0 a1 a2 a3 a4 a5 a6 a7, Statement (.vcvtf a0 a1 a2 a3 a4 a5 a6 a7) := fun _ _ _ _ _ _ _ _ _ => rfl
theorem vscale : ∀ a0 a1 a2 a3 a4 a5 a6 a7, Statement (.vscale a0 a1 a2 a3 a4 a5 a6 a7) := fun _ _ _ _ _ _ _ _ _ => rfl
theorem vcbx : ∀ a0 a1 a2 a3 a4 a5 a6 a7, Statement (.vcbx a0 a1 a2 a3 a4 a5 a6 a7) := fun _ _ _ _ _ _ _ _ _ => rfl
theorem vqnt : ∀ a0 a1 a2 a3 a4 a5 a6, Statement (.vqnt a0 a1 a2 a3 a4 a5 a6) := fun _ _ _ _ _ _ _ _ => rfl
theorem vq4nS : ∀ a0 a1 a2 a3 a4 a5, Statement (.vq4nS a0 a1 a2 a3 a4 a5) := fun _ _ _ _ _ _ _ => rfl
theorem vq4n : ∀ a0 a1 a2 a3 a4 a5 a6, Statement (.vq4n a0 a1 a2 a3 a4 a5 a6) := fun _ _ _ _ _ _ _ _ => rfl
theorem vmxq : ∀ a0 a1 a2 a3 a4 a5 a6, Statement (.vmxq a0 a1 a2 a3 a4 a5 a6) := fun _ _ _ _ _ _ _ _ => rfl
theorem vflgr : ∀ a0, Statement (.vflgr a0) := fun _ _ => rfl
theorem vflgc : ∀ a0 a1 a2, Statement (.vflgc a0 a1 a2) := fun _ _ _ _ => rfl
theorem ldB : ∀ a0 a1 a2 a3, Statement (.ldB a0 a1 a2 a3) := fun _ _ _ _ _ => rfl
theorem ldBu : ∀ a0 a1 a2 a3, Statement (.ldBu a0 a1 a2 a3) := fun _ _ _ _ _ => rfl
theorem ldH : ∀ a0 a1 a2 a3, Statement (.ldH a0 a1 a2 a3) := fun _ _ _ _ _ => rfl
theorem ldHu : ∀ a0 a1 a2 a3, Statement (.ldHu a0 a1 a2 a3) := fun _ _ _ _ _ => rfl
theorem ldW : ∀ a0 a1 a2 a3, Statement (.ldW a0 a1 a2 a3) := fun _ _ _ _ _ => rfl
theorem ldWu : ∀ a0 a1 a2 a3, Statement (.ldWu a0 a1 a2 a3) := fun _ _ _ _ _ => rfl
theorem ldD : ∀ a0 a1 a2 a3, Statement (.ldD a0 a1 a2 a3) := fun _ _ _ _ _ => rfl
theorem stB : ∀ a0 a1 a2 a3, Statement (.stB a0 a1 a2 a3) := fun _ _ _ _ _ => rfl
theorem stH : ∀ a0 a1 a2 a3, Statement (.stH a0 a1 a2 a3) := fun _ _ _ _ _ => rfl
theorem stW : ∀ a0 a1 a2 a3, Statement (.stW a0 a1 a2 a3) := fun _ _ _ _ _ => rfl
theorem stD : ∀ a0 a1 a2 a3, Statement (.stD a0 a1 a2 a3) := fun _ _ _ _ _ => rfl
theorem vld : ∀ a0 a1 a2 a3 a4 a5 a6 a7, Statement (.vld a0 a1 a2 a3 a4 a5 a6 a7) := fun _ _ _ _ _ _ _ _ _ => rfl
theorem vlds : ∀ a0 a1 a2 a3 a4 a5 a6, Statement (.vlds a0 a1 a2 a3 a4 a5 a6) := fun _ _ _ _ _ _ _ _ => rfl
theorem vldg : ∀ a0 a1 a2 a3 a4 a5 a6, Statement (.vldg a0 a1 a2 a3 a4 a5 a6) := fun _ _ _ _ _ _ _ _ => rfl
theorem vst : ∀ a0 a1 a2 a3 a4 a5 a6 a7, Statement (.vst a0 a1 a2 a3 a4 a5 a6 a7) := fun _ _ _ _ _ _ _ _ _ => rfl
theorem vsts : ∀ a0 a1 a2 a3 a4 a5 a6, Statement (.vsts a0 a1 a2 a3 a4 a5 a6) := fun _ _ _ _ _ _ _ _ => rfl
theorem vstg : ∀ a0 a1 a2 a3 a4 a5 a6, Statement (.vstg a0 a1 a2 a3 a4 a5 a6) := fun _ _ _ _ _ _ _ _ => rfl
theorem vldn : ∀ a0 a1 a2 a3 a4 a5 a6 a7 a8, Statement (.vldn a0 a1 a2 a3 a4 a5 a6 a7 a8) := fun _ _ _ _ _ _ _ _ _ _ => rfl
theorem vstn : ∀ a0 a1 a2 a3 a4 a5 a6 a7 a8, Statement (.vstn a0 a1 a2 a3 a4 a5 a6 a7 a8) := fun _ _ _ _ _ _ _ _ _ _ => rfl
theorem ldt : ∀ a0 a1 a2 a3 a4 a5 a6, Statement (.ldt a0 a1 a2 a3 a4 a5 a6) := fun _ _ _ _ _ _ _ _ => rfl
theorem stt : ∀ a0 a1 a2 a3 a4 a5 a6, Statement (.stt a0 a1 a2 a3 a4 a5 a6) := fun _ _ _ _ _ _ _ _ => rfl
theorem sbind : ∀ a0 a1 a2 a3, Statement (.sbind a0 a1 a2 a3) := fun _ _ _ _ _ => rfl
theorem schain : ∀ a0 a1 a2 a3 a4 a5, Statement (.schain a0 a1 a2 a3 a4 a5) := fun _ _ _ _ _ _ _ => rfl
theorem sunbind : ∀ a0, Statement (.sunbind a0) := fun _ _ => rfl
theorem spos : ∀ a0 a1 a2 a3 a4, Statement (.spos a0 a1 a2 a3 a4) := fun _ _ _ _ _ _ => rfl
theorem amo : ∀ a0 a1 a2 a3 a4, Statement (.amo a0 a1 a2 a3 a4) := fun _ _ _ _ _ _ => rfl
theorem cas : ∀ a0 a1 a2 a3, Statement (.cas a0 a1 a2 a3) := fun _ _ _ _ _ => rfl
theorem lda : ∀ a0 a1 a2 a3, Statement (.lda a0 a1 a2 a3) := fun _ _ _ _ _ => rfl
theorem sta : ∀ a0 a1 a2 a3, Statement (.sta a0 a1 a2 a3) := fun _ _ _ _ _ => rfl
theorem fenceO : ∀ a0, Statement (.fenceO a0) := fun _ _ => rfl
theorem spill : ∀ a0 a1 a2, Statement (.spill a0 a1 a2) := fun _ _ _ _ => rfl
theorem fill : ∀ a0 a1 a2, Statement (.fill a0 a1 a2) := fun _ _ _ _ => rfl
theorem park : ∀ a0 a1, Statement (.park a0 a1) := fun _ _ _ => rfl
theorem unpark : ∀ a0 a1, Statement (.unpark a0 a1) := fun _ _ _ => rfl
theorem mcst : ∀ a0 a1 a2 a3 a4, Statement (.mcst a0 a1 a2 a3 a4) := fun _ _ _ _ _ _ => rfl
theorem prefl : ∀ a0 a1 a2 a3, Statement (.prefl a0 a1 a2 a3) := fun _ _ _ _ _ => rfl
theorem cbld : ∀ a0 a1 a2 a3, Statement (.cbld a0 a1 a2 a3) := fun _ _ _ _ _ => rfl
theorem cbst : ∀ a0 a1 a2 a3, Statement (.cbst a0 a1 a2 a3) := fun _ _ _ _ _ => rfl
theorem cbwr : ∀ a0 a1 a2 a3 a4, Statement (.cbwr a0 a1 a2 a3 a4) := fun _ _ _ _ _ _ => rfl
theorem cbinv : ∀ a0 a1 a2 a3, Statement (.cbinv a0 a1 a2 a3) := fun _ _ _ _ _ => rfl
theorem waitv : ∀ a0 a1 a2 a3 a4 a5 a6, Statement (.waitv a0 a1 a2 a3 a4 a5 a6) := fun _ _ _ _ _ _ _ _ => rfl
theorem tflush : ∀ a0 a1 a2 a3, Statement (.tflush a0 a1 a2 a3) := fun _ _ _ _ _ => rfl
theorem tinv : ∀ a0 a1 a2 a3, Statement (.tinv a0 a1 a2 a3) := fun _ _ _ _ _ => rfl
theorem br : ∀ a0 a1 a2 a3, Statement (.br a0 a1 a2 a3) := fun _ _ _ _ _ => rfl
theorem brc : ∀ a0 a1 a2 a3 a4, Statement (.brc a0 a1 a2 a3 a4) := fun _ _ _ _ _ _ => rfl
theorem call : ∀ a0 a1 a2 a3, Statement (.call a0 a1 a2 a3) := fun _ _ _ _ _ => rfl
theorem calli : ∀ a0 a1 a2 a3, Statement (.calli a0 a1 a2 a3) := fun _ _ _ _ _ => rfl
theorem ret : ∀ a0 a1 a2 a3, Statement (.ret a0 a1 a2 a3) := fun _ _ _ _ _ => rfl
theorem jt : ∀ a0 a1 a2 a3 a4 a5 a6, Statement (.jt a0 a1 a2 a3 a4 a5 a6) := fun _ _ _ _ _ _ _ _ => rfl
theorem loop : ∀ a0 a1 a2, Statement (.loop a0 a1 a2) := fun _ _ _ _ => rfl
theorem gbr : ∀ a0 a1 a2 a3, Statement (.gbr a0 a1 a2 a3) := fun _ _ _ _ _ => rfl
theorem jset : ∀ a0, Statement (.jset a0) := fun _ _ => rfl
theorem jclr : ∀ a0, Statement (.jclr a0) := fun _ _ => rfl
theorem jwait : ∀ a0 a1, Statement (.jwait a0 a1) := fun _ _ _ => rfl
theorem semwait : ∀ a0 a1 a2, Statement (.semwait a0 a1 a2) := fun _ _ _ _ => rfl
theorem sempost : ∀ a0 a1 a2, Statement (.sempost a0 a1 a2) := fun _ _ _ _ => rfl
theorem mxlock : ∀ a0 a1, Statement (.mxlock a0 a1) := fun _ _ _ => rfl
theorem mxtry : ∀ a0 a1, Statement (.mxtry a0 a1) := fun _ _ _ => rfl
theorem mxunlk : ∀ a0 a1, Statement (.mxunlk a0 a1) := fun _ _ _ => rfl
theorem tenq : ∀ a0 a1 a2 a3 a4, Statement (.tenq a0 a1 a2 a3 a4) := fun _ _ _ _ _ _ => rfl
theorem twait : ∀ a0 a1 a2 a3, Statement (.twait a0 a1 a2 a3) := fun _ _ _ _ _ => rfl
theorem tstat : ∀ a0 a1 a2 a3, Statement (.tstat a0 a1 a2 a3) := fun _ _ _ _ _ => rfl
theorem tcancel : ∀ a0 a1 a2 a3 a4, Statement (.tcancel a0 a1 a2 a3 a4) := fun _ _ _ _ _ _ => rfl
theorem launch : ∀ a0 a1 a2 a3 a4, Statement (.launch a0 a1 a2 a3 a4) := fun _ _ _ _ _ _ => rfl
theorem qlink : ∀ a0 a1 a2 a3, Statement (.qlink a0 a1 a2 a3) := fun _ _ _ _ _ => rfl
theorem qunlink : ∀ a0, Statement (.qunlink a0) := fun _ _ => rfl
theorem qdepth : ∀ a0 a1, Statement (.qdepth a0 a1) := fun _ _ _ => rfl
theorem qflush : ∀ a0 a1, Statement (.qflush a0 a1) := fun _ _ _ => rfl
theorem prchk : ∀ a0, Statement (.prchk a0) := fun _ _ => rfl
theorem pgpass : ∀ a0 a1 a2 a3 a4 a5 a6 a7, Statement (.pgpass a0 a1 a2 a3 a4 a5 a6 a7) := fun _ _ _ _ _ _ _ _ _ => rfl
theorem trap : ∀ a0 a1 a2, Statement (.trap a0 a1 a2) := fun _ _ _ _ => rfl
theorem sysc : ∀ a0, Statement (.sysc a0) := fun _ _ => rfl
theorem brk : ∀ a0, Statement (.brk a0) := fun _ _ => rfl
theorem mfs : ∀ a0 a1, Statement (.mfs a0 a1) := fun _ _ _ => rfl
theorem mts : ∀ a0 a1 a2, Statement (.mts a0 a1 a2) := fun _ _ _ _ => rfl
theorem mtsFlg : ∀ a0 a1, Statement (.mtsFlg a0 a1) := fun _ _ _ => rfl
theorem mtsSrng : ∀ a0 a1, Statement (.mtsSrng a0 a1) := fun _ _ _ => rfl
theorem mtsStatus : ∀ a0 a1, Statement (.mtsStatus a0 a1) := fun _ _ _ => rfl
theorem mtsEpc : ∀ a0 a1, Statement (.mtsEpc a0 a1) := fun _ _ _ => rfl
theorem mtsEcause : ∀ a0 a1, Statement (.mtsEcause a0 a1) := fun _ _ _ => rfl
theorem tlbinv : ∀ a0 a1 a2 a3 a4, Statement (.tlbinv a0 a1 a2 a3 a4) := fun _ _ _ _ _ _ => rfl
theorem ext : ∀ a0 a1, Statement (.ext a0 a1) := fun _ _ _ => rfl
theorem pchk : ∀ a0 a1 a2, Statement (.pchk a0 a1 a2) := fun _ _ _ _ => rfl
theorem codeFetch : ∀ a0, Statement (.codeFetch a0) := by intros; intro h; cases h
theorem writeBack : ∀ a0 a1, Statement (.writeBack a0 a1) := by intros; intro h; cases h
theorem loadReturn : ∀ a0 a1 a2 a3, Statement (.loadReturn a0 a1 a2 a3) := by intros; intro h; cases h
theorem writeQueuePerform : ∀ a0, Statement (.writeQueuePerform a0) := by intros; intro h; cases h
theorem trapEntry : ∀ a0, Statement (.trapEntry a0) := by intros; intro h; cases h
theorem linkCommit : ∀ a0 a1, Statement (.linkCommit a0 a1) := by intros; intro h; cases h
theorem streamPatternRead : ∀ a0 a1, Statement (.streamPatternRead a0 a1) := by intros; intro h; cases h
theorem joinWaitSatisfy : ∀ a0, Statement (.joinWaitSatisfy a0) := by intros; intro h; cases h
theorem semaphoreGrant : ∀ a0 a1, Statement (.semaphoreGrant a0 a1) := by intros; intro h; cases h
theorem mutexGrant : ∀ a0 a1, Statement (.mutexGrant a0 a1) := by intros; intro h; cases h
theorem waitvReread : ∀ a0 a1, Statement (.waitvReread a0 a1) := by intros; intro h; cases h
theorem twaitSatisfy : ∀ a0, Statement (.twaitSatisfy a0) := by intros; intro h; cases h
theorem fenceResolve : ∀ a0, Statement (.fenceResolve a0) := by intros; intro h; cases h
theorem strandHalted : ∀ a0, Statement (.strandHalted a0) := by intros; intro h; cases h
theorem codebookWriterRetire : ∀ a0 a1, Statement (.codebookWriterRetire a0 a1) := by intros; intro h; cases h
theorem tileFillComplete : ∀ a0 a1, Statement (.tileFillComplete a0 a1) := by intros; intro h; cases h
theorem docentGrant : ∀ a0, Statement (.docentGrant a0) := by intros; intro h; cases h
theorem taskComplete : ∀ a0, Statement (.taskComplete a0) := by intros; intro h; cases h
theorem queueDetach : ∀ a0, Statement (.queueDetach a0) := by intros; intro h; cases h
theorem mma : ∀ a0, Statement (.mma a0) := by intros; intro h; cases h
theorem mmas : ∀ a0, Statement (.mmas a0) := by intros; intro h; cases h
theorem wpre : ∀ a0, Statement (.wpre a0) := by intros; intro h; cases h
theorem wswp : ∀ a0, Statement (.wswp a0) := by intros; intro h; cases h
theorem drain : ∀ a0, Statement (.drain a0) := by intros; intro h; cases h
theorem aclr : ∀ a0, Statement (.aclr a0) := by intros; intro h; cases h
theorem tcpy : ∀ a0, Statement (.tcpy a0) := by intros; intro h; cases h
theorem tset : ∀ a0, Statement (.tset a0) := by intros; intro h; cases h
theorem txps : ∀ a0, Statement (.txps a0) := by intros; intro h; cases h
theorem tred : ∀ a0, Statement (.tred a0) := by intros; intro h; cases h
theorem itin : ∀ a0, Statement (.itin a0) := by intros; intro h; cases h
theorem twb : ∀ a0, Statement (.twb a0) := by intros; intro h; cases h
theorem kvq : ∀ a0, Statement (.kvq a0) := by intros; intro h; cases h
theorem crs : ∀ a0, Statement (.crs a0) := by intros; intro h; cases h
theorem cag : ∀ a0, Statement (.cag a0) := by intros; intro h; cases h
theorem cbar : ∀ a0, Statement (.cbar a0) := by intros; intro h; cases h
theorem requestPacketArrival : ∀ a0 a1 a2 a3 a4 a5 a6 a7, Statement (.requestPacketArrival a0 a1 a2 a3 a4 a5 a6 a7) := by intros; intro h; cases h
theorem ackTimer : ∀ a0, Statement (.ackTimer a0) := by intros; intro h; cases h
theorem ackReceived : ∀ a0 a1 a2, Statement (.ackReceived a0 a1 a2) := by intros; intro h; cases h
theorem retentionResend : ∀ a0, Statement (.retentionResend a0) := by intros; intro h; cases h
theorem destinationFailureReport : ∀ a0, Statement (.destinationFailureReport a0) := by intros; intro h; cases h
theorem launchAccept : ∀ a0, Statement (.launchAccept a0) := by intros; intro h; cases h
theorem skipDiscard : ∀ a0, Statement (.skipDiscard a0) := by intros; intro h; cases h
theorem groupPrepare : ∀ a0, Statement (.groupPrepare a0) := by intros; intro h; cases h
theorem groupStart : ∀ a0, Statement (.groupStart a0) := by intros; intro h; cases h
theorem groupResume : ∀ a0, Statement (.groupResume a0) := by intros; intro h; cases h
theorem groupComplete : ∀ a0 a1, Statement (.groupComplete a0 a1) := by intros; intro h; cases h
theorem launchComplete : ∀ a0, Statement (.launchComplete a0) := by intros; intro h; cases h
theorem forcedSave : ∀ a0 a1, Statement (.forcedSave a0 a1) := by intros; intro h; cases h
theorem debugStop : ∀ a0, Statement (.debugStop a0) := by intros; intro h; cases h
theorem walkComplete : ∀ a0 a1 a2, Statement (.walkComplete a0 a1 a2) := by intros; intro h; cases h
theorem patrolScrub : ∀ a0, Statement (.patrolScrub a0) := by intros; intro h; cases h
theorem hostSnoopWrite : ∀ a0 a1 a2, Statement (.hostSnoopWrite a0 a1 a2) := by intros; intro h; cases h
theorem hostMemAccess : ∀ a0 a1 a2 a3 a4, Statement (.hostMemAccess a0 a1 a2 a3 a4) := by intros; intro h; cases h
theorem linkRetrainFail : ∀ a0 a1, Statement (.linkRetrainFail a0 a1) := by intros; intro h; cases h
theorem contextRegister : ∀ a0, Statement (.contextRegister a0) := by intros; intro h; cases h
theorem queueRegister : ∀ a0 a1 a2 a3, Statement (.queueRegister a0 a1 a2 a3) := by intros; intro h; cases h
theorem ticketSet : ∀ a0 a1, Statement (.ticketSet a0 a1) := by intros; intro h; cases h
theorem skip : ∀ a0 a1, Statement (.skip a0 a1) := by intros; intro h; cases h
theorem bind : ∀ a0 a1 a2 a3, Statement (.bind a0 a1 a2 a3) := by intros; intro h; cases h
theorem cancel : ∀ a0 a1 a2 a3, Statement (.cancel a0 a1 a2 a3) := by intros; intro h; cases h
theorem preemptRequest : ∀ a0 a1 a2, Statement (.preemptRequest a0 a1 a2) := by intros; intro h; cases h
theorem debugResume : ∀ a0, Statement (.debugResume a0) := by intros; intro h; cases h
theorem pageMigrate : ∀ a0 a1, Statement (.pageMigrate a0 a1) := by intros; intro h; cases h
theorem contextTeardown : ∀ a0, Statement (.contextTeardown a0) := by intros; intro h; cases h
theorem memueUndo : ∀ a0 a1, Statement (.memueUndo a0 a1) := by intros; intro h; cases h
theorem identityShadowWrite : ∀ a0 a1, Statement (.identityShadowWrite a0 a1) := by intros; intro h; cases h
theorem identitySwap : ∀ a0, Statement (.identitySwap a0) := by intros; intro h; cases h
theorem windowRegisterWrite : ∀ a0 a1 a2, Statement (.windowRegisterWrite a0 a1 a2) := by intros; intro h; cases h
theorem takeoverHold : ∀ a0, Statement (.takeoverHold a0) := by intros; intro h; cases h
theorem takeoverReport : ∀ a0, Statement (.takeoverReport a0) := by intros; intro h; cases h
theorem spareSetup : ∀ a0 a1 a2 a3, Statement (.spareSetup a0 a1 a2 a3) := by intros; intro h; cases h
theorem attestationRequest : ∀ a0, Statement (.attestationRequest a0) := by intros; intro h; cases h
theorem marginSample : ∀ a0, Statement (.marginSample a0) := by intros; intro h; cases h
theorem powerSample : ∀ a0, Statement (.powerSample a0) := by intros; intro h; cases h
theorem thermalTrip : ∀ a0, Statement (.thermalTrip a0) := by intros; intro h; cases h
theorem hostSnoopRead : ∀ a0 a1 a2, Statement (.hostSnoopRead a0 a1 a2) := by intros; intro h; cases h
theorem flitCrcRetry : ∀ a0 a1, Statement (.flitCrcRetry a0 a1) := by intros; intro h; cases h
theorem curatorDbgctlWrite : ∀ a0 a1, Statement (.curatorDbgctlWrite a0 a1) := by intros; intro h; cases h
theorem nop : Statement .nop := fun _ => rfl
theorem fenceP : Statement .fenceP := fun _ => rfl
theorem fenceH : Statement .fenceH := fun _ => rfl
theorem fenceE : Statement .fenceE := fun _ => rfl
theorem gang : Statement .gang := fun _ => rfl
theorem split : Statement .split := fun _ => rfl
theorem yield : Statement .yield := fun _ => rfl
theorem eret : Statement .eret := fun _ => rfl
theorem rply : Statement .rply := fun _ => rfl
theorem halt : Statement .halt := fun _ => rfl
theorem ptsTick : Statement .ptsTick := by intro h; cases h
theorem shootdown : Statement .shootdown := by intro h; cases h
theorem moduleReset : Statement .moduleReset := by intro h; cases h

end Sys2Proof.Laws.Encodes
end

