-- ==== Sys2Proof/Laws/Vec.lean ====
section
/-! SUPPORT. Lanes of vectors, bits of masks and flags of lanes built from lists. -/

namespace Sys2Proof.Machine

theorem lane_vecOfList (l : List W32) (j : Nat) (h : j < 64) : lane (vecOfList l) j = l.getD j 0 := by
  induction l generalizing j with
  | nil => simp [vecOfList, lane]
  | cons x r ih =>
    have e : vecOfList (x :: r) = vecOfList r <<< 32 ||| x.setWidth 2048 := rfl
    rw [e]
    unfold lane
    cases j with
    | zero =>
      ext b hb
      simp [hb, show b < 2048 by omega]
    | succ k =>
      have hk := ih k (by omega)
      rw [List.getD_cons_succ, ← hk]
      unfold lane
      apply BitVec.eq_of_getLsbD_eq
      intro b hb
      have h1 : 32 * (k + 1) + b < 2048 := by omega
      have h2 : ¬ 32 * (k + 1) + b < 32 := by omega
      have h3 : 32 * (k + 1) + b - 32 = 32 * k + b := by omega
      have h4 : x.getLsbD (32 * (k + 1) + b) = false := BitVec.getLsbD_of_ge _ _ (by omega)
      simp only [BitVec.getLsbD_extractLsb', BitVec.getLsbD_or, BitVec.getLsbD_shiftLeft, BitVec.getLsbD_setWidth, hb, h1, h2,
        h3, h4, decide_true, decide_false, Bool.true_and, Bool.not_false, Bool.and_false, Bool.or_false]

/-- A lane of a vector given by a function. -/
theorem lane_vecOf (f : Nat → W32) (j : Nat) (h : j < 64) : lane (vecOf f) j = f j := by
  rw [vecOf, lane_vecOfList _ _ h]
  simp [List.getD_eq_getElem?_getD, h]

theorem getLsbD_maskOfList (l : List Bool) (j : Nat) (h : j < 64) : (maskOfList l).getLsbD j = l.getD j false := by
  induction l generalizing j with
  | nil => simp [maskOfList]
  | cons x r ih =>
    have e : maskOfList (x :: r) = maskOfList r <<< 1 ||| (BitVec.ofBool x).setWidth 64 := rfl
    rw [e]
    cases j with
    | zero => cases x <;> simp
    | succ k =>
      have hk := ih k (by omega)
      rw [List.getD_cons_succ, ← hk]
      have h4 : (BitVec.ofBool x).getLsbD (k + 1) = false := BitVec.getLsbD_of_ge _ _ (by omega)
      simp only [BitVec.getLsbD_or, BitVec.getLsbD_shiftLeft, BitVec.getLsbD_setWidth, h, h4, decide_true, Bool.true_and,
        Bool.and_false, Bool.or_false, Nat.add_sub_cancel, show ¬ k + 1 < 1 by omega, decide_false,
        Bool.not_false]

/-- A bit of a mask given by a function. -/
theorem getLsbD_maskOf (f : Nat → Bool) (j : Nat) (h : j < 64) : (maskOf f).getLsbD j = f j := by
  rw [maskOf, getLsbD_maskOfList _ _ h]
  simp [List.getD_eq_getElem?_getD, h]

theorem laneFlags_flagsOfList (l : List Nat) (j : Nat) (h : j < 64) :
    (laneFlags (flagsOfList l) j).toNat = l.getD j 0 % 128 := by
  induction l generalizing j with
  | nil => simp [flagsOfList, laneFlags]
  | cons x r ih =>
    have e : flagsOfList (x :: r) = flagsOfList r <<< 7 ||| BitVec.ofNat 448 (x % 128) := rfl
    rw [e]
    cases j with
    | zero =>
      have : laneFlags (flagsOfList r <<< 7 ||| BitVec.ofNat 448 (x % 128)) 0 = BitVec.ofNat 7 x := by
        unfold laneFlags
        apply BitVec.eq_of_getLsbD_eq
        intro b hb
        have hx : (x % 128).testBit b = x.testBit b := by
          rw [show (128 : Nat) = 2 ^ 7 from rfl, Nat.testBit_mod_two_pow]; simp [hb]
        simp only [BitVec.getLsbD_extractLsb', BitVec.getLsbD_or, BitVec.getLsbD_shiftLeft, BitVec.getLsbD_ofNat, hb, hx,
          show 7 * 0 + b = b by omega, show b < 448 by omega, decide_true, Bool.true_and, Bool.not_true, Bool.false_and,
          Bool.false_or]
      rw [this]; simp
    | succ k =>
      have hk := ih k (by omega)
      rw [List.getD_cons_succ, ← hk]
      congr 1
      unfold laneFlags
      apply BitVec.eq_of_getLsbD_eq
      intro b hb
      have h1 : 7 * (k + 1) + b < 448 := by omega
      have h2 : ¬ 7 * (k + 1) + b < 7 := by omega
      have h3 : 7 * (k + 1) + b - 7 = 7 * k + b := by omega
      have hx : (x % 128).testBit (7 * (k + 1) + b) = false := by
        rw [show (128 : Nat) = 2 ^ 7 from rfl, Nat.testBit_mod_two_pow]
        simp [h2]
      simp only [BitVec.getLsbD_extractLsb', BitVec.getLsbD_or, BitVec.getLsbD_shiftLeft, BitVec.getLsbD_ofNat, hb, h1, h2,
        h3, hx, decide_true, decide_false, Bool.true_and, Bool.not_false, Bool.and_false, Bool.or_false]

end Sys2Proof.Machine
end

