-- ==== Sys2Proof/Tests/Slice0.lean ====
section
/-! SUPPORT. Tests: small closed facts, each expected value taken from the spec's rules, tables and examples; and for each
statement with hypotheses a state and operands that meet them. -/

namespace Sys2Proof.Tests

set_option Elab.async false

open Sys2Proof Sys2Proof.Machine

/-! ### Well-formedness: each check refuses an ill-formed term (Table 6-7, R133, R152, R157, R181 to R200) -/

/-- A field value that the descriptions do not assign: ILLINS FIELD. -/
theorem test_illformed_fields :
    [Instr.sext 24 25 0 false false 0 false, .zext 24 25 0 false false 0 false, .bfx 24 25 false 1 63, .bfxu 24 25 false 63 1,
      .bfi 24 25 false 32 32, .cmp 24 25 26 false false false 6, .vcmp 1 6 24 25 false false false 0 false].all
      (fun i => decide (decodeFault i = some (.illins 1))) = true := by decide +kernel

theorem test_illformed_vector_fields :
    [Instr.vpack 24 25 false false true 0 false false 0 false, .vpack 24 25 false true false 2 false false 0 false,
      .vunpk 24 25 false false 2 false false 0 false, .vslide 24 25 26 false false false false 3,
      .vred 24 25 1 true false false false 0 false, .vscan 24 25 1 true false false 0 false,
      .vfred 24 25 3 0 false false false 0 false, .vcvti 24 25 5 false false false false 0 false,
      .vcvtf 24 25 5 false false false 0 false, .fcvt 24 25 false 6 6 0 false, .vcvt 24 25 false 9 9 0 false,
      .vqnt 24 25 0 false false false 4, .vmxq 24 25 26 false false 0 4].all
      (fun i => decide (decodeFault i = some (.illins 1))) = true := by decide +kernel

theorem test_illformed_memory_fields :
    [Instr.vld 24 25 false false 6 false 0 false, .vst 24 25 false true 1 false 0 false,
      .vldn 24 25 false 1 false 6 false 0 false, .vstn 24 25 false 1 false 7 false 0 false, .vlds 24 25 26 false 3 0 false,
      .vldg 24 25 26 false 3 0 false, .vsts 24 25 26 false 3 0 false, .vstg 24 25 26 false 3 0 false,
      .ldt 24 25 26 false false false 6, .stt 24 25 26 false false true 1, .spos 24 25 false 1 false, .amo 24 25 26 10 0,
      .amo 24 25 26 8 2, .cas 24 25 26 2, .fenceO 7, .spill 24 true 8, .fill 24 false 4, .prefl 2 24 false 0,
      .cbinv 0 24 false true, .waitv 24 25 26 false false 6 false].all
      (fun i => decide (decodeFault i = some (.illins 1))) = true := by decide +kernel

theorem test_illformed_control_fields :
    [Instr.br 0 false 0 5, .call 0 false 0 5, .gbr 0 false 0 7, .brc 24 false 6 0 0, .brc 24 false 0 0 5, .loop 24 0 5,
      .semwait 24 0 0, .sempost 24 0 0, .pgpass 24 25 26 false false false 3 false].all
      (fun i => decide (decodeFault i = some (.illins 1))) = true := by decide +kernel

/-- An operand code that its field does not allow: ILLINS OPERAND. -/
theorem test_illformed_operands :
    [Instr.add 33 24 25 false false false 0 false, .add 24 32 25 false false false 0 false,
      .vadd 24 51 25 false false false 0 false, .vbcast 24 32 false false 0 false, .loop 23 0 0, .spill 32 false 0,
      .fill 48 false 0, .park 40 0, .unpark 48 0, .qlink 24 25 false 24, .qunlink 24, .qdepth 24 31, .qflush 24 true].all
      (fun i => decide (decodeFault i = some (.illins 2))) = true := by decide +kernel

/-- An unassigned system register; a group out of range, across the queues' end, or overlapping; a constructor that stands
for no word of its own. -/
theorem test_illformed_sysreg_groups_slots :
    decodeFault (.mfs 24 0x0E) = some (.illins 4) ∧ decodeFault (.mts 24 false 0x25) = some (.illins 4) ∧
    decodeFault (.vldn 31 25 false 1 false 0 false 0 false) = some (.illopnd 1) ∧
    decodeFault (.vstn 23 25 false 1 false 0 false 0 false) = some (.illopnd 1) ∧
    decodeFault (.vcvt 24 24 false 6 9 0 false) = some (.illopnd 0) ∧
    Instr.isSlot (.mts 24 false 0x01) = false ∧ Instr.isSlot .ptsTick = false := by decide +kernel

theorem test_wellformed_boundaries :
    [Instr.sext 24 25 63 false false 7 true, .bfx 24 25 true 0 63, .bfi 24 25 false 63 0, .cmp 0 50 48 true true true 5,
      .add 48 23 31 true true true 7 true, .vadd 31 47 50 false false false 0 false, .fenceO 6, .spill 31 true 0xFF00,
      .loop 31 0x8000 4, .qdepth 48 23, .vldn 22 25 false 1 false 5 false 0 false, .mfs 24 0x7F].all
      (fun i => i.isSlot && decide (decodeFault i = none)) = true := by decide +kernel

/-! ### Decoding: words written out bit by bit from the formats of chapter 6 -/

/-- Format T and U of slot B: OPC D A B PA PB NF K KN. -/
theorem test_decode_scalar :
    decodeSlot .b 0b0000001_011000_011001_011010_1_0_1_010_1#32 = .ok (.add 24 25 26 true false true 2 true) ∧
    decodeSlot .b 0b0011110_000111_011001_010000_0_0_0_000_0#32 = .ok (.sel 7 25 16 false false false 0 false) ∧
    decodeSlot .b 0b0010110_011000_011001_000000_1_0_0_111_0#32 = .ok (.clz 24 25 true false 7 false) ∧
    decodeSlot .b 0b0100000_011000_000000_0_011001111000#32 = .ok (.movi 24 0x678) := by decide +kernel

theorem test_decode_vector :
    decodeSlot .b 0b0111000_011010_000100_100010_1_0_1_011_0#32 = .ok (.vadd 26 4 34 true false true 3 false) ∧
    decodeSlot .b 0b1010000_011100_011001_000000_0_0_0_000_0#32 = .ok (.vbcast 28 25 false false 0 false) ∧
    decodeSlot .b 0b1100111_011010_000100_000000_0_0_1_001_1#32 = .ok (.vfabs 26 4 false true 1 true) ∧
    decodeSlot .b 0b1111100_00000000000000_1111111_111_1#32 = .ok (.vflgc 0x7F 7 true) := by decide +kernel

theorem test_decode_memory :
    decodeSlot .a 0b0000001_011000_011001_1_000000001000#32 = .ok (.ldB 24 25 true 8) ∧
    decodeSlot .a 0b0001011_011000_011001_0_111111111111#32 = .ok (.stD 24 25 false 0xFFF) ∧
    decodeSlot .a 0x20230040#32 = .ok (.vld 4 24 false false 2 false 0 false) ∧
    decodeSlot .a 0b0101100_00000000000000000000_01_110#32 = .ok .fenceP ∧
    decodeSlot .a 0b0110010_011000_0000000000_000000111#32 = .ok (.park 24 7) := by decide +kernel

theorem test_decode_control :
    decodeSlot .c 0b0000011_000_0_000000000000000001_010#32 = .ok (.call 0 false 1 2) ∧
    decodeSlot .c 0b0000101_000000_011110_000000000_000_0#32 = .ok (.ret 30 false 0 false) ∧
    decodeSlot .c 0b0101101_011001_00000000000_01010001#32 = .ok (.mfs 25 0x51) ∧
    decodeSlot .c 0b0110001_0000000000000000000000000#32 = .ok .halt ∧
    decodeSlot .c 0b0101001_0000000000000_000000000111#32 = .ok (.sysc 7) := by decide +kernel

/-- Two words of the table that differ in one bit of the opcode do not decode alike; a set reserved bit is refused. -/
theorem test_decode_reserved :
    decodeSlot .c 0b0110001_0000000000000000000000001#32 = .bad (.illins 1) ∧
    decodeSlot .c 0b0110101_0000000000000000000000000#32 = .bad (.illins 0) ∧
    decodeSlot .a 0b0101100_00000000000000000001_01_000#32 = .bad (.illins 1) := by decide +kernel

/-! ### Small states -/

def bd : Bound := ⟨1, 0, 0, 1, 0, 1, 1, 0, 0, 0, 0⟩

/-- Strand 0, bound and running, alone in the module. -/
def st0 : Strand := { Strand.reset with bound := some bd, running := true }
def one (st : Strand) : State := { State.reset with strands := [(0, st)] }
def sc (l : AMap SV) : State := one { st0 with regs := { st0.regs with sp := l } }
def two (a b : W64) : State := sc [(24, ⟨a, false⟩), (25, ⟨b, false⟩), (26, ⟨7, false⟩)]
/-- A vector whose first lanes are listed, the rest 0, untagged. -/
def vl (l : List W32) : VV := ⟨vecOfList l, 0⟩
def vc (l : AMap VV) (k : AMap PV) : State := one { st0 with regs := { st0.regs with vp := l, kp := k } }
def vtwo (a b : List W32) : State := vc [(24, vl a), (25, vl b), (26, vl [7, 7, 7, 7])] []

/-- The one operation in flight after a slot-B instruction. -/
def flight (s : State) (i : Instr) : Option Flight :=
  match exec i s with
  | .next t => t.me.flights.head?
  | _ => none
/-- Its scalar result and the flags of lane 0. -/
def outS (s : State) (i : Instr) : Option (SV × Nat) :=
  (flight s i).bind (fun f => match f.wbs with
    | [.s _ x] => some (x, (laneFlags f.flags 0).toNat)
    | _ => none)
/-- Lane `j` of its vector result and that lane's flags. -/
def outV (s : State) (i : Instr) (j : Nat) : Option (W32 × Nat) :=
  (flight s i).bind (fun f => match f.wbs with
    | [.v _ x _] => some (lane x.v j, (laneFlags f.flags j).toNat)
    | _ => none)
def plain (v : W64) (f : Nat) : Option (SV × Nat) := some (⟨v, false⟩, f)
/-- What the strand's state is after an instruction. -/
def after (s : State) (i : Instr) : Strand :=
  match exec i s with
  | .next t => t.me
  | _ => Strand.reset

/-! ### Scalar integers (Tables 8-2 to 8-6) -/

theorem test_add_wraps : outS (two 0xFFFFFFFFFFFFFFFF 2) (.add 27 24 25 false false false 0 false) = plain 1 0 := by decide +kernel
theorem test_sub_wraps : outS (two 1 2) (.sub 27 24 25 false false false 0 false) = plain 0xFFFFFFFFFFFFFFFF 0 := by decide +kernel
theorem test_mul_low : outS (two 0x100000000 0x100000001) (.mul 27 24 25 false false false 0 false) =
    plain 0x100000000 0 := by decide +kernel
theorem test_mulh_signed : outS (two 0xFFFFFFFFFFFFFFFF 2) (.mulh 27 24 25 false false false 0 false) =
    plain 0xFFFFFFFFFFFFFFFF 0 := by decide +kernel
theorem test_mulhu : outS (two 0xFFFFFFFFFFFFFFFF 2) (.mulhu 27 24 25 false false false 0 false) = plain 1 0 := by decide +kernel
theorem test_div_truncates : outS (two 0xFFFFFFFFFFFFFFF9 2) (.div 27 24 25 false false false 0 false) =
    plain 0xFFFFFFFFFFFFFFFD 0 := by decide +kernel
theorem test_div_zero : outS (two 5 0) (.div 27 24 25 false false false 0 false) = plain 0xFFFFFFFFFFFFFFFF 8 := by decide +kernel
theorem test_divu : outS (two 0xFFFFFFFFFFFFFFFE 2) (.divu 27 24 25 false false false 0 false) =
    plain 0x7FFFFFFFFFFFFFFF 0 := by decide +kernel
theorem test_rem_sign : outS (two 0xFFFFFFFFFFFFFFF9 2) (.rem 27 24 25 false false false 0 false) =
    plain 0xFFFFFFFFFFFFFFFF 0 := by decide +kernel
theorem test_rem_overflow : outS (two 0x8000000000000000 0xFFFFFFFFFFFFFFFF) (.rem 27 24 25 false false false 0 false) =
    plain 0 0 := by decide +kernel
theorem test_remu_zero : outS (two 5 0) (.remu 27 24 25 false false false 0 false) = plain 5 8 := by decide +kernel
theorem test_logic : outS (two 12 10) (.and 27 24 25 false false false 0 false) = plain 8 0 ∧
    outS (two 12 10) (.or 27 24 25 false false false 0 false) = plain 14 0 ∧
    outS (two 12 10) (.xor 27 24 25 false false false 0 false) = plain 6 0 ∧
    outS (two 12 10) (.andn 27 24 25 false false false 0 false) = plain 4 0 := by decide +kernel
theorem test_shift_full : outS (two 1 64) (.shl 27 24 25 false false false 0 false) = plain 0 0 ∧
    outS (two 0x8000000000000000 64) (.shr 27 24 25 false false false 0 false) = plain 0 0 ∧
    outS (two 0x8000000000000000 64) (.sar 27 24 25 false false false 0 false) = plain 0xFFFFFFFFFFFFFFFF 0 ∧
    outS (two 0x8000000000000001 65) (.rot 27 24 25 false false false 0 false) = plain 3 0 := by decide +kernel
theorem test_min_max : outS (two 0xFFFFFFFFFFFFFFFF 1) (.min 27 24 25 false false false 0 false) =
      plain 0xFFFFFFFFFFFFFFFF 0 ∧
    outS (two 0xFFFFFFFFFFFFFFFF 1) (.max 27 24 25 false false false 0 false) = plain 1 0 ∧
    outS (two 0xFFFFFFFFFFFFFFFF 1) (.minu 27 24 25 false false false 0 false) = plain 1 0 ∧
    outS (two 0xFFFFFFFFFFFFFFFF 1) (.maxu 27 24 25 false false false 0 false) = plain 0xFFFFFFFFFFFFFFFF 0 := by decide +kernel
theorem test_counts : outS (two 0 1) (.clz 27 24 false false 0 false) = plain 64 0 ∧
    outS (two 0 1) (.ctz 27 24 false false 0 false) = plain 64 0 ∧
    outS (two 0 1) (.clz 27 25 false false 0 false) = plain 63 0 ∧
    outS (two 0x28 1) (.ctz 27 24 false false 0 false) = plain 3 0 ∧
    outS (two 0xFF00 1) (.popc 27 24 false false 0 false) = plain 8 0 ∧
    outS (two 9 1) (.mov 27 24 false false 0 false) = plain 9 0 := by decide +kernel
theorem test_extend : outS (two 0x80 0) (.sext 27 24 8 false false 0 false) = plain 0xFFFFFFFFFFFFFF80 0 ∧
    outS (two 0x180 0) (.zext 27 24 8 false false 0 false) = plain 0x80 0 ∧
    outS (two 1 0) (.sext 27 24 1 false false 0 false) = plain 0xFFFFFFFFFFFFFFFF 0 := by decide +kernel
theorem test_fields : outS (two 0xF0 0) (.bfx 27 24 false 4 3) = plain 0xFFFFFFFFFFFFFFFF 0 ∧
    outS (two 0xF0 0) (.bfxu 27 24 false 4 3) = plain 15 0 ∧
    outS (sc [(24, ⟨5, false⟩), (27, ⟨0xFFFF, false⟩)]) (.bfi 27 24 false 4 3) = plain 0xFF5F 0 := by decide +kernel
theorem test_sel_condition_is_destination :
    outS (sc [(24, ⟨5, false⟩), (25, ⟨6, false⟩), (27, ⟨1, false⟩)]) (.sel 27 24 25 false false false 0 false) = plain 5 0 ∧
    outS (two 5 6) (.sel 27 24 25 false false false 0 false) = plain 6 0 := by decide +kernel
theorem test_immediates : outS (two 5 6) (.movi 27 0xFFF) = plain 0xFFFFFFFFFFFFFFFF 0 ∧
    outS (two 5 6) (.lea 27 24 false 0xFFF) = plain 4 0 := by decide +kernel
theorem test_cmp_signs : outS (two 0xFFFFFFFFFFFFFFFF 1) (.cmp 27 24 25 false false false 2) = plain 1 0 ∧
    outS (two 0xFFFFFFFFFFFFFFFF 1) (.cmp 27 24 25 false false true 2) = plain 0 0 := by decide +kernel
/-- A tagged source tags the result and sets PS, bit 6. -/
theorem test_poison_spreads :
    outS (sc [(24, ⟨5, true⟩), (25, ⟨6, false⟩)]) (.add 27 24 25 false false false 0 false) = some (⟨11, true⟩, 64) ∧
    outS (sc [(24, ⟨5, true⟩), (25, ⟨6, false⟩)]) (.add 27 24 25 false false true 0 false) = some (⟨11, true⟩, 0) := by decide +kernel
/-- Division writes back 12 clocks after issue, addition after 1 (Table 8-1). -/
theorem test_latency : (flight (two 5 6) (.div 27 24 25 false false false 0 false)).map Flight.due = some 12 ∧
    (flight (two 5 6) (.add 27 24 25 false false false 0 false)).map Flight.due = some 1 := by decide +kernel

/-! ### Vector integers (Table 8-7, R188 to R200) -/

theorem test_vadd_vsub : outV (vtwo [0xFFFFFFFF, 5] [2, 7]) (.vadd 27 24 25 false false false 0 false) 0 = some (1, 0) ∧
    outV (vtwo [0xFFFFFFFF, 5] [2, 7]) (.vsub 27 24 25 false false false 0 false) 1 = some (0xFFFFFFFE, 0) := by decide +kernel
theorem test_vmul : outV (vtwo [0xFFFFFFFF] [2]) (.vmul 27 24 25 false false false 0 false) 0 = some (0xFFFFFFFE, 0) ∧
    outV (vtwo [0x40000000] [8]) (.vmulh 27 24 25 false false false 0 false) 0 = some (2, 0) ∧
    outV (vtwo [3] [5]) (.vmac 26 24 25 false false false 0 false) 0 = some (22, 0) := by decide +kernel
theorem test_vabs_clamps : outV (vtwo [0x80000000, 0xFFFFFFFB] []) (.vabs 27 24 false false 0 false) 0 = some (0x7FFFFFFF, 32) ∧
    outV (vtwo [0x80000000, 0xFFFFFFFB] []) (.vabs 27 24 false false 0 false) 1 = some (5, 0) ∧
    outV (vtwo [0x80000000] []) (.vneg 27 24 false false 0 false) 0 = some (0x7FFFFFFF, 32) := by decide +kernel
theorem test_vlogic_shift : outV (vtwo [12] [10]) (.vxor 27 24 25 false false false 0 false) 0 = some (6, 0) ∧
    outV (vtwo [12] [10]) (.vand 27 24 25 false false false 0 false) 0 = some (8, 0) ∧
    outV (vtwo [12] [10]) (.vor 27 24 25 false false false 0 false) 0 = some (14, 0) ∧
    outV (vtwo [1] [32]) (.vshl 27 24 25 false false false 0 false) 0 = some (0, 0) ∧
    outV (vtwo [0x80000000] [31]) (.vshr 27 24 25 false false false 0 false) 0 = some (1, 0) ∧
    outV (vtwo [0x80000000] [40]) (.vsar 27 24 25 false false false 0 false) 0 = some (0xFFFFFFFF, 0) := by decide +kernel
theorem test_vmin_vmax : outV (vtwo [0xFFFFFFFF] [1]) (.vmin 27 24 25 false false false 0 false) 0 = some (0xFFFFFFFF, 0) ∧
    outV (vtwo [0xFFFFFFFF] [1]) (.vmax 27 24 25 false false false 0 false) 0 = some (1, 0) := by decide +kernel
/-- Rounding shift: 3 / 2 rounds to 2, and the 16-bit form clamps at 32,767 with SA. -/
theorem test_vshrr : outV (vtwo [3, 0x7FFFFFFF] []) (.vshrr 27 24 false 1 false false 0 false) 0 = some (2, 0) ∧
    outV (vtwo [3, 0x7FFFFFFF] []) (.vshrr 27 24 true 15 false false 0 false) 1 = some (32767, 32) := by decide +kernel
theorem test_vsat : outV (vtwo [200, 0xFFFFFF00] []) (.vsat 27 24 false 7 false false 0 false) 0 = some (127, 32) ∧
    outV (vtwo [200, 0xFFFFFF00] []) (.vsat 27 24 true 7 false false 0 false) 1 = some (0, 32) := by decide +kernel
theorem test_vdot4_vmac2 : outV (vtwo [0x01020304] [0x01010101]) (.vdot4 26 24 25 false false false 0 false) 0 = some (17, 0) ∧
    outV (vtwo [0x00020003] [0x00050004]) (.vmac2 26 24 1 false false false 0 false) 0 = some (29, 0) := by decide +kernel
theorem test_vsel_vperm : outV (vtwo [5, 6] [8, 9]) (.vsel 26 24 25 false false false 0 false) 1 = some (6, 0) ∧
    outV (vtwo [5, 6] [8, 9]) (.vsel 27 24 25 false false false 0 false) 1 = some (9, 0) ∧
    outV (vtwo [5, 6] [1, 0x80000000]) (.vperm 27 24 25 false false false 0 false) 0 = some (6, 0) ∧
    outV (vtwo [5, 6] [1, 0x80000000]) (.vperm 27 24 25 false false false 0 false) 1 = some (0, 0) := by decide +kernel
theorem test_vpack_vunpk : outV (vtwo [0x12345678, 0xFFFF8000] []) (.vpack 27 24 false false false 0 false false 0 false) 0 =
      some (0x80005678, 0) ∧
    outV (vtwo [0x80005678] []) (.vunpk 27 24 false false 0 false false 0 false) 1 = some (0xFFFF8000, 0) ∧
    outV (vtwo [0x80005678] []) (.vunpk 27 24 false true 0 false false 0 false) 1 = some (0x8000, 0) := by decide +kernel
theorem test_vins_vext_vbcast :
    outS (vtwo [5, 0x80000000] []) (.vext 27 24 false false 1) = plain 0xFFFFFFFF80000000 0 ∧
    outS (vtwo [5, 0x80000000] []) (.vext 27 24 false true 1) = plain 0x80000000 0 ∧
    outV (one { st0 with regs := { st0.regs with sp := [(24, ⟨0x1234567890, false⟩)] } }) (.vbcast 27 24 false false 0 false) 63 =
      some (0x34567890, 0) := by decide +kernel
theorem test_vcompr_vexpd : outV (vtwo [5, 6, 7] [0, 1, 1]) (.vcompr 27 24 25 false false false 0 false) 1 = some (7, 0) ∧
    outV (vtwo [5, 6, 7] [0, 1, 1]) (.vexpd 27 24 25 false false false 0 false) 2 = some (6, 0) := by decide +kernel
/-- The example of R200: `(k2) VRED.SAT.ADD s25, v26`. -/
theorem test_vred_example :
    outS (vc [(26, vl [0x70000000, 0x70000000, 0x90000000, 5])] [(2, ⟨15, 0⟩)]) (.vred 25 26 0 true false false false 2 false) =
      plain 0x10000004 32 := by decide +kernel
theorem test_vscan_vslide : outV (vtwo [1, 2, 3] []) (.vscan 27 24 0 false false false 0 false) 2 = some (6, 0) ∧
    outV (vtwo [1, 2, 3] []) (.vslide 27 24 48 false false false true 0) 1 = some (3, 0) ∧
    outV (vtwo [0xF0, 0xFF] []) (.vpopc 27 24 false false 0 false) 1 = some (8, 0) := by decide +kernel

/-! ### Floating point and conversions (Table 9-2, Table 9-3, R207 to R220) -/

theorem test_fadd_fmul : outS (two 0x3F800000 0x40000000) (.fadd 27 24 25 false false false 0 false) = plain 0x40400000 0 ∧
    outS (two 0x3F800000 0x40000000) (.fsub 27 24 25 false false false 0 false) = plain 0xBF800000 0 ∧
    outS (two 0x40400000 0x40000000) (.fmul 27 24 25 false false false 0 false) = plain 0x40C00000 0 := by decide +kernel
/-- Infinities of opposite sign: canonical NaN and IV; a finite number over 0: infinity and DZ. -/
theorem test_float_special : outS (two 0x7F800000 0xFF800000) (.fadd 27 24 25 false false false 0 false) = plain 0x7FC00000 16 ∧
    outS (two 0x3F800000 0x80000000) (.fdiv 27 24 25 false false false 0 false) = plain 0xFF800000 8 ∧
    outS (two 0xBF800000 0) (.fsqrt 27 24 false false 0 false) = plain 0x7FC00000 16 := by decide +kernel
theorem test_fdiv_inexact : outS (two 0x3F800000 0x40400000) (.fdiv 27 24 25 false false false 0 false) =
    plain 0x3EAAAAAB 1 := by decide +kernel
theorem test_fma_fsqrt :
    outS (sc [(24, ⟨0x40000000, false⟩), (25, ⟨0x40400000, false⟩), (27, ⟨0x3F800000, false⟩)])
      (.fma 27 24 25 false false false 0 false) = plain 0x40E00000 0 ∧
    outS (two 0x40800000 0) (.fsqrt 27 24 false false 0 false) = plain 0x40000000 0 := by decide +kernel
theorem test_fmin_fcmp : outS (two 0x3F800000 0xBF800000) (.fmin 27 24 25 false false false 0 false) = plain 0xBF800000 0 ∧
    outS (two 0x3F800000 0xBF800000) (.fmax 27 24 25 false false false 0 false) = plain 0x3F800000 0 := by decide +kernel
theorem test_vfloat_special : outV (vtwo [0, 0x3F800000] []) (.vfrcp 27 24 false false 0 false) 0 = some (0x7F800000, 8) ∧
    outV (vtwo [0x40800000] []) (.vfrsq 27 24 false false 0 false) 0 = some (0x3F000000, 0) ∧
    outV (vtwo [0] []) (.vflog2 27 24 false false 0 false) 0 = some (0xFF800000, 8) ∧
    outV (vtwo [0x41000000] []) (.vflog2 27 24 false false 0 false) 0 = some (0x40400000, 0) := by decide +kernel
theorem test_vfexp2 : outV (vtwo [0x40400000] []) (.vfexp2 27 24 false false 0 false) 0 = some (0x41000000, 0) ∧
    outV (vtwo [0xFF800000] []) (.vfexp2 27 24 false false 0 false) 0 = some (0, 0) := by decide +kernel
theorem test_vfma_forms : outV (vtwo [0x40000000] [0x40400000]) (.vfma 28 24 25 false false false 0 false) 0 = some (0x40C00000, 0) ∧
    outV (vtwo [0x40000000] [0x40400000]) (.vfnma 28 24 25 false false false 0 false) 0 = some (0xC0C00000, 0) ∧
    outV (vtwo [0x3F800000] [3]) (.vscale 27 24 25 false false false 0 false) 0 = some (0x41000000, 0) ∧
    outV (vtwo [0x40003F80] [0x3F803F80]) (.vfdot2 28 24 25 false false false 0 false) 0 = some (0x40400000, 0) := by decide +kernel
theorem test_vfabs_vfneg : outV (vtwo [0xFF800001] []) (.vfabs 27 24 false false 0 false) 0 = some (0x7F800001, 0) ∧
    outV (vtwo [0x7F800001] []) (.vfneg 27 24 false false 0 false) 0 = some (0xFF800001, 0) := by decide +kernel
/-- The example of R55: the tree gives 16,777,218 with IX. -/
theorem test_vfred_example :
    outS (vtwo [0x4B800000, 0x3F800000, 0x3F800000, 0x3F800000] []) (.vfred 27 24 0 0 false false false 0 false) =
      plain 0x4B800001 1 := by decide +kernel
theorem test_vcvti : outV (vtwo [0xC0200000] []) (.vcvti 27 24 1 false false false false 0 false) 0 = some (0xFFFFFFFE, 1) ∧
    outV (vtwo [0xFFFFFFFF] []) (.vcvtf 27 24 0 false false false 0 false) 0 = some (0xBF800000, 0) := by decide +kernel
/-- The example of R48, E5M2 to E4M3 (element codes 8 and 7 of Table 3-5's order, through `convertElem`). -/
theorem test_q4n_scale_example :
    outS (one { st0 with regs := { st0.regs with sp := [(26, ⟨0x3C000000, false⟩)], vp := [(24, vl [0x3FC00000, 0xBE99999A, 0x3F333333])] } })
      (.vq4nS 25 24 26 false false false) = plain 192 0 := by decide +kernel
/-- The example of R219: bytes 0x5F, 0x7C, then 0x77; lane 0 records IX. -/
theorem test_q4n_codes_example :
    let s := one { st0 with regs := { st0.regs with sp := [(26, ⟨0x000000C03C000000, false⟩)],
                                                    vp := [(24, vl [0x3FC00000, 0xBE99999A, 0x3F333333])] } }
    outV s (.vq4n 27 24 26 false false false 0) 0 = some (0x77777C5F, 1) ∧
    outV s (.vq4n 27 24 26 false false false 0) 7 = some (0x77777777, 0) ∧
    outV s (.vq4n 27 24 26 false false false 0) 8 = some (0, 0) := by decide +kernel

theorem test_vcmp_active_lanes :
    (flight (vc [(24, vl [1, 5]), (25, vl [3, 3])] [(2, ⟨3, 0⟩)]) (.vcmp 1 2 24 25 false false false 2 false)).map
      (fun f => f.wbs.map (fun w => match w with
        | .k r x m => (r, x.v &&& m, m)
        | _ => (0, 0, 0))) = some [(1, 1, 3)] := by decide +kernel

/-! ### Witnesses: states and operands that meet the hypotheses of each statement, clause by clause -/

/-- What decides a premise about a check by evaluation. -/
def passOf (s : State) (slot : Nat) (i : Instr) : Option Pass :=
  match checkInstr s s.cur slot i with
  | .go st a b c p act fl bks => some ⟨st, a, b, c, p, act, fl, bks⟩
  | _ => none

theorem passes_of_passOf {s : State} {slot : Nat} {i : Instr} {g : Pass} (h : passOf s slot i = some g) : Passes s slot i g := by
  unfold passOf at h
  unfold Passes
  split at h
  · next e => cases h; exact e
  · cases h

def checkIs (s : State) (slot : Nat) (i : Instr) (k : Nat) : Bool :=
  match checkInstr s s.cur slot i with
  | .skip => k == 0
  | .stall => k == 1
  | .trap _ => k == 2
  | .go .. => k == 3

theorem skip_of_checkIs {s : State} {slot : Nat} {i : Instr} (h : checkIs s slot i 0 = true) :
    checkInstr s s.cur slot i = .skip := by
  unfold checkIs at h
  split at h <;> simp_all
theorem stall_of_checkIs {s : State} {slot : Nat} {i : Instr} (h : checkIs s slot i 1 = true) :
    checkInstr s s.cur slot i = .stall := by
  unfold checkIs at h
  split at h <;> simp_all
theorem trap_of_checkIs {s : State} {slot : Nat} {i : Instr} (h : checkIs s slot i 2 = true) :
    ∃ t, checkInstr s s.cur slot i = .trap t := by
  unfold checkIs at h
  split at h <;> simp_all

/-- Every instruction of a list passes its check in a state. -/
theorem all_pass {s : State} {slot : Nat} {l : List Instr} (h : l.all (passesB s slot) = true) :
    ∀ i ∈ l, ∃ g, Passes s slot i g := fun i hi => (passesB_iff s slot i).mp (List.all_eq_true.mp h i hi)

/-- A state in which every slot-B form on plain registers passes. -/
def ready : State := one { st0 with regs := { st0.regs with
  sp := [(24, ⟨5, false⟩), (25, ⟨6, false⟩)], vp := [(24, vl [1, 2]), (25, vl [3, 4])] } }

theorem witness_DecodeEncode : WellFormed (.add 24 23 50 true true true 7 true) ∧ WellFormed (.mts 0 false 0x0D) ∧
    WellFormed .halt := by unfold WellFormed; decide +kernel

theorem witness_EncodeDecode : (0x0CC32D00 : W32) ≠ 0 ∧ decodeSlot .b 0x0CC32D00#32 = .ok (.div 24 25 26 false false false 0 false) ∧
    (0x62000000 : W32) ≠ 0 ∧ decodeSlot .c 0x62000000#32 = .ok .halt := by decide +kernel

/-- An event, a strand's turn, a gang's turn, no turn left. -/
theorem witness_StepRunsTurns : State.reset.cur8.thermal = false ∧ State.reset.agenda = [] ∧
    ({ State.reset with agenda := [.ev .ptsTick] } : State).agenda = .ev .ptsTick :: [] ∧
    ({ State.reset with agenda := [.strand 0] } : State).agenda = .strand 0 :: [] ∧
    ({ State.reset with agenda := [.gang 0] } : State).agenda = .gang 0 :: [] := by decide +kernel

/-- The bundle of `ADD s26, s24, s25` and a slot C. -/
def pairOf (wb wc : W32) : Pair := { seq := 0, pc := 0, link := 0, wa := 0, wb := wb, wc := wc, aMarked := false, from_ := 0 }
def pairState (wb wc : W32) (f : List Flight) : State := one { st0 with
  flights := f, regs := ready.me.regs, front := { st0.front with pairs := [pairOf wb wc], seq := 1 } }

def addWord : W32 := 0b0000001_011010_011000_011001_0_0_0_000_0#32
def busy : Flight := { id := 9, seq := 0, slot := 1, due := 50, wbs := [.s 24 ⟨0, false⟩], flags := 0, caps := [] }

def pairsPremise (s : State) (ib ic : Instr) : Bool :=
  match s.me.front.pairs with
  | p :: _ => decide (s.me.front.waitC = none) && s.me.front.trapping.isNone && !s.me.unresolvedUpTo p.seq && p.from_ != 2 &&
      decide (p.decoded.b = .ok ib) && decide (p.decoded.c = .ok ic)
  | [] => false

/-- Slot B issues and slot C issues; slot B stalls on a write in flight; slot C stalls on it. -/
theorem witness_PairRuns :
    let ctx : Ctx := ⟨0, 0, 0, none, false⟩
    let i : Instr := .add 26 24 25 false false false 0 false
    let turn (s : State) (i : Instr) : Bool × Bool := match exec i (s.enterSlot 0 ctx) with
      | .next t => (t.slotStalled 0, t.slotTrapped 0)
      | _ => (true, true)
    pairsPremise (pairState addWord 0 []) i .nop = true ∧ turn (pairState addWord 0 []) i = (false, false) ∧
    turn (pairState addWord 0 []) .nop = (false, false) ∧
    pairsPremise (pairState addWord 0 [busy]) i .nop = true ∧ turn (pairState addWord 0 [busy]) i = (true, false) ∧
    pairsPremise (pairState 0 0x64030000#32 [busy]) .nop (.pchk 24 false false) = true ∧
    turn (pairState 0 0x64030000#32 [busy]) (.pchk 24 false false) = (true, false) := by decide +kernel

/-- The state with a word placed in slot A of the bundle to be fetched; its turn taken off the agenda. -/
def placed (w : Nat) : State :=
  let s := State.reset.withFetchWord 32 0
  { s with mem := memSetAll s.mem (atOffsets 4 (leBytes 4 w)) }
def placed0 (w : Nat) : State := { placed w with agenda := [] }
def unstepped (s : State) : State := s.modStrand 0 (fun x => { x with front := { x.front with stepped := false } })

theorem witness_atRest : AtRest ((placed 0).strand 0) (placed 0).clk := by constructor <;> decide +kernel

def fetchGives (s : State) (wa wb wc : W32) : Bool :=
  match (unstepped s).fetch 0 (s.strand 0).front.pc (s.strand 0).front.fellOff with
  | (s2, .ok link a b c) => decide (link = 0xF000000B#32 ∧ a = wa ∧ b = wb ∧ c = wc) &&
      decide (s2.strand 0 = (unstepped s).strand 0) && decide (s2.clk = s.clk)
  | _ => false

/-- A slot A that issues, one that stalls (an operand in flight), one that traps (an empty queue). -/
theorem witness_NextBundleRuns :
    let w := 0b0000001_000000_011000_0_000000001000#32
    (placed w.toNat).cur8.thermal = false ∧ (placed w.toNat).agenda = .strand 0 :: [] ∧
    fetchGives (placed0 w.toNat) w 0 0 = true ∧ (decodeBundle w 0 0).a = .ok (.ldB 0 24 false 8) ∧
    ((placed 0).strand 0).loopDecision (decodeBundle w 0 0) = some none ∧
    (let f := ((placed w.toNat).strand 0).front
     let b := f.fetched 0xF000000B w 0 0
     let s3 := (unstepped (placed0 w.toNat)).modStrand 0 (fun x => { x with front := x.front.latched b })
     let s4 := s3.modStrand 0 (fun x => { x with flights := [busy] })
     let run (s : State) (i : Instr) : Bool × Bool := match exec i (s.enterSlot 0 ⟨f.seq, f.pc, 0xF000000B, none, false⟩) with
       | .next t => (t.slotStalled 0, t.slotTrapped 0)
       | _ => (true, true)
     run s4 (.ldB 0 24 false 8) = (true, false) ∧ run s3 (.ldB 0 0 false 8) = (false, true) ∧
       run s3 (.ldB 0 24 false 8) = (false, false)) := by decide +kernel

/-- A line whose link word and bundle index take each branch: CNT 0 and 6, L with NXT, an owner missing, past the last
bundle, index 5 of 5, and index 4 of 5. -/
theorem witness_FetchReadsBundle :
    let at_ (link : W32) (pc : W64) (off : Bool) : Option Nat × Bool :=
      let s := { placed0 0 with mem := memSetAll (placed0 0).mem (atOffsets 0 (leBytes 4 link.toNat)) }
      match s.fetch 0 pc off with
      | (_, .fault t) => (some t.sub, t.cause = .fetch)
      | (_, .ok ..) => (none, true)
      | (_, .wait) => (none, false)
    (match (placed0 0).xlate 0 (lineOf 4) .fetch with
     | (s1, .ok pa _) => paHome pa && !s1.marked (pa / 256)
     | _ => false) = true ∧
    at_ 0xF0000001 0 false = (some 3, true) ∧ at_ 0xF000000D 0 false = (some 3, true) ∧
    at_ 0xF000001B 0 false = (some 3, true) ∧ at_ 0xE000000B 0 false = (some 2, true) ∧
    at_ 0xF000000B 5 true = (some 0, true) ∧ at_ 0xF000000B 5 false = (some 1, true) ∧
    at_ 0xF000000B 4 false = (none, true) ∧ at_ 0xF000000B 8 false = (some 1, true) := by decide +kernel

/-- A strand that may issue and has no bundle; one that may not. -/
theorem witness_CodeFetch :
    (let st := (placed0 0).strand 0
     (st.canIssue 0 && !st.aHeld) = true ∧ st.front.latch = none) ∧ fetchGives (placed0 0) 0 0 0 = true ∧
    ((State.reset.strand 0).canIssue 0 && !(State.reset.strand 0).aHeld) = false := by decide +kernel

theorem witness_StepKeepsMemory : Memory.wf State.reset.mem ∧ Completes (step State.reset) ∧
    Memory.wf [(3, 1), (4, 255)] ∧ Completes (step (placed 0)) :=
  ⟨reset_wf, ⟨_, rfl⟩, by decide, ⟨_, rfl⟩⟩

/-- Memory with bytes listed; a write of a zero and of two values at one address. -/
theorem witness_MemoryReads : Memory.wf [(3, 1), (4, 255)] ∧ memSetAll [(3, 1), (4, 255)] [(3, 0), (9, 5), (9, 6)] = [(4, 255), (9, 6)] := by
  decide

theorem witness_EveryInstructionCompletes : mayStop .halt = false ∧
    exec (.contextRegister 1) State.reset = .fault .reservedAddress ∧ mayStop (.contextRegister 1) = true := ⟨rfl, rfl, rfl⟩

/-! ### The check -/

def qState (sq : AMap (List (QCell SV))) (vq : AMap (List (QCell VV))) : State :=
  one { st0 with regs := { ready.me.regs with sq := sq, vq := vq } }
def full : QCell SV := .full ⟨9, false⟩

/-- Two pops of one queue, a plain register and a push with room. -/
theorem witness_CheckPasses :
    let s := qState [(3, [full, full])] []
    let i : Instr := .add 3 3 3 false false false 0 false
    predPasses s.me i = true ∧ (∃ st vs, Reads s s.me (opForm i).srcs st vs ∧ ∀ d ∈ (opForm i).dests, roomFor s st d = true) := by
  refine ⟨by decide +kernel, { st0 with regs := ((qState [(3, [full, full])] []).me.regs.setSQ 3 [full]).setSQ 3 [] },
    [SV.toVV ⟨9, false⟩, SV.toVV ⟨9, false⟩], ?_, ?_⟩
  · exact .cons _ _ _ _ _ _ _ (.popS _ 3 full ⟨9, false⟩ [full] (by decide) rfl rfl)
      (.cons _ _ _ _ _ _ _ (.popS _ 3 full ⟨9, false⟩ [] (by decide) rfl rfl) (.nil _))
  · decide +kernel

/-- Second source empty; a vector source empty; a scalar queue with four entries, a vector queue with two. -/
theorem witness_CheckQueueTraps :
    let s := qState [(3, [full, full]), (4, [full, full, full, full])] [(5, [.full VV.zero, .full VV.zero])]
    let i : Instr := .add 4 3 6 false false false 0 false
    let j : Instr := .vadd 5 24 7 false false false 0 false
    predTests s.me i = true ∧ predTests s.me j = true ∧
    (opForm i).srcs = [⟨.s, 3, false⟩] ++ ⟨.s, 6, false⟩ :: [] ∧ s.me.regs.sQ 6 = [] ∧
    (opForm j).srcs = [⟨.v, 24, false⟩] ++ ⟨.v, 7, false⟩ :: [] ∧ s.me.regs.vQ 7 = [] ∧ s.linkTarget 0 7 = false ∧
    (opForm (.movi 4 0)).dests = [] ++ (.s, 4) :: [] ∧ 4 ≤ (s.me.regs.sQ 4).length ∧
    (opForm (.vadd 5 24 25 false false false 0 false)).dests = [] ++ (.v, 5) :: [] ∧ 2 ≤ vTaken s s.me 5 ∧
    mget? s.me.links 5 = none ∧ checkIs s 1 i 2 = true ∧ checkIs s 1 j 2 = true ∧ checkIs s 1 (.movi 4 0) 2 = true := by
  decide +kernel

theorem witness_CheckQueueTraps_reads (s : State) (hq : s.me.regs.sQ 3 = [full])
    (hf : s.me.inFlight (.v 24) = false) :
    (∃ st vs, Reads s s.me [⟨.s, 3, false⟩] st vs) ∧ (∃ st vs, Reads s s.me [⟨.v, 24, false⟩] st vs) ∧
    ∃ st vs, Reads s s.me [] st vs :=
  ⟨⟨_, _, .cons _ _ _ _ _ _ _ (.popS _ 3 full ⟨9, false⟩ [] (by decide) hq rfl) (.nil _)⟩,
    ⟨_, _, .cons _ _ _ _ _ _ _ (.plainV _ 24 false (by decide) hf) (.nil _)⟩, ⟨_, _, .nil _⟩⟩

/-- A raw MODE 0 pattern of one vector, its vector read; unbound; at its end. -/
def strm (pos len : Nat) : Stream :=
  { desc := [0, 0x100000001, 1, 0, 0, 0, 0x100, 0], chain := 0, scale := 0, preds := [], parts := 1, length := len, pos := pos,
    delivered := false, next := 1, planned := 0, rds := [], raw := [(0, vl [7])], rawFlags := [], fault := none }
def strmState (q : Option Stream) : State := one { st0 with streams := q.toList.map (fun q => (0, q)) }

theorem witness_StreamOperand :
    let sc (q : Option Stream) : Scan := { st := (strmState q).me }
    (sc none).st.streamPending 0 = false ∧ mget? (sc none).st.streams 0 = none ∧
    (sc (some (strm 1 1))).st.streamPending 0 = false ∧ mget? (sc (some (strm 1 1))).st.streams 0 = some (strm 1 1) ∧
    (strm 1 1).length ≤ (strm 1 1).pos ∧ (strm 0 1).pos < (strm 0 1).length ∧
    (strm 0 1).banks.any (fun b => (sc (some (strm 0 1))).st.bankPending b) = false ∧
    (match (strm 0 1).read Core.reset 0 (~~~0#64) 0 with
     | .vec .. => true
     | _ => false) = true := by decide +kernel

/-- A false predicate in lane 0; a write in flight; an empty queue. -/
theorem witness_SlotBNotIssued :
    let i : Instr := .add 26 24 25 false false false 1 false
    let j : Instr := .add 26 24 3 false false false 0 false
    classOf i = some .b ∧ checkIs ready 1 i 0 = true ∧
    checkIs (one { ready.me with flights := [busy] }) 1 (.add 26 24 25 false false false 0 false) 1 = true ∧
    checkIs ready 1 j 2 = true := by decide +kernel

theorem witness_SlotBFrame : classOf (.add 26 24 25 false false false 0 false) = some .b ∧
    (∃ g, Passes ready 1 (.add 26 24 25 false false false 0 false) g) ∧
    Completes (exec (.add 26 24 25 false false false 0 false) ready) :=
  ⟨by decide +kernel, (passesB_iff _ _ _).mp (by decide +kernel), ⟨_, rfl⟩⟩

/-- Register 24, the lowest, and 31, the highest. -/
theorem witness_ScalarResultArrives :
    (opForm (.movi 24 0)).dests = [(.s, 24)] ∧ (opForm (.movi 31 0)).dests = [(.s, 31)] ∧ (opForm (.movi 24 0)).kd = none ∧
    (opForm (.movi 24 0)).nf = false ∧ ready.me.flights = [] ∧ ready.me.open_ = [] := by decide +kernel

def flightOf (w : WB) : Flight := { id := 9, seq := 0, slot := 1, due := 5, wbs := [w], flags := 0, caps := [] }
def flightState (w : WB) : State := { one { st0 with flights := [flightOf w] } with clk := 5 }

theorem witness_WriteBackDelivers :
    [WB.s 23 ⟨1, false⟩, .s 24 ⟨1, false⟩, .v 23 VV.zero 0, .v 31 VV.zero 3, .k 0 PV.zero 1, .k 7 PV.zero 1].all (fun w =>
      let s := flightState w
      decide (s.me.flights.find? (fun x => x.id == 9) = some (flightOf w)) && decide ((flightOf w).due ≤ s.clk) &&
        !s.me.blockedWB 0 1 w) = true := by decide +kernel

/-! ### Slot B -/

/-- Every slot-B form that a statement gives a result passes its check in `ready`. -/
theorem witness_slotB : ∀ i ∈ [Instr.add 26 24 25 false false false 0 false, .sub 26 24 25 false false false 0 false,
    .mul 26 24 25 false false false 0 false, .mulh 26 24 25 false false false 0 false, .mulhu 26 24 25 false false false 0 false,
    .div 26 24 25 false false false 0 false, .divu 26 24 25 false false false 0 false, .rem 26 24 25 false false false 0 false,
    .remu 26 24 25 false false false 0 false, .and 26 24 25 false false false 0 false, .or 26 24 25 false false false 0 false,
    .xor 26 24 25 false false false 0 false, .andn 26 24 25 false false false 0 false, .shl 26 24 25 false false false 0 false,
    .shr 26 24 25 false false false 0 false, .sar 26 24 25 false false false 0 false, .rot 26 24 25 false false false 0 false,
    .min 26 24 25 false false false 0 false, .max 26 24 25 false false false 0 false, .minu 26 24 25 false false false 0 false,
    .maxu 26 24 25 false false false 0 false, .clz 26 24 false false 0 false, .ctz 26 24 false false 0 false,
    .popc 26 24 false false 0 false, .mov 26 24 false false 0 false, .bfx 26 24 false 0 63, .bfxu 26 24 false 63 0,
    .bfi 26 24 false 0 63, .sext 26 24 1 false false 0 false, .zext 26 24 63 false false 0 false,
    .sel 26 24 25 false false false 0 false, .movi 26 5, .lea 26 24 false 5, .cmp 26 24 25 false false false 0,
    .fadd 26 24 25 false false false 0 false, .fsub 26 24 25 false false false 0 false, .fmul 26 24 25 false false false 0 false,
    .fma 26 24 25 false false false 0 false, .fdiv 26 24 25 false false false 0 false, .fsqrt 26 24 false false 0 false,
    .fmin 26 24 25 false false false 0 false, .fmax 26 24 25 false false false 0 false, .fcmp 26 24 25 false false false 0,
    .fcvt 26 24 false 6 9 0 false, .vq4nS 26 24 25 false false false, .vext 26 24 false false 63,
    .vred 26 24 0 false false false false 0 false, .vfred 26 24 0 0 false false false 0 false],
    ∃ g, Passes ready 1 i g := all_pass (by decide +kernel)

theorem witness_slotB_vector : ∀ i ∈ [Instr.vadd 26 24 25 false false false 1 true, .vsub 26 24 25 false false false 0 false,
    .vmul 26 24 25 false false false 0 false, .vmulh 26 24 25 false false false 0 false, .vmac 26 24 25 false false false 0 false,
    .vmac2 26 24 0 false false false 0 false, .vdot4 26 24 25 false false false 0 false, .vabs 26 24 false false 0 false,
    .vneg 26 24 false false 0 false, .vmin 26 24 25 false false false 0 false, .vmax 26 24 25 false false false 0 false,
    .vand 26 24 25 false false false 0 false, .vor 26 24 25 false false false 0 false, .vxor 26 24 25 false false false 0 false,
    .vshl 26 24 25 false false false 0 false, .vshr 26 24 25 false false false 0 false, .vsar 26 24 25 false false false 0 false,
    .vshrr 26 24 false 31 false false 0 false, .vsat 26 24 false 31 false false 0 false, .vsel 26 24 25 false false false 0 false,
    .vpopc 26 24 false false 0 false, .vperm 26 24 25 false false false 0 false, .vbcast 26 24 false false 0 false,
    .vins 26 24 false 63, .vunpk 26 24 false false 1 false false 0 false, .vcompr 26 24 25 false false false 0 false,
    .vexpd 26 24 25 false false false 0 false, .vpack 26 24 true false false 3 false false 0 false,
    .vslide 26 24 25 false false true false 2, .vscan 26 24 0 false false false 0 false, .vcmp 1 5 24 25 false false false 0 false],
    ∃ g, Passes ready 1 i g := all_pass (by decide +kernel)

theorem witness_slotB_float : ∀ i ∈ [Instr.vfadd 26 24 25 false false false 0 false, .vfsub 26 24 25 false false false 0 false,
    .vfmul 26 24 25 false false false 0 false, .vfdiv 26 24 25 false false false 0 false, .vfsqrt 26 24 false false 0 false,
    .vfrcp 26 24 false false 0 false, .vfrsq 26 24 false false 0 false, .vfexp2 26 24 false false 0 false,
    .vflog2 26 24 false false 0 false, .vfma 26 24 25 false false false 0 false, .vfnma 26 24 25 false false false 0 false,
    .vfmin 26 24 25 false false false 0 false, .vfmax 26 24 25 false false false 0 false,
    .vscale 26 24 25 false false false 0 false, .vfdot2 26 24 25 false false false 0 false, .vfclass 26 24 false false 0 false,
    .vfcmp 1 0 24 25 false false false 0 false, .vfabs 26 24 false false 0 false, .vfneg 26 24 false false 0 false,
    .vcvt 26 24 false 7 6 0 false, .vcvti 26 24 4 false false false false 0 false, .vcvtf 26 24 4 false false false 0 false,
    .vmxq 26 24 27 false false 0 0, .vq4n 26 24 25 false false false 0, .vcbx 26 24 0 0 false false 0 false,
    .vqnt 26 24 0 false false false 0, .vflgr 26, .vflgc 0x7F 0 false],
    ∃ g, Passes ready 1 i g := all_pass (by decide +kernel)

/-- The operand codes of `VBCAST` at the ends of their ranges; its destination a register and the discard code. -/
theorem witness_VectorBroadcast : decodeFault (.vbcast 0 32 false false 0 false) = some (.illins 2) ∧
    decodeFault (.vbcast 31 47 false false 0 false) = some (.illins 2) ∧
    decodeFault (.vbcast 48 32 false false 0 false) = some (.illins 2) ∧
    decodeFault (.vbcast 31 31 false false 0 false) = none := by decide +kernel

theorem witness_FloatLaws : (fl 0x00000001#32).isNan = false ∧ (fl 0xFF800000#32).isNan = false ∧
    (fl 0x7F800001#32).isNan = true := by decide +kernel

/-- An earlier writer of bank 0 is open, or none; an operation in flight may set flags, or none. -/
def openE (i : Instr) : Entry :=
  { id := 9, seq := 0, slot := 0, pc := 0, instr := i, ext := none, gang := false, frame := false, slip := false, done := false,
    placed := true, live := false, resolved := true, step := 0, aux := 0, x := VV.zero, y := VV.zero, z := [], pred := PV.zero,
    dests := [], caps := [], clk := 0, rds := [], fl := 0, undo := [] }
def later (st : Strand) : Strand := { st with front := { st.front with ctx := ⟨1, 0x40, 0, none, false⟩, seq := 1 } }
def openState (l : List Entry) : State := one { later ready.me with open_ := l }

theorem witness_BanksAndFlags :
    let s := openState [openE (.cbinv 0 48 false true)]
    let f := one { later ready.me with flights := [{ busy with wbs := [.s 26 ⟨0, false⟩] }] }
    ready.me.bankPending 0 = false ∧ s.me.bankPending 0 = true ∧ passesB s 1 (.vcbx 26 24 0 0 false false 0 false) = true ∧
    passesB s 1 (.vqnt 26 24 0 false false false 0) = true ∧ ready.me.flagsSettled 0 1 = true ∧
    f.me.flagsSettled 1 1 = false ∧ passesB f 1 (.vflgr 26) = true ∧ passesB f 1 (.vflgc 1 0 false) = true := by decide +kernel

/-! ### Slot A -/

/-- What decides `PassesA` by evaluation. -/
def passesAB (s : State) (i : Instr) : Bool :=
  match passOf s 0 i with
  | some g => let p := planOf i s.cur g.ain s
              p.trap.isNone && !p.miss && !g.st.openFull i
  | none => false

theorem passesA_of {s : State} {i : Instr} (h : passesAB s i = true) : ∃ g p, PassesA s i g p := by
  unfold passesAB at h
  split at h
  · next g e =>
    simp only [Bool.and_eq_true, Bool.not_eq_true', Option.isNone_iff_eq_none] at h
    exact ⟨g, _, passes_of_passOf e, rfl, h.1.1, h.1.2, h.2⟩
  · cases h

theorem all_passA {s : State} {l : List Instr} (h : l.all (passesAB s) = true) : ∀ i ∈ l, ∃ g p, PassesA s i g p :=
  fun i hi => passesA_of (List.all_eq_true.mp h i hi)

/-- Virtual page 0x10000 at physical 0x20000, readable, writable; s24 and the lanes of v24 point into it, s27 holds the mode
word of `WAITV`, the spill bank has its limit. -/
def leaf : Tlb := ⟨1, 0, 0x10000, 0x20F03, 0, 0⟩
def memSt : Strand := { ready.me with
  ctl := { st0.ctl with splim := 4096 }
  regs := { st0.regs with
    sp := [(24, ⟨0x10000, false⟩), (25, ⟨0, false⟩), (26, ⟨0x4001, false⟩), (27, ⟨0, false⟩)]
    vp := [(24, ⟨vecOf (fun j => BitVec.ofNat 32 (4 * j)), 0⟩), (25, vl [3, 4])] } }
def memState (st : Strand) : State := { one st with cores := [(0, { Core.reset with tlb := [leaf] })] }

theorem witness_SlotAOpens_loads : ∀ i ∈ [Instr.ldB 28 24 false 0, .ldBu 28 24 false 0, .ldH 28 24 false 0,
    .ldHu 28 24 false 0, .ldW 28 24 false 0, .ldWu 28 24 false 0, .ldD 28 24 false 4, .lda 28 24 false 0,
    .vld 28 24 false false 3 false 0 false, .vldn 28 24 false 1 false 3 false 0 false, .vlds 28 24 25 false 2 0 false,
    .vldg 28 24 24 false 2 0 false], ∃ g p, PassesA (memState memSt) i g p := all_passA (by decide +kernel)

def opens : List Instr := [.amo 28 24 25 0 0, .cas 28 24 25 0, .sta 25 24 false 0, .waitv 28 24 27 false false 0 false,
  .mcst 25 24 24 false false, .cbld 0 24 false 0, .cbwr 7 25 25 false false, .cbinv 0 25 false true, .tflush 24 25 false false,
  .tinv 24 25 false false, .schain 24 25 26 false false 0, .spos 25 25 false 0 false, .sunbind 15,
  .spill 24 true 0, .fill 28 true 0, .unpark 28 511]

/-- What decides by evaluation whether slot A waits for something beside its operands. -/
def heldIs (s : State) (i : Instr) (x : Bool) : Bool :=
  match passOf s 0 i with
  | some g => passesAB s i && decide (heldA (planOf i s.cur g.ain s).st i g = x)
  | none => false

theorem heldA_of {s : State} {i : Instr} {x : Bool} (h : heldIs s i x = true) :
    ∃ g p, PassesA s i g p ∧ heldA p.st i g = x := by
  unfold heldIs at h
  split at h
  · next g e =>
    rw [Bool.and_eq_true] at h
    have h1 := h.1
    unfold passesAB at h1
    rw [e] at h1
    simp only [Bool.and_eq_true, Bool.not_eq_true', Option.isNone_iff_eq_none] at h1
    exact ⟨g, _, ⟨passes_of_passOf e, rfl, h1.1.1, h1.1.2, h1.2⟩, of_decide_eq_true h.2⟩
  · cases h

def mcsts : List Entry := List.replicate 16 (openE (.mcst 25 24 24 false false))
/-- A chain word whose one stage takes k1 as its mask, and a write of k1 under way. -/
def chainSt : Strand := { memSt with
  regs := { memSt.regs with sp := [(25, ⟨0x401, false⟩)] }, flights := [{ busy with wbs := [.k 1 PV.zero 1] }] }

/-- Every form opens; a seventeenth multicast stalls, and a chain whose mask is still to be written. -/
theorem witness_SlotAOpens : (∀ i ∈ opens, staysOpen i = true ∧ ∃ g p, PassesA (memState memSt) i g p ∧ heldA p.st i g = false) ∧
    (∃ g p, PassesA (memState { memSt with open_ := mcsts }) (.mcst 25 24 24 false false) g p ∧
      heldA p.st (.mcst 25 24 24 false false) g = true) ∧
    ∃ g p, PassesA (memState chainSt) (.schain 24 25 26 false false 0) g p ∧
      heldA p.st (.schain 24 25 26 false false 0) g = true :=
  ⟨fun i hi => ⟨List.all_eq_true.mp (by decide +kernel : opens.all staysOpen = true) i hi, heldA_of (List.all_eq_true.mp
      (by decide +kernel : opens.all (fun i => heldIs (memState memSt) i false) = true) i hi)⟩,
    heldA_of (by decide +kernel), heldA_of (by decide +kernel)⟩

/-- `PARK` where the park area cannot be had (pinned copies stand in its slots), where it is had at once, and where a slot
before it has still to issue. -/
theorem witness_SlotAOpens_park :
    let i : Instr := .park 24 511
    let late := memState { memSt with front := { st0.front with pairs := [pairOf 0 0], ctx := ⟨1, 0, 0, none, false⟩ } }
    let pinned : Slot := { Slot.empty with v := true, pins := 1 }
    let taken : State := { memState memSt with
      wings := [(0, { Wing.reset with slots := (parkKeys 0).map (fun k => (k, pinned)) })] }
    let waits (s : State) : Option Bool := (passOf s 0 i).map (fun g => g.st.slipped g.st.front.ctx.seq || g.st.parks)
    ((memState memSt).grantPark 0).2 = true ∧ waits (memState memSt) = some false ∧
    (late.grantPark 0).2 = true ∧ waits late = some true ∧
    (taken.grantPark 0).2 = false ∧ passesB taken 0 i = true := by decide +kernel

/-- A stored pair of windows: window 0 of two gibibytes, whose module's number is open to every partition. -/
def winFabric (limit : Nat) : Fabric :=
  { Fabric.reset with active := [(1, 0xC0000041)], windows := [(0, (BitVec.ofNat 64 (2 ^ 63 + 2 ^ 48 + limit * 2 ^ 32 + 2 ^ 21), 0))] }
def winLeaf : Tlb := { leaf with w0 := BitVec.ofNat 64 (windowBase + 0xF03) }
def winState (st : Strand) (limit : Nat) : State :=
  { memState st with cores := [(0, { Core.reset with tlb := [winLeaf] })], fabric := winFabric limit }
def winWrite (seq : Nat) : QWrite :=
  { id := 8, seq := seq, slot := 0, pc := 0, instr := .stB 25 24 false 0, ext := none, x := VV.zero, y := VV.zero, z := [],
    pred := PV.zero, va := 0x10000, pieces := [⟨0x10000, .window 0 1 0, [(0, 1)], false⟩], fl := 0, sfl := 0, peers := [] }

def storeGranted (s : State) (i : Instr) : Option Bool :=
  match passOf s 0 i with
  | some g => let p := planOf i s.cur g.ain s
              if passesAB s i then some (p.st.askAll (.op s.cur g.st.front.ctx.seq)
                (windowsOf ((piecesOf p.rds (writeBytes i g.ain p.rds).1).map Piece.tgt))).2 else none
  | none => none

/-- Every store; one into a window with room, and with its allowance of one in use. -/
theorem witness_StoresIssue : (∀ i ∈ [Instr.stB 25 24 false 0, .stH 25 24 false 0, .stW 25 24 false 0, .stD 25 24 false 4,
    .vst 25 24 false false 3 false 0 false, .vstn 24 24 false 1 false 3 false 0 false, .vsts 25 24 25 false 2 0 false,
    .vstg 25 24 24 false 2 0 false, .cbst 0 24 false 0],
      isStoreOp i = true ∧ passesAB (memState memSt) i = true) ∧
    storeGranted (memState memSt) (.stB 25 24 false 0) = some true ∧
    storeGranted (winState memSt 1) (.stB 25 24 false 0) = some true ∧
    storeGranted (winState { memSt with wq := [winWrite 0] } 1) (.stB 25 24 false 0) = some false := by decide +kernel

/-- Slot A: no write of its operand has come; an empty queue; a tagged address, which its own checks trap; a page that is
not mapped, awaited; 24 operations open. -/
theorem witness_SlotANotIssued :
    let i : Instr := .ldD 28 24 false 0
    let tagged := memState { memSt with regs := { memSt.regs with sp := [(24, ⟨0x10000, true⟩)] } }
    let away := memState { memSt with regs := { memSt.regs with sp := [(24, ⟨0x20000, false⟩)] } }
    let many := memState { memSt with open_ := List.replicate 24 (openE i) }
    isLoadOp i = true ∧ checkIs (memState { memSt with flights := [busy] }) 0 i 1 = true ∧
    checkIs (memState memSt) 0 (.ldD 28 3 false 0) 2 = true ∧
    checkIs (memState memSt) 0 (.vld 28 24 false false 3 false 1 false) 3 = true ∧
    ((passOf tagged 0 i).map (fun g => (planOf i 0 g.ain tagged).trap.map (fun t => t.cause))) = some (some .poison) ∧
    ((passOf away 0 i).map (fun g => ((planOf i 0 g.ain away).trap, (planOf i 0 g.ain away).miss))) = some (none, true) ∧
    ((passOf many 0 i).map (fun g => ((planOf i 0 g.ain many).trap, g.st.openFull i))) = some (none, true) ∧
    checkIs (memState memSt) 0 (.amo 28 3 25 0 0) 2 = true ∧ checkIs (memState memSt) 0 (.stD 25 3 false 0) 2 = true ∧
    checkIs (memState memSt) 0 (.vlds 28 24 25 false 2 1 false) 3 = true := by decide +kernel

/-! ### Open operations of slot A -/

def loadE (i : Instr) (len : Nat) : Entry :=
  { openE i with x := SV.toVV ⟨0x10000, false⟩, dests := [.s 28], rds := [⟨0x10000, .mem 0x20000, len, 0, 0, none, false⟩] }
def perf (e : Entry) : State :=
  { memState { memSt with open_ := [e] } with clk := 4, mem := [(0x20000, 0x80), (0x20001, 1)] }
def canPerform (s : State) (e : Entry) : Bool :=
  decide (s.entry? 0 e.id = some e) && decide (e.slip = false) && decide ((s.strand 0).blockedEntry e = false) &&
    decide ((s.strand 0).mayPerform e = true) && decide (e.clk + 4 ≤ s.clk) && decide (e.caps = [])

/-- Every width; a destination at each end of the plain registers. -/
theorem witness_ScalarLoadReturns :
    ([((.ldB 28 24 false 0 : Instr), 1), (.ldBu 28 24 false 0, 1), (.ldH 28 24 false 0, 2), (.ldHu 28 24 false 0, 2),
      (.ldW 28 24 false 0, 4), (.ldWu 28 24 false 0, 4), (.ldD 28 24 false 0, 8)].all (fun x =>
        let e := loadE x.1 x.2
        canPerform (perf e) e && decide ((ldShape x.1).1 = x.2) && decide (immEa e.instr e.ain = 0x10000) &&
          decide (((perf e).load 0 0x20000 x.2 false).2.1.length = x.2) &&
          (match exec (.loadReturn 0 9 [] false) (perf e) with
           | .next t => decide ((t.strand 0).regs.sP 28 =
               ⟨if x.1 = .ldB 28 24 false 0 then 0xFFFFFFFFFFFFFF80 else if x.2 = 1 then 0x80 else 0x180, false⟩)
           | _ => false))) = true ∧
    ([24, 31].all (fun r => let e := { loadE (.ldD 28 24 false 0) 8 with dests := [.s r] }
                            canPerform (perf e) e)) = true := by decide +kernel

/-- A write that may perform; one behind an outstanding bundle. -/
theorem witness_StorePerforms :
    let q := { winWrite 0 with pieces := [⟨0x10000, .mem 0x20000, [(0, 5)], false⟩] }
    let s := memState { memSt with wq := [q] }
    let late := memState { memSt with wq := [{ q with seq := 1 }], front := { st0.front with pairs := [pairOf 0 0] } }
    let ready (s : State) (q : QWrite) : Bool :=
      !(s.strand 0).slipped q.seq && !(s.strand 0).open_.any (fun e => ordLt e.seq e.slot q.seq q.slot)
    Memory.wf s.mem ∧ (s.strand 0).wq = q :: [] ∧ ready s q = true ∧ q.peers = [] ∧ mget? s.launches 1 = none ∧
    ready late { q with seq := 1 } = false := by decide +kernel

/-- `ADD`, the last operation without a condition, a compare and swap. -/
theorem witness_AtomicPerforms :
    ([(.amo 28 24 25 0 0 : Instr), .amo 28 24 25 8 0, .amo 28 24 25 4 2, .cas 28 24 25 0].all (fun i =>
      canPerform (perf (loadE i 8)) (loadE i 8))) = true ∧ mget? (perf (loadE .nop 8)).launches 1 = none ∧
    ([(8 : BitVec 4)].all (fun o => decide (o.toNat < 9))) = true := by decide +kernel

def oneFill : Fill :=
  { id := 3, tag := ⟨1, 0, 0, 0, 1, 0⟩, set := 0, way := 0, placed := true, minv := 0, hint := 0, bound := bd, waiters := [], started := 0
    planned := false, rds := [], pages := [], tens := ⟨0, [], [], 0, 0, 0, 0, 0⟩, pins := 0, done := false, desc := true, zero := false, hints := [] }
def tileFull : State := { memState memSt with
  wings := [(0, { Wing.reset with replay := List.replicate 64 ⟨.op 1 99, []⟩, fills := [oneFill] })] }

/-- A full replay queue, and requests that wait, of a tile that is not described too; `PREFL` on a
tagged address, an awaited page, an address that is no address, and a mapped one. -/
theorem witness_TilesIssue :
    let ans (s : State) (i : Instr) : Nat := match passOf s 0 i with
      | some g =>
        let p := planOf i 0 g.ain s
        let t0 := (p.st.openOp 0 0 i g.st g.ain.cap false []).modEntry 0 p.st.opId (fun e => { e with fl := flagsA i g })
        if !passesAB s i then 9
        else (match t0.tileReq (wingOf 0) ((s.strand 0).bound.getD bd) (tagOf 1 (refTid g.sb.v) g.sa.v) 0 (refHint g.sb.v)
            (.op 0 p.st.opId) (p.st.pts 0) with
          | (_, .full) => 0
          | _ => 2)
      | none => 9
    let full := tileFull
    let waits := { full with wings := full.wings.map (fun p => (p.1, { p.2 with replay := [] })) }
    ans full (.ldt 28 24 25 false false false 3) = 0 ∧ ans (memState memSt) (.ldt 28 24 25 false false false 3) = 2 ∧
    ans waits (.ldt 28 24 25 false false false 3) = 2 ∧ ans waits (.stt 24 24 25 false false false 3) = 2 ∧
    (let at_ (v : W64) (t : Bool) : Option (Nat × Bool) :=
       let s := memState { memSt with regs := { memSt.regs with sp := [(24, ⟨v, t⟩)] } }
       (passOf s 0 (.prefl 0 24 false 0)).map (fun g => (match s.xlate 0 (g.sa.v + immValue g 0) .load with
         | (_, .miss) => 0
         | (_, .fault ..) => 1
         | (_, .ok ..) => 2, g.sa.t))
     at_ 0 true = some (0, true) ∧ at_ 0x20000 false = some (0, false) ∧ at_ (1#64 <<< 60) false = some (1, false) ∧
       at_ 0x10000 false = some (2, false)) := by decide +kernel

/-- A fence at slip zero and one behind outstanding slots; at its place, with a task unfinished and with none, with a write
unanswered, refused, answered. -/
theorem witness_Fences :
    let f (i : Instr) (p : List Posted) : Strand := { memSt with open_ := [openE i], posted := p }
    let w (a r : Bool) : Posted := ⟨1, 0x10000, 1, 0, some 0, false, a, r⟩
    (memState memSt).me.slipped 0 = false ∧ (memState memSt).me.openFull .fenceP = false ∧
    ({ memSt with front := { st0.front with pairs := [pairOf 0 0] } } : Strand).slipped 1 = true ∧
    ([.fenceO 0, .fenceP, .fenceH, .fenceE].all (fun i => decide ((f i []).oldestFence = some (openE i)) &&
      (f i []).mayPerform (openE i))) = true ∧
    ({ f (.fenceO 0) [] with wq := [{ winWrite 0 with seq := 0, slot := 0 }] } : Strand).mayPerform { openE .fenceP with seq := 1 } =
      false ∧
    (memState (f .fenceE [])).tasksDone 0 = true ∧ (f .fenceP []).fencePReady (openE .fenceP) = true ∧
    (f .fenceP [w false false]).fencePReady (openE .fenceP) = false ∧
    (f .fenceP [w true false]).fencePReady (openE .fenceP) = true ∧ (f .fenceP [w true false]).refusedBefore (openE .fenceP) = none ∧
    (f .fenceP [w false true]).refusedBefore (openE .fenceP) = some (w false true) := by decide +kernel

/-- An `STA` with its translation, ready at its place, that may queue its bytes. -/
theorem witness_Fences_sta :
    let i : Instr := .sta 25 24 false 0
    let e : Entry := { openE i with
      x := SV.toVV ⟨0x10000, false⟩, z := [SV.toVV ⟨5, false⟩], rds := [⟨0x10000, .mem 0x20000, 8, 0, 0, none, false⟩] }
    let s := memState { memSt with open_ := [e] }
    let c := planSta e.instr 0 0 e.ain (s.clearPosted 0 e.id)
    (s.strand 0).oldestFence = some e ∧ (s.strand 0).mayPerform e = true ∧ e.rds ≠ [] ∧ (s.strand 0).fencePReady e = true ∧
    (s.strand 0).refusedBefore e = none ∧ c.verdict = none ∧ c.miss = false ∧
    (c.st.askAll (.op 0 9) (windowsOf ((piecesOf c.rds ((List.range 8).map (fun k =>
      (0x10000 + BitVec.ofNat 64 k, (5 : W64).extractLsb' (8 * k) 8)))).map Piece.tgt))).2 = true ∧
    ({ memSt with open_ := [{ openE .fenceH with id := 9 }] } : Strand).postedSeen (openE .fenceH) = true := by decide +kernel

/-- A vector at the limit and one byte beyond; a `SPILL` and a `FILL` that may perform. -/
theorem witness_SpillBank :
    (let m : AMap (W32 × Bool) := [(3, (1, true)), (9, (2, false))]
     m.Pairwise (fun a b => a.1 < b.1)) ∧
    ¬ (memState memSt).me.ctl.splim.toNat < 3840 + 256 ∧ (memState memSt).me.ctl.splim.toNat < 3841 + 256 ∧
    ([(.spill 24 true 0 : Instr), .fill 28 true 0].all (fun i =>
      let e := { openE i with dests := if i = .fill 28 true 0 then [.v 28] else [] }
      canPerform (perf e) e && ((perf e).strand 0).flights.isEmpty && !((perf e).strand 0).spillBefore e)) = true := by
  decide +kernel

/-- A writer that may retire; one that may not yet. -/
theorem witness_CodebookRetires :
    let ready (s : State) (b : Nat) : List (Nat × Entry) := (coreStrands 0).flatMap (fun n => ((s.strand n).open_.filter (fun e =>
      bankWritten e.instr == some b && s.writerReady n e b)).map (fun e => (n, e)))
    let e := openE (.cbinv 7 50 false true)
    ready (perf e) 7 = [(0, e)] ∧ ready { perf e with clk := 1 } 7 = [] ∧ ready (perf e) 0 = [] := by decide +kernel

/-- A writer that stalled at its issue, its bank held by a reader and free. -/
theorem witness_CodebookRetires_stalled :
    let e := { openE (.cbinv 7 50 false true) with step := writerStalled, resolved := false }
    let held : Bank := { Bank.reset with c0 := { BankCopy.reset with readers := 1 }, c1 := { BankCopy.reset with readers := 1 } }
    let s := perf e
    let h := { s with cores := [(0, { s.core 0 with banks := [(7, held)] })] }
    s.entry? 0 9 = some e ∧ e.dests = [] ∧ bankWritten e.instr = some 7 ∧ e.step = writerStalled ∧
    s.writerStalls 0 e.seq 7 = false ∧ h.writerStalls 0 e.seq 7 = true := by decide +kernel

def waitE : Entry := { openE (.waitv 28 24 27 false false 0 false) with
  x := SV.toVV ⟨0x10000, false⟩, y := SV.toVV ⟨0, false⟩, z := [SV.toVV ⟨0, false⟩], dests := [.s 28]
  rds := [⟨0x10000, .mem 0x20000, 8, 0, 0, none, false⟩] }

/-- A wait that reads now, in memory and in a window before and after its value has returned; one not due, ones due for each
reason; one that has seen a write; one whose value has come. -/
theorem witness_Waitv :
    let at_ (k : Nat) : Entry := { waitE with step := k }
    let win (g : Option (List Byte × Bool)) : Entry := { waitE with rds := [⟨0x10000, .window 0 1 0, 8, 0, 0, g, false⟩] }
    let due (e : Entry) (l : Tlb) : Option Nat := if !canPerform (perf e) e then none
      else
        let s := { perf e with cores := [(0, { Core.reset with tlb := [l] })] }
        let p := (({ st := s } : Plan).poison (e.ain.cap.x.tag 0) 0 0x10000).access 0 0 .load 0x10000 8
        match p.verdict with
        | some _ => some 0
        | none => if p.miss then some 1
          else match (p.rds.map Rd.tgt) with
            | [.mem pa] =>
              if (((p.st.modEntry 0 9 (fun _ => e)).load 0 pa 8 true).1.entry? 0 9).isSome then some 2 else none
            | _ => none
    canPerform (perf waitE) waitE = true ∧ waitE.step = 0 ∧ canPerform (perf (at_ 1)) (at_ 1) = true ∧
    ¬ ((at_ 1).step = 3 ∨ (at_ 1).clk + 4096 ≤ (perf (at_ 1)).clk) ∧
    canPerform (perf (win none)) (win none) = true ∧ canPerform (perf (win (some ([1], false)))) (win (some ([1], false))) = true ∧
    due { at_ 3 with x := SV.toVV ⟨0x10000, true⟩ } leaf = some 0 ∧ due (at_ 3) { leaf with base := 0x30000 } = some 1 ∧
    due (at_ 3) leaf = some 2 ∧
    (let s := { perf (at_ 1) with homes := [(0x200, ⟨5, 0, none⟩)] }
     s.agenda = [] ∧ s.cur8.thermal = false ∧ (s.home (0x20000 / 256)).wts ≠ (at_ 1).aux) ∧
    canPerform (perf (at_ 2)) (at_ 2) = true := by decide +kernel

/-- Streams: none bound, none needed; a pattern in memory that faults (its address is not canonical), waits (its page is away), and
is read: 256 bytes of raw lanes. -/
theorem witness_StreamReads_memory :
    let q (a : W64) : Stream := { strm 0 1 with desc := [a, 0x100000001, 1, 0, 0, 0, 0x100, 0], raw := [] }
    let s (a : W64) : State := memState { memSt with streams := [(0, q a)] }
    let plan (a : W64) : Plan := (({ st := s a } : Plan)).readReg 0 1 (q a).tyField (q a).isRaw (~~~0#64) ((s a).modeOf 0) ((q a).va 0)
    [0x10000#64, 0x20000#64, 1#64 <<< 60].all (fun a => decide (mget? ((s a).strand 0).streams 0 = some (q a)) &&
      !((s a).strand 0).streamPending 0 && decide ((q a).missing ((s a).core 0) = some 0) &&
      decide ((q a).needs ((s a).core 0) = some (0, 0)) && !(q a).isTile && (q a).rds.isEmpty) = true ∧
    (plan (1#64 <<< 60)).verdict.isSome = true ∧ (plan 0x20000).verdict = none ∧ (plan 0x20000).miss = true ∧
    (plan 0x10000).verdict = none ∧ (plan 0x10000).miss = false ∧ (q 0x10000).isRaw = true ∧
    (rdBanks true (plan 0x10000).rds).any (fun b => ((s 0x10000).strand 0).bankPending b) = false ∧
    ((plan 0x10000).st.patternReads 0 0 (plan 0x10000).rds []).2.2 = true ∧
    (match (plan 0x10000).rds with
     | [⟨_, .mem pa, 256, _, _, none, false⟩] => decide (((plan 0x10000).st.load 0 pa 256 false).2.1.length = 256)
     | _ => false) = true ∧
    mget? ((strmState none).strand 0).streams 0 = none ∧ (strm 1 1).missing Core.reset = none := by decide +kernel

/-- A raw pattern in a tile: the tile is away; it is there, and its row is read, lies past the last part, or may not be pinned. -/
theorem witness_StreamReads_tile :
    let g : Tag := ⟨1, 0, 0, 0, 0, 0⟩
    let q (hint cnt : Nat) : Stream := { strm 0 1 with
      desc := [0, BitVec.ofNat 64 (2 ^ 32 + cnt), 1, 0, 0, 0, BitVec.ofNat 64 (0x300 + hint * 2 ^ 17), 0], raw := [], parts := 2
      length := cnt, pos := cnt - 1 }
    let copy : Nat × Slot := (16 * tileSet g, { Slot.empty with
      tag := g, tens := ⟨0x10000, [1, 1, 1, 1], [0, 0, 0], 1, 0, 0, 6, 0⟩, v := true, pages := [leaf] })
    let pinned (k : Nat) : Nat × Slot := (k, { Slot.empty with v := true, pins := 1 })
    let s (l : List (Nat × Slot)) (hint cnt : Nat) : State := { memState { memSt with streams := [(0, q hint cnt)] } with
      wings := [(0, { Wing.reset with slots := l })] }
    let ans (l : List (Nat × Slot)) (hint cnt : Nat) : Nat :=
      let s := s l hint cnt
      let y := q hint cnt
      let j := cnt - 1
      if !(decide (mget? (s.strand 0).streams 0 = some y) && !(s.strand 0).streamPending 0 && decide (y.missing (s.core 0) = some j) &&
          (y.needs (s.core 0)).isSome && y.isTile && y.isRaw) then 9
      else match s.tileReq 0 bd (tagOf 1 0 (y.coords j)) 0 hint (.stream 0 0) (s.pts 0) with
        | (s1, .hit k) => if (y.rowPart j).2 ≠ 0 then 1 else if s1.pinOver 0 (s1.slotOf 0 k) hint then 2 else 3
        | _ => 0
    ans [] 0 1 = 0 ∧ ans [copy] 0 2 = 1 ∧ ans [copy] 0 1 = 3 ∧
    ans (copy :: (List.range 512).map (fun k => pinned (5000 + k))) 3 1 = 2 := by decide +kernel

/-- `SBIND`: behind an outstanding bundle; its descriptor in a window; in memory, malformed, too long, and good. -/
theorem witness_SlotAOpens_sbind :
    let i : Instr := .sbind 28 24 false 0
    let good (w1 w6 : Nat) : List Byte := leBytes 8 0x10000 ++ leBytes 8 w1 ++ leBytes 8 (2 ^ 16) ++ leBytes 24 0 ++ leBytes 8 w6 ++ leBytes 8 0
    let s (st : Strand) (w1 w6 : Nat) : State := { memState st with mem := memSetAll [] (atOffsets 0x20000 (good w1 w6)) }
    let late : Strand := { memSt with front := { st0.front with pairs := [pairOf 0 0], ctx := ⟨1, 0, 0, none, false⟩ } }
    let ans (s : State) : Nat := match passOf s 0 i with
      | none => 9
      | some g =>
        let p := planOf i s.cur g.ain s
        let n := s.cur
        let t1 := (p.st.openOp n 0 i g.st g.ain.cap false p.rds).modEntry n p.st.opId (fun e => { e with aux := p.st.modesNow n })
        if !passesAB s i then 9
        else if g.st.slipped g.st.front.ctx.seq || !g.st.performedBefore g.st.front.ctx.seq 0 then 0
        else if !memOnly p.rds then 1
        else match t1.entry? n p.st.opId with
          | none => 9
          | some e =>
            let (s2, e1, ok) := t1.readStep n e false
            let (bs, m) := bytesAt e1.rds (sbindEa e1.ain) 64
            let y := Stream.bindTo ((List.range 8).map (word64 bs)) 1
            if !(decide (e.instr = i) && e.step == 0 && e.seq == g.st.front.ctx.seq && e.slot == 0 && e.clk == t1.clk &&
              (t1.strand n).bound.isSome && (t1.strand n).performedBefore e.seq 0 && ok && s2.clk == t1.clk &&
              (s2.entry? n e.id).isSome && !m) then 9
            else if y.malformed then 2
            else if y.isTile then 9
            else if 2 ^ 48 ≤ y.total then 3 else 4
    ans (s late (2 ^ 32 + 1) 0x100) = 0 ∧ ans (winState memSt 4) = 1 ∧ ans (s memSt (2 ^ 32 + 1) 1) = 2 ∧
    ans (s memSt (2 ^ 64 - 1) 0x100) = 3 ∧ ans (s memSt (2 ^ 32 + 1) 0x100) = 4 := by decide +kernel

/-! ### Slot C -/

def passesCB (s : State) (i : Instr) : Bool :=
  match passOf s 2 i with
  | some g => decide (poisonC g.a g.b g.c = none)
  | none => false

theorem passesC_of {s : State} {i : Instr} (h : passesCB s i = true) : ∃ g, PassesC s i g := by
  unfold passesCB at h
  split at h
  · next g e => exact ⟨g, passes_of_passOf e, of_decide_eq_true h⟩
  · cases h

def opensCB (s : State) (i : Instr) : Bool :=
  (s.resuming i).isNone && (match passOf s 2 i with
    | some g => decide (poisonC g.a g.b g.c = none) && !g.st.openFull i && ((openedC s i g).resuming i).isSome
    | none => false)

theorem opensC_of {s : State} {i : Instr} (h : opensCB s i = true) : ∃ g e, OpensC s i g e := by
  unfold opensCB at h
  simp only [Bool.and_eq_true, Option.isNone_iff_eq_none] at h
  obtain ⟨h1, h2⟩ := h
  split at h2
  · next g e =>
    simp only [Bool.and_eq_true, Bool.not_eq_true', decide_eq_true_eq, Option.isSome_iff_exists] at h2
    obtain ⟨⟨h3, h4⟩, x, h5⟩ := h2
    exact ⟨g, x, h1, ⟨passes_of_passOf e, h3⟩, h4, h5⟩
  · cases h2

/-- The state in which slot C of a bundle has been open since the clock before. -/
def waitIn (f : Strand → Strand) (i : Instr) (z : List VV) (step : Nat) : State :=
  let e := { openE i with slot := 2, z := z, step := step, dests := [.s 28] }
  let st := f { memSt with open_ := [e] }
  { memState { st with front := { st.front with waitC := some 9 } } with clk := 4 }
def waitOn (i : Instr) : State := waitIn id i [] 0

/-- Every instruction of slot C that acts at once passes its check. -/
theorem witness_RunsC : ∀ i ∈ [Instr.br 0 false 0x3FFFF 4, .brc 24 false 5 0xFFF 0, .call 0 false 1 0, .calli 24 false 0 false,
    .ret 24 false 0 false, .loop 28 0xFFFF 0, .jclr 1, .mxunlk 28 15, .qlink 28 24 false 23, .qdepth 28 0,
    .prchk 28, .tstat 28 7 3 true], ∃ g, PassesC (memState memSt) i g := by
  intro i hi
  exact passesC_of (List.all_eq_true.mp (by decide +kernel : List.all _ (passesCB (memState memSt)) = true) i hi)

def waits : List Instr := [.jt 24 25 26 false false 0 false, .jset 0xFFFF, .jwait true 1, .jwait false 0xFFFF, .semwait 28 15 0xFFF,
  .sempost 28 0 1, .mxlock 28 15, .mxtry 28 0, .qunlink 23, .qflush 0 false, .qflush 23 true, .mfs 28 0x0B, .mts 24 false 0x0C,
  .mtsFlg 24 false, .mtsSrng 24 false, .mtsStatus 24 false, .mtsEpc 24 false, .mtsEcause 24 false, .tlbinv 24 25 false false false,
  .twait 28 25 false 7]

/-- Every instruction of slot C that waits opens, and goes on while it is open. -/
theorem witness_WaitsC : (∀ i ∈ waits, ∃ g e, OpensC (memState memSt) i g e) ∧
    ∀ i ∈ waits, ((waitOn i).resuming i).isSome = true :=
  ⟨fun i hi => opensC_of (List.all_eq_true.mp (by decide +kernel : waits.all (opensCB (memState memSt)) = true) i hi),
    by decide +kernel⟩

/-- No destination, a register, a queue. -/
theorem witness_SlotCResults : destsOf st0 (.jset 1) = [] ∧ destsOf st0 (.qdepth 28 0) = [.s 28] ∧
    destsOf st0 (.qdepth 3 0) = [.s 3] ∧ destsOf st0 (.qdepth 63 0) = [] := by decide +kernel

def jtI : Instr := .jt 24 25 26 false false 0 false
def jtState (i n : W64) : State := waitIn (fun st => { st with open_ := st.open_.map (fun e => { e with
  x := SV.toVV ⟨0x10000, false⟩, y := SV.toVV ⟨i, false⟩ }) }) jtI [SV.toVV ⟨n, false⟩] 0

/-- `LOOP` with and without a bundle fetched behind it; `JT` below its bound, its entry read. -/
theorem witness_ControlFlow :
    (let e := ((jtState 3 4).resuming jtI).getD (openE .nop)
     let pl := ({ st := jtState 3 4 } : Plan).access 0 2 .load (0x10000 + 8 * 3) 8
     (jtState 3 4).resuming jtI = some e ∧ e.yv.toNat < e.zv.toNat ∧ e.xv &&& ~~~7#64 = 0x10000 ∧
       (jtState 3 4).me.performedBefore e.seq e.slot = true ∧ e.rds = [] ∧ pl.trap = none ∧ pl.miss = false ∧
       ((pl.st.modEntry 0 e.id (fun y => { y with rds := pl.rds })).readStep 0 { e with rds := pl.rds } false).2.2 = true) ∧
    (let e := ((jtState 4 4).resuming jtI).getD (openE .nop)
     e.zv.toNat ≤ e.yv.toNat) ∧
    (match exec (.loop 25 1 0) (memState { memSt with front := { st0.front with seq := 1 } }) with
     | .next t => t.me.front.pc
     | _ => 0) = 64 := by decide +kernel

/-! ### Gang mode and the objects of a core -/

def gangSt (on : Bool) : Strand := { memSt with
  front := { st0.front with ctx := ⟨0, 0, 0, none, on⟩, pairs := [pairOf 0 0b0001010_001_0_000000000000000001_000#32] } }
/-- Four strands of one group, none halted or the last; strand 0's `GANG` open. -/
def four (running : Bool) (arrived : AMap Nat) : State :=
  let st := waitOn .gang
  { st with strands := [(0, st.strand 0), (1, st0), (2, st0), (3, { st0 with halted := !running })]
            cores := [(0, { Core.reset with gang := ⟨false, arrived, [], 0⟩ })] }

/-- In and outside gang mode; `GANG` beside a strand that has halted, as the first and as the fourth of four. -/
theorem witness_GangMode :
    let g := four true []
    (one (gangSt true)).ctxOf.gang = true ∧ (one (gangSt false)).ctxOf.gang = false ∧
    opensCB { four false [] with strands := [(0, memSt)] } .gang = true ∧
    ({ four false [] with strands := [(0, memSt)] } : State).gangBroken 0 = true ∧
    ((four false []).resuming .gang).isSome = true ∧ (four false []).gangBroken 0 = true ∧
    (g.resuming .gang).isSome = true ∧ g.gangBroken 0 = false ∧ (mset ([] : AMap Nat) 0 9).length ≠ 4 ∧
    (mset ([(1, 1), (2, 2), (3, 3)] : AMap Nat) 0 9).length = 4 ∧
    (match exec .gang (four true [(1, 1), (2, 2), (3, 3)]) with
     | .next t => decide ((t.core 0).gang = ⟨true, [], [], 5⟩)
     | _ => false) = true ∧
    (match ((one (gangSt true)).strand 0).front.pairs with
     | p :: _ => p.decoded.c
     | [] => .bad (.illins 0)) = .ok (.gbr 1 false 1 0) ∧
    (gangSt true).inFlight (.k 1) = false ∧
    ({ gangSt true with flights := [{ busy with wbs := [.k 1 PV.zero 0] }] } : Strand).inFlight (.k 1) = true := by
  decide +kernel

/-- Accesses outstanding and none; each list of a core's objects empty, short of its count, served; held and free. -/
theorem witness_SharedObjects :
    let sem (n k : Nat) : Core := { Core.reset with sems := [(0, ⟨n, [(0, 9, k)], 0⟩)] }
    let mx (m : Mutex) : Core := { Core.reset with muts := [(15, m)] }
    (memState memSt).me.performedBefore 0 2 = true ∧
    (openState [openE (.ldD 28 24 false 0)]).me.performedBefore 1 2 = false ∧
    ((waitOn (.jwait true 1)).openC 0 (fun i => match i with
      | .jwait .. => true
      | _ => false)).isSome = true ∧
    ((Core.reset.sem 0).waits = []) ∧ ((sem 2 3).sem 0).waits = (0, 9, 3) :: [] ∧ ((sem 2 3).sem 0).count < 3 ∧
    ((sem 3 3).sem 0).waits = [(0, 9, 3)] ∧ 3 ≤ ((sem 3 3).sem 0).count ∧
    (((waitOn (.semwait 28 0 3)).entry? 0 9).map Entry.id) = some 9 ∧
    ((mx ⟨none, [(0, 9)], [], 0⟩).mux 15).holder = none ∧ ((mx ⟨none, [(0, 9)], [], 0⟩).mux 15).waits = (0, 9) :: [] ∧
    ((mx ⟨some 1, [], [(0, 9)], 0⟩).mux 15).holder = some 1 ∧ ((mx ⟨some 1, [], [(0, 9)], 0⟩).mux 15).tries = [(0, 9)] := by
  decide +kernel

/-- No push under way; one not yet due, one due. -/
def linked (due clk : Nat) : State :=
  let p : LinkPush := { id := 9, seq := 0, reg := 5, peer := 1, peerReg := 23, val := vl [1], due := due, pts := 3 }
  { one { st0 with links := [(5, ⟨1, 23, false⟩)], linkPend := [p] } with
    strands := [(0, { st0 with links := [(5, ⟨1, 23, false⟩)], linkPend := [p] }),
      (1, { st0 with bound := some { bd with pos := 1 }, regs := { st0.regs with vq := [(23, [.full (vl [2]), .hole 9])] } })]
    clk := clk }

theorem witness_QueueLinks :
    let push (s : State) : Option Nat := ((s.strand 0).linkPend.filter (fun q => q.reg == 5)).head?.map LinkPush.id
    ((linked 4 4).strand 0).linkPend.filter (fun q => q.reg == 4) = [] ∧ push (linked 4 4) = some 9 ∧
    firstHoleOf (((linked 4 4).strand 1).regs.vQ 23) (((linked 4 4).strand 0).linkIds 5) = some 9 ∧
    (linked 4 3).clk < 4 ∧ ((linked 4 4).strand 0).performedBefore 0 1 = true ∧ 4 ≤ (linked 4 4).clk ∧
    ((linked 4 4).strand 0).slipped 0 = false ∧
    (({ (linked 4 4).strand 0 with front := { st0.front with pairs := [pairOf 0 0] } } : Strand).slipped 1) = true ∧
    (linked 4 4).sameGroup 0 1 = true := by decide +kernel

theorem witness_SystemRegisters : passesB (memState memSt) 2 (.pchk 24 false false) = true ∧
    passesB (memState memSt) 2 (.pchk 24 false true) = true := by decide +kernel

/-! ### Traps and handlers -/

def trapSt (base : W64) (exl : Bool) (fl : List Flight) : State :=
  let t : Trap := { cause := .sysc, slot := 2 }
  one { later st0 with
    ctl := { st0.ctl with trapBase := base, exl := exl }, flights := fl
    front := { (later st0).front with trapping := some (1, 0x40, t) } }

/-- A trap taken at once; one that waits for an earlier write and then is taken; without a handler, and in one. -/
theorem witness_TrapsTaken :
    let t : Trap := { cause := .sysc, slot := 2 }
    passesB (memState memSt) 2 (.trap 24 false 4095) = true ∧ t.rq = false ∧ t.code = none ∧ t.slot ≠ 0 ∧
    (trapSt 0x100 false []).me.ctl.dbgctl.getLsbD 1 = false ∧ (trapSt 0x100 false []).me.front.ctx.seq = 1 ∧
    (trapSt 0x100 false []).me.drainedBefore 1 2 = true ∧ (trapSt 0x100 false [busy]).me.drainedBefore 1 2 = false ∧
    (trapSt 0 false []).me.ctl.trapBase = 0 ∧ (trapSt 0x100 true []).me.ctl.exl = true ∧
    (trapSt 0 false []).me.front.trapping = some (1, 0x40, t) := by decide +kernel

/-- A handler's return with a FRAME entry and with none, a yield, a halt at once and one that waits. -/
theorem witness_LeavingAndHalting :
    let fr := waitIn (fun st => { st with frame := [openE (.ldD 28 24 false 0)] }) .rply [] 1
    let y := waitIn (fun st => { st with ctl := { st.ctl with preq := true } }) .yield [] 0
    let h := waitIn (fun st => { st with flights := [{ busy with seq := 0, slot := 1 }] }) .halt [] 0
    (((waitIn id .rply [] 1).resuming .rply).map Entry.step) = some 1 ∧ (waitIn id .rply [] 1).me.frame = [] ∧
    (waitIn id .rply [] 1).me.open_.any (fun x => x.frame) = false ∧ fr.me.frame.length = 1 ∧
    fr.me.drainedBefore 0 1 = true ∧ fr.me.performedBefore 0 1 = true ∧
    (((waitIn id .eret [] 1).resuming .eret).map Entry.step) = some 1 ∧
    (memState memSt).resuming .yield = none ∧ (memState memSt).me.ctl.preq = false ∧ (y.resuming .yield).isSome = true ∧
    (y.core 0).gang.on = false ∧ y.me.flights = [] ∧ y.me.wq = [] ∧ y.me.open_.all (fun x => x.id == 9) = true ∧
    ((waitOn .halt).resuming .halt).isSome = true ∧ ((waitOn .halt).openC 0 (fun i => decide (i = .halt))).isSome = true ∧
    ((waitOn .halt).me.drainedBefore 0 2 && (waitOn .halt).me.performedBefore 0 2) = true ∧
    (h.me.drainedBefore 0 2 && h.me.performedBefore 0 2) = false := by decide +kernel

/-! ### Tasks -/

/-- A task of a kind, in a phase, by strand 0, with the record words that follow the first. -/
def taskOf (kind : Nat) (phase : TaskPhase) (ran : Bool) (w : List W64) : Task :=
  { uid := 7, qpa := 0x20000, seqno := 0, rec_ := BitVec.ofNat 64 (kind * 2 ^ 56) :: w, strand := 0, wing := 0, bound := bd
    caps := [], copy := BankCopy.reset, rng := 0, fork := 0, phase := phase, flags := 0, ran := ran, fault := none
    cancelled := false, pend := 0, out := [], tiles := [], wrote := [], ops := [], step := 0 }
def tileQ (ret seqno : W64) : TaskQueue := ⟨0x20000, 0, 1, seqno, ret, false, none, 0⟩
def taskState (l : List Task) : State :=
  { memState memSt with tasks := l, tqueues := [tileQ 0 1], clk := 10 }

def qWait (i : Instr) (x y z : W64) (step : Nat) (aux : W64) : State :=
  let s := waitIn (fun st => { st with open_ := st.open_.map (fun e => { e with
    x := SV.toVV ⟨x, false⟩, y := SV.toVV ⟨y, false⟩, aux := aux }) }) i [SV.toVV ⟨z, false⟩] step
  { s with tqueues := [tileQ 0 0] }

/-- `TENQ` into an attached queue with room; `TWAIT` looked at again; `TCANCEL` whose tasks are over; the last step of
`LAUNCH`; `PGPASS` of a page that nothing writes. -/
theorem witness_StrandTasks :
    let en (i : Instr) (s : State) : Entry := (s.resuming i).getD (openE .nop)
    (let i : Instr := .tenq 28 24 25 false false
     let s := qWait i 0 0x10000 0 1 0
     let (s1, q) := s.queuePa 0 (en i s) ((en i s).yv &&& ~~~63#64)
     let (_, ok) := s1.oneWrite 0 (en i s) (0x10000 + 64) (leBytes 64 0)
     (s.resuming i).isSome = true ∧ s.me.bound = some bd ∧ s.me.performedBefore 0 2 = true ∧ (en i s).step ≠ 0 ∧
       q = some 0x20000 ∧ s1.tqueue? 0x20000 = some (tileQ 0 0) ∧ (tileQ 0 0).wing = wingOf 0 ∧
       (tileQ 0 0).seqno - (tileQ 0 0).ret ≠ 64 ∧ recWaits [] 0 = [] ∧ bankOpnd [] = none ∧ ok = true) ∧
    ((waitOn (.twait 28 25 false 7)).openC 0 (fun i => match i with
      | .twait .. => true
      | _ => false)).isSome = true ∧
    (let i : Instr := .tcancel 28 24 25 false false
     let s := qWait i 0x10000 0 5 1 0
     let (s1, q) := s.queuePa 0 (en i s) ((en i s).xv &&& ~~~63#64)
     (s.resuming i).isSome = true ∧ s.me.performedBefore (en i s).seq (en i s).slot = true ∧ q = some 0x20000 ∧
       s1.tqueue? 0x20000 = some (tileQ 0 0) ∧ (tileQ 0 0).wing = wingOf 0 ∧ s1.tasks = [] ∧ (en i s).step ≠ 0) ∧
    (let i : Instr := .tcancel 28 24 25 false false
     let s := { qWait i 0x10000 0 5 0 0 with tasks := [taskOf 6 .queued false []] }
     let (s1, q) := s.queuePa 0 (en i s) ((en i s).xv &&& ~~~63#64)
     (en i s).step = 0 ∧ q = some 0x20000 ∧ (s1.tqueue? 0x20000).isSome = true ∧ s1.tasks.length = 1) ∧
    (let i : Instr := .launch 28 24 25 false false
     let s := qWait i 0 0x10000 0 6 0
     (s.resuming i).isSome = true ∧ (en i s).step = 6 ∧ s.me.posted = [] ∧
       (s.oneWrite 0 (en i s) ((en i s).yv &&& ~~~63#64 + 8) (leBytes 8 1)).2 = true) ∧
    (let i : Instr := .pgpass 28 24 25 false false false 1 false
     let s := qWait i 0x10000 0x10000 0 1 0
     let pg := unpackTlb (((en i s).z.drop 1).headD VV.zero)
     (s.resuming i).isSome = true ∧ (en i s).step = 1 ∧ s.writePending 9 pg.page = false ∧ s.taskPending pg.page = false ∧
       (s.writeBackAll (fun x => x.touches pg.page)).2 = none) := by decide +kernel

def ranIs (r : Ran) : Nat := match r with
  | .done .. => 0
  | .fault .. => 1
  | .again .. => 2

/-- A wing whose TLB maps a page into window 0 and the next one into memory. -/
def cbarState : State := { taskState [] with
  fabric := winFabric 4, wings := [(0, { Wing.reset with tlb := [winLeaf, { leaf with base := 0x11000 }] })] }

/-- A due task of each kind; one that is done, ones whose tiles are not there; an engine that multiplies 4-bit integers. -/
theorem witness_TileTasks :
    ([1, 2, 3, 4, 5, 6, 7, 8, 9, 10, 11, 12, 13, 14, 15, 16].all (fun k =>
      let t := taskOf k (.dispatched 12) false []
      decide ((taskState [t]).task? 7 = some t) && t.dispatched && !t.ran && decide (t.kind = k))) = true ∧
    ranIs (runWpre (taskOf 3 (.dispatched 12) false []) (taskState [])) = 2 ∧
    ranIs (runDrain (taskOf 5 (.dispatched 12) false []) (taskState [])) = 2 ∧
    (taskOf 5 (.dispatched 12) false []).fault = none ∧
    ({ taskOf 5 (.dispatched 12) false [] with fault := some { cause := .memue } } : Task).fault.isSome = true ∧
    ranIs (runCbar (taskOf 16 (.dispatched 12) false [0, 0x10000, 0x11000, 1]) cbarState) = 0 ∧
    (EFmt.ofCode 17).int? = some 4 := by decide +kernel

/-- A valid copy of tile 0 of tensor `tid`, of one element, on the mapped page. -/
def copyAt (tid fmt sck : Nat) : Nat × Slot :=
  let g : Tag := ⟨1, tid, 0, 0, 0, 0⟩
  (16 * tileSet g, { Slot.empty with
    tag := g, tens := ⟨0x10000, [1, 1, 1, 1], [0, 0, 0], 1, 0, sck, fmt, 0⟩, v := true, pages := [leaf] })
/-- Operands: tile 0 of tensor 0 and of tensor 1; of `CBAR` a counter in a window and one in memory, of `ITIN` a list. -/
def tileTask (k : Nat) : Task := { taskOf k (.dispatched 12) false [] with
  rec_ := [BitVec.ofNat 64 (k * 2 ^ 56), 0, if k = 16 then 0x12000 else if k = 11 then 0x10000 else 0,
    if k = 16 then 0x10000 else 0, 0, if k = 16 then 0 else 0x0010000000000000]
  bound := { bd with ttbase := 0x10000, ttcount := 2 } }
/-- The task beside both copies, formats and scale kinds as given, and an engine with its active weights; memory describes
tensor 1 at a page that leads into window 0. -/
def tilesState (k wt fx sx fy sy : Nat) : State := { one st0 with
  tasks := [tileTask k], clk := 10, fabric := winFabric 4
  mem := memSetAll [] (atOffsets 0x20040 (leBytes 8 0x12000 ++ leBytes 8 (2 ^ 32 + 1) ++ leBytes 8 (2 ^ 32 + 1) ++ leBytes 24 0 ++
    leBytes 8 (2 ^ 63 + fy)))
  wings := [(0, { Wing.reset with
    slots := [copyAt 0 fx sx, copyAt 1 fy sy], tlb := [leaf, { winLeaf with base := 0x12000, w1 := 0x6000 }]
    engines := [(0, { Engine.reset with act := { Buf.reset with wt := wt, ke := 256 } })] })] }
def xTags (k : Nat) : List Tag := (opnd (tileTask k).rec_ 0).tags 1 1
def yTags (k : Nat) : List Tag := (opnd (tileTask k).rec_ 1).tags 1 1
/-- The copies that the task would write. -/
def prepared (s : State) (k : Nat) (l : List Tag) : List (Nat × Slot) := match s.prepWrites (tileTask k) l with
  | .ok _ l => l
  | _ => []
def readable (s : State) (k : Nat) : List (Nat × Slot) := (s.tilesAt (tileTask k) (xTags k)).getD []
def isDue (s : State) (k : Nat) : Bool :=
  decide (s.task? 7 = some (tileTask k)) && (tileTask k).dispatched && !(tileTask k).ran && decide ((tileTask k).kind = k)

/-- A task of each kind that completes, at the formats of the narrowest row of its table. -/
theorem witness_TileTasks_complete :
    (let s := tilesState 3 0 2 0 6 0
     isDue s 3 = true ∧ (readable s 3).length = 1 ∧ fmtCb 2 = false ∧ weightType 2 0 0 = 2 ∧ weightKe 2 0 = 256 ∧
       (copyAt 0 2 0).2.tens.e = 256 ∧ recAr (tileTask 3).rec_ = 0) ∧
    (let s := tilesState 1 2 2 0 6 0
     isDue s 1 = true ∧ (readable s 1).map (fun y => y.2.tens.fmt) = [2] ∧ acceptsA 2 256 2 0 = true ∧
       (s.engineOf (tileTask 1)).act.ke = 256) ∧
    (let s := tilesState 2 9 9 1 6 0
     isDue s 2 = true ∧ (readable s 2).map (fun y => (y.2.tens.fmt, y.2.tens.sck)) = [(9, 1)] ∧ acceptsA 9 256 9 1 = true ∧
       (copyAt 0 9 1).2.tens.e = 256) ∧
    (let s := tilesState 5 0 6 0 6 0
     isDue s 5 = true ∧ (prepared s 5 (xTags 5)).length = 1 ∧ drainFmtOk 0 6 = true) ∧
    (let s := tilesState 5 0 2 0 6 0
     isDue s 5 = true ∧ ranIs (runDrain (tileTask 5) s) = 1) ∧
    (let s := tilesState 8 0 6 0 6 0
     isDue s 8 = true ∧ (prepared s 8 (xTags 8)).map (fun y => tsetOk (tileTask 8).rec_ y.2.tens) = [true]) ∧
    [7, 9, 10].all (fun k => let s := tilesState k 0 6 0 6 0
      isDue s k && decide ((prepared s k (yTags k)).length = 1) && decide ((readable s k).length = 1)) = true ∧
    redFmt 6 = true ∧ (copyAt 0 6 0).2.tens.w = 32 ∧ 0 < (copyAt 0 6 0).2.tens.e := by decide +kernel

theorem witness_TileTasks_complete_transfers :
    (let s := tilesState 12 0 6 0 6 0
     isDue s 12 = true ∧ (readable s 12).length = 1 ∧ s.copiesOf (fun y => y.dirty) = []) ∧
    (let s := tilesState 13 0 6 0 2 1
     isDue s 13 = true ∧ (prepared s 13 (yTags 13)).length = 1 ∧ s.kvqWide (tileTask 13) = 1 ∧ (readable s 13).length = 1 ∧
       kvqFormatOk 2 1 0 = true ∧ fmtCb 2 = false) ∧
    [14, 15].all (fun k => let s := tilesState k 0 6 0 6 0
      isDue s k && decide ((readable s k).length = 1) && (match s.windowTile (tileTask k) ⟨1, 1, 0, 0, 0, 0⟩ with
        | (_, .ok y) => y.tens.fmt == 6 && y.tens.sck == 0 && y.tens.cbk == 0
        | _ => false)) = true ∧
    (let s := tilesState 16 0 6 0 6 0
     isDue s 16 = true ∧ (match s.barPlaces (tileTask 16) with
       | (_, .ok _) => true
       | _ => false) = true) ∧
    (let s := tilesState 11 0 6 0 6 0
     isDue s 11 = true ∧ (match s.readList (tileTask 11) 0x10000 1 [] 0 with
       | (_, .ok (l, _)) => l.all (fun o => !Opnd.passes o (Opnd.n0 o))
       | _ => false) = true) ∧
    isDue (tilesState 4 0 6 0 6 0) 4 = true ∧ isDue (tilesState 6 0 6 0 6 0) 6 = true := by decide +kernel

/-- A fill whose pair of format and scale kind is forbidden while it is not planned; one that has no bytes to read. -/
def aFill (planned : Bool) : Fill :=
  { oneFill with planned := planned, tens := { oneFill.tens with sck := if planned then 0 else 3 } }
def fillState (planned : Bool) : State := { taskState [] with wings := [(0, { Wing.reset with fills := [aFill planned] })] }
/-- A fill of a tile on a page that is not translated. -/
def awayFill : Fill := { oneFill with tens := ⟨0x50000, [1, 1, 1, 1], [0, 0, 0], 1, 0, 0, 6, 0⟩ }

/-- A task that is granted; a wing with none; tasks that end, fault, are not over; a queue that is idle and one that is
not; a fill that fails and one whose reads are there. -/
theorem witness_TaskLifecycle :
    (let t := taskOf 6 .queued false []
     let s := taskState [t]
     let o : Offer := ⟨t.bound.qnum, t.bound.lid, t.qpa, Nat.min (s.nominal t) 16384, t.uid⟩
     let arb := (s.wing 0).docent.enter [t.bound.qnum]
     let (s1, t1) := (s.modWing 0 (fun g => { g with docent := arb })).takeUp t
     let (s2, r) := s1.askTiles t1
     let u1 := (s2.modWing 0 (fun g => { g with docent := arb.grant (s.tickets o.q) o })).dispatchTask t1
     s.eligible t = true ∧ s.docentHeld 0 = false ∧
       (match r with
        | .ready => true
        | _ => false) = true ∧ u1.tasks.all (fun x => u1.eligible x == false) = true) ∧
    (taskState []).tasks = [] ∧
    (let t := taskOf 6 (.dispatched 10) true []
     let s := taskState [t]
     s.task? 7 = some t ∧ t.ops = [] ∧ t.out = [] ∧ t.pend = 0 ∧ 10 ≤ s.clk ∧ t.kind ≠ 11 ∧ t.fault = none ∧ s.saved = [] ∧
       (s.strand 0).bound.any (fun b => b.lid == 1 && b.grp == 0) = true ∧ s.clk < 11) ∧
    ((taskState []).tqueue? 0x20000 = some (tileQ 0 1)) ∧ (tileQ 0 1).seqno ≠ (tileQ 0 1).ret ∧
    (tileQ 0 0).seqno = (tileQ 0 0).ret ∧ (tileQ 0 0).stop = false ∧
    (let find (b : Bool) : Option Fill := ((fillState b).wing 0).fills.find? (fun f => f.id == 3 && !f.done && f.placed && !f.zero)
     find false = some (aFill false) ∧ find true = some (aFill true) ∧ (aFill true).desc = true) ∧
    (let ans (b : Bound) : Nat := match (fillState false).tileDesc b 0 oneFill.tag 0 .poison with
       | (_, .bad _) => 0
       | (_, .wait) => 1
       | _ => 2
     ({ aFill false with desc := false } : Fill).desc = false ∧ ans bd = 0 ∧ ans { bd with ttbase := 0x50000, ttcount := 2 } = 1) ∧
    ((fillState false).planFill 0 bd oneFill.tag (aFill false).tens).plan.verdict.isSome = true ∧
    ((taskState []).planFill 0 bd ⟨1, 0, 0, 0, 0, 0⟩ awayFill.tens).plan.verdict = none ∧
    ((taskState []).planFill 0 bd ⟨1, 0, 0, 0, 0, 0⟩ awayFill.tens).plan.miss = true ∧
    ((fillState true).windowReads (.fill 0 3) 0 [] []).2.2 = true ∧
    (fillState true).sliceFull oneFill.tag oneFill.slice = false ∧ ((fillState true).wing 0).find oneFill.tag = none ∧
    ((taskState []).wing 0).fills = [] := by decide +kernel

/-! ### The fabric and the host -/

/-- The module is number 5 and knows module 1, whose entry has a partition or none. -/
def fabState (part : Nat) (p : PairDst) : State :=
  { memState memSt with fabric := { Fabric.reset with
      own := some 5, active := [(1, BitVec.ofNat 32 (0xC0000041 + part * 2 ^ 17))], dst := [(1, p)] } }
def pair0 : PairDst := ⟨3, [], 0, 0, 0, []⟩

/-- Packets for another module, of another epoch; the expected number, refused and not, of each kind, inside module memory
and outside; ahead within and beyond the window; behind; an acknowledgement owed and none. -/
theorem witness_RequestsArrive :
    let f := (fabState 0 pair0).fabric
    let ahead (n : Nat) : Nat := (n + 2 ^ 32 - (f.pairDst 1).expected % 2 ^ 32) % 2 ^ 32
    f.own = some 5 ∧ idEpoch (f.entry 1) = 0 ∧ some 4 ≠ f.own ∧ (1 : Nat) ≠ idEpoch (f.entry 1) ∧
    ahead 3 = 0 ∧ ahead 4 = 1 ∧ ahead 4098 = 4095 ∧ ahead 4099 = 4096 ∧ ahead 2 = 2 ^ 32 - 1 ∧
    ahead 2147483650 = 2 ^ 31 - 1 ∧ ahead 2147483651 = 2 ^ 31 ∧
    f.refuses 1 9 = false ∧ (fabState 9 pair0).fabric.refuses 1 8 = true ∧ (fabState 9 pair0).fabric.refuses 1 9 = false ∧
    pktKindOf 0 = some .store ∧ pktKindOf 2 = some (.mcst []) ∧
    pktKindOf (PktKind.mcst [(7, 9)]).code = some (.mcst [(7, 9)]) ∧ pktKindOf 3 = some .add ∧ pktKindOf 7 = none ∧
    pktInside .add 0x20000 [] = true ∧ f.hop 1 = some ⟨false, 1⟩ ∧ f.hop 7 = none ∧ (63 : Nat) + 1 = 64 ∧ pktKindOf (4 + 8 * 8) = some (.load 8) ∧
    pktKindOf 5 = some (.atomic 0) ∧ pktInside .store 0x20000 [(0, 1)] = true ∧
    pktInside .store 0x018000000000 [(0, 1)] = false ∧ pktInside (.load 8) 0x017FFFFFFFF8 [] = true ∧
    pktInside (.load 8) 0x017FFFFFFFF9 [] = false ∧ pair0.unackedN = 0 ∧
    ({ pair0 with owed := 1 } : PairDst).owed ≠ 0 ∧ pair0.owed = 0 ∧
    ([⟨4, 0, 0, 0, 0, []⟩] : List HeldPkt).any (fun x => x.seqno == 4) = true := by
  decide +kernel

def pkt (n : Nat) (k : PktKind) : Packet := ⟨n, 0x10000, k, 0x20000, [(0, 1)], 0, .op 0 9, some 0, true, false⟩
def srcState (l : List Packet) (rep : Bool) (clk : Nat) : State :=
  { fabState 0 pair0 with clk := clk, fabric := { (fabState 0 pair0).fabric with src := [(1, ⟨6, l, 0, rep⟩)] } }

/-- Nothing covered; a store covered; a pair 65,535 and 65,536 clocks without an advance, and 2^24, reported and not; a link
that failed. -/
theorem witness_RetainedRequests :
    let covered (c : Nat) (k : Packet) : Bool := decide ((c + 2 ^ 32 - k.seqno) % 2 ^ 32 < 2 ^ 31)
    let stale (s : State) (n : Nat) : Bool :=
      let p := s.fabric.pairSrc 1
      p.unacked.any (fun k => !k.back) && !idHold (s.fabric.entry 1) && decide (p.advanced + n ≤ s.clk)
    let s (clk : Nat) := srcState [pkt 4 .store, pkt 5 (.load 8)] false clk
    ((s 0).fabric.pairSrc 1).unacked.filter (covered 3) = [] ∧
    ((s 0).fabric.pairSrc 1).unacked.filter (covered 4) = [pkt 4 .store] ∧
    ((s 0).fabric.pairSrc 1).unacked.filter (covered 5) = [pkt 4 .store, pkt 5 (.load 8)] ∧
    (pkt 4 .store).kind.returns = false ∧ (pkt 5 (.load 8)).kind.returns = true ∧ (pkt 4 .store).who = .op 0 9 ∧
    stale (s 65535) 65536 = false ∧ stale (s 65536) 65536 = true ∧ (s 0).fabric.hop 1 = some ⟨false, 1⟩ ∧
    some 1 ≠ (s 0).fabric.own ∧ stale (s 16777215) 16777216 = false ∧ stale (s 16777216) 16777216 = true ∧
    ((srcState [] true 0).fabric.pairSrc 1).reported = true ∧ (false, 3) ∉ (s 0).fabric.failedLinks := by decide +kernel

/-- Indices at the ends of their ranges; an image inside module memory, and one byte beyond. -/
theorem witness_IdentityAndTakeover : (32767 : Nat) < 2 ^ 15 ∧ 2 ^ 15 ≤ (32768 : Nat) ∧ (63 : Nat) < 64 ∧ 64 ≤ (64 : Nat) ∧
    idEn 0xC0000041 = true ∧ (1 : Nat) ∉ (fabState 0 pair0).fabric.enabled ∧
    ([(0x017FFFFFFFFF, (1 : Byte))].all (fun b => inModule b.1 1)) = true ∧
    ([(0x018000000000, (1 : Byte))].all (fun b => inModule b.1 1)) = false ∧
    ([(3, (1 : W32)), (2, 1)] : List (Nat × W32)).Pairwise (fun a b => a.1 ≠ b.1) ∧
    ([(3, 1, 2), (2, 4, 5)] : List (Nat × Nat × Nat)).Pairwise (fun a b => a.1 ≠ b.1) := by decide +kernel

/-- Ranges in host memory at its two ends, and across them; in module memory up to its last byte, and beyond. -/
theorem witness_HostAndClock :
    (paKind hostBase = .host ∧ paKind (hostBase + 8 - 1) = .host) ∧ ¬ (paKind (hostBase - 1) = .host) ∧
    paKind (windowBase - 1) = .host ∧ ¬ (paKind windowBase = .host) ∧
    (∀ p ∈ (memState memSt).wings, ∀ k ∈ p.2.slots, k.2.dirty = false) ∧
    0x017FFFFFFFF8 + 8 ≤ 0x018000000000 ∧ ¬ (0x017FFFFFFFF9 + 8 ≤ 0x018000000000) ∧
    (mget? (memState memSt).strands 0).isSome = true := by decide +kernel

/-! ### Launches -/

/-- Launch queue 0, its page at virtual 0 and physical 0x20000 with the pointers given; the walk cache of die 0 holds the
way to it. -/
def lq : LaunchQueue := ⟨0, 0, 0x1000, 1, false, [], []⟩
def aLaunch (w6 : W64) : Launch :=
  { lid := 1, qnum := 0, rec_ := [0, 0, 0, 0, 0, 0, w6, BitVec.ofNat 64 (2 ^ 40 + 2 ^ 5)], rejected := false, cancelled := false
    pts := 0, ff := none, rstLost := false, started := false, plive := false, refusedW := false, uerr := false, uecnt := 0
    uepa := 0, relaunch := 0, log := [], recordStage := 0 }
def lState (resv tail head : Nat) (q : LaunchQueue) (l : AMap Launch) (p : AMap BindRec) : State :=
  { State.reset with
    lqueues := [(0, q)], launches := l, placement := p
    mem := memSetAll [] (atOffsets 0x20000 (leBytes 8 resv ++ leBytes 8 tail ++ leBytes 8 head))
    dies := [(0, { Die.reset with walk := [⟨0, 4, 0, 0, 1, 0⟩, ⟨0, 3, 0, 0, 1, 0⟩, ⟨0, 2, 0, 0, 1, 0⟩, ⟨0, 1, 0, 0, 1, 0⟩,
      ⟨0, 0, 0, 0, 0x20F03, 0⟩] })] }
def bindWord (start smask : Nat) : W64 × W64 :=
  (BitVec.ofNat 64 start, BitVec.ofNat 64 (2 ^ 63 + 2 ^ 60 + 2 ^ 48 + smask * 2 ^ 20))

/-- A queue with a record to accept, with a slot to skip and one not, and with a skipped slot at its head. -/
theorem witness_LaunchQueues :
    (let s := lState 3 1 0 lq [] []
     let (s1, r) := s.queueHead lq
     s.freeHandle = some 0 ∧ lq.failed = false ∧ s.cur8.recovery = false ∧
       (r.map (fun x => (x.2.resv, x.2.tail, x.2.head, x.2.logsz))) = some (3, 1, 0, 0) ∧
       lq.skips.contains 0 = false ∧ lq.skips.length < 16 ∧ s1.frontClosed (ctxSpace [] 0) (lq.qbase + 16) = false ∧
       s1.frontClosed (ctxSpace [] 0) (lq.qbase + 8) = false ∧ (List.replicate 16 (0 : W64)).length = 16 ∧
       (match s1.frontGet (ctxSpace [] 0) (lq.slotVa 0 0) 64 with
        | (s2, .ok _) => (s2.frontPut (ctxSpace [] 0) (lq.qbase + 16) (leBytes 8 1)).2
        | _ => false) = true ∧ (s1.frontPut (ctxSpace [] 0) (lq.qbase + 8) (leBytes 8 2)).2 = true) ∧
    (let q := { lq with skips := [0] }
     let (s1, r) := (lState 3 1 0 q [] []).queueHead q
     q.skips.contains 0 = true ∧ q.waitSkips = [] ∧ s1.frontClosed (ctxSpace [] 0) (q.qbase + 16) = false ∧ (r.map (fun x => decide (x.2.head < x.2.tail))) = some true ∧
       (s1.frontPut (ctxSpace [] 0) (q.qbase + 16) (leBytes 8 1)).2 = true) ∧
    mget? (lState 0 0 0 lq [] []).lqueues 1023 = none ∧ (64 : Nat) % 64 = 0 ∧ 0x017FFFFFFFC0 + 64 ≤ 0x018000000000 ∧
    0x018000000000 < 0x018000000000 + 64 := by decide +kernel

/-- Queue 0 with slots to skip, the page of its header closed. -/
def closedState : State :=
  let s := lState 3 1 0 lq [] []
  { s with cur8 := { s.cur8 with closed := [(0x20000, 4096, 0)] } }

/-- A skip where the page of TAIL is closed; no skipped slot at the head and no skip that waits; host and packet writes to the closed
page. -/
theorem witness_closedPage :
    (closedState.queueHead lq).2.map (fun x => (x.2.resv, x.2.tail, x.2.head)) = some (3, 1, 0) ∧
    (closedState.queueHead lq).1.frontClosed (ctxSpace [] 0) (lq.qbase + 8) = true ∧
    lq.failed = false ∧ lq.skips.contains 0 = false ∧ lq.waitSkips = [] ∧
    closedState.closedAt 0x20007 = true ∧ closedState.closedAt 0x21000 = false ∧
    (fabState 9 pair0).fabric.refuses 1 9 = false ∧ ({ fabState 9 pair0 with cur8 := closedState.cur8 } : State).closedAt 0x20007 = true ∧
    pktKindOf 7 = none ∧ (15 : Nat) % 8 = 7 ∧ (14 : Nat) % 8 ≠ 7 := by decide +kernel

/-- Each refusal of a form, a bind refused for its time, one accepted, a cancel of a live and of an unknown launch. -/
theorem witness_CommandPort :
    let s := lState 0 0 0 lq [(1, aLaunch 0)] []
    let w (op lid : Nat) : W64 := BitVec.ofNat 64 (op * 2 ^ 62 + lid)
    ((w 1 0).extractLsb' 12 50 = 0 ∧ ((w 1 0).extractLsb' 62 2).toNat = 1 ∧ ((w 1 0).extractLsb' 0 12).toNat = 0) ∧
    ((w 2 1).extractLsb' 62 2).toNat = 2 ∧ ((w 2 1).extractLsb' 0 12).toNat = 1 ∧ ((w 0 0).extractLsb' 62 2).toNat = 0 ∧
    ((w 3 0).extractLsb' 62 2).toNat = 3 ∧ ((w 1 5).extractLsb' 0 12).toNat ≠ 0 ∧ (w 1 4096).extractLsb' 12 50 ≠ 0 ∧
    s.bindCause 2048 (bindWord 2048 15).2.toNat = 0 ∧ s.bindCause 2047 (bindWord 2047 15).2.toNat = 2 ∧
    mget? s.placement 0 = none ∧ mget? s.launches 1 = some (aLaunch 0) ∧ (aLaunch 0).rejected = false ∧
    s.allEnded 1 (aLaunch 0) = false ∧ mget? s.launches 0 = none ∧ s.placement.length < 2048 := by decide +kernel

def bindRec (prepared res : Bool) : BindRec :=
  { start := 0, level := 1, lid := 1, grp := 0, smask := 15, unit := 0, res := res, uid := 5, prepared := prepared }
def aGroup (ph : GroupPhase) : Group := ⟨1, 0, [0, 1, 2, 3], ph, false, none⟩
/-- A launch that names bank 0, its image at an address. -/
def imaged (a : W64) : Launch :=
  { aLaunch 0 with rec_ := [0, 0, 0, 0, 0, a, 0, BitVec.ofNat 64 (2 ^ 40 + 2 ^ 32 + 2 ^ 5)] }
def gState (b : BindRec) (gs : List Group) (w6 : W64) : State :=
  { lState 0 0 0 lq [(1, aLaunch w6)] [(0, b)] with groups := gs }

/-- A record not prepared, with no image and with one that cannot be had (its page is not mapped); one due, with its core
fresh, with its images and without. -/
theorem witness_GroupsAndLaunches :
    (let s := gState (bindRec false false) [] 0
     let (s1, cw) := s.readCtx ((s.ctxPaOf 1).getD 0)
     let b := bindRec false false
     let plan (l : Launch) : Plan := s1.planImages l (boundOf l cw b.grp 0) (wingOf (b.strands.headD 0))
     mget? s.placement 0 = some b ∧ mget? s.placement 2047 = none ∧ mget? s.launches 1 = some (aLaunch 0) ∧
       b.planned = false ∧ bitsN (recWord (aLaunch 0).rec_ 7) 39 32 = 0 ∧ s1.placement = s.placement ∧
       (plan (aLaunch 0)).verdict = none ∧ (plan (aLaunch 0)).miss = false ∧
       (plan (imaged 0x8000000000000000)).verdict.isSome = true ∧
       (plan (imaged 0x8000000000000000)).st.placement = s.placement ∧
       ((plan (aLaunch 0)).st.windowReads (.prep 5) (ctxPart cw) [] []).2.2 = true ∧
       (match loadBanks (aLaunch 0) [] with
        | .ok m => decide (m = [])
        | _ => false) = true) ∧
    (let s := gState (bindRec true false) [aGroup (.pending 0)] 0
     let b := bindRec true false
     b.start ≤ s.clk ∧ b.strands = [0, 1, 2, 3] ∧ (aLaunch 0).lid = 1 ∧ b.fault = none ∧
       ((b.strands.map coreOf).eraseDups).filter (fun c => !s.coreHolds c b.lid) = [0] ∧
       ({ b with fault := some (poisonAt 0 0) } : BindRec).fault = some (poisonAt 0 0) ∧
       ({ b with level := 0, smask := 5 } : BindRec).strands = [0, 2]) ∧
    (let sv : SavedGroup := ⟨1, 0, [(0, st0), (1, st0), (2, st0), (3, st0)], [], .preempt⟩
     let s := { gState (bindRec true true) [aGroup .saved] 0 with saved := [sv] }
     s.saved.find? (fun x => x.lid == 1 && x.grp == 0) = some sv ∧ mget? sv.strands 3 = some st0) ∧
    (let s := gState (bindRec true false) [aGroup .killed] 0
     (s.groupAt 1 0) = some (aGroup .killed) ∧ s.groupEnds (aGroup .killed) = true) ∧
    (gState (bindRec true false) [aGroup .running] 0).groupEnds (aGroup .running) = false ∧
    (gState (bindRec true false) [aGroup .running] 0).groupAt 1 1 = none ∧
    (let s := gState (bindRec true false) [aGroup .running] 0
     s.launchEnds (aLaunch 0) = false ∧ s.launchEnds { aLaunch 0 with rejected := true } = true ∧
       ((aLaunch 0).rec_.drop 6).headD 0 = 0) ∧
    (let s := { gState (bindRec true false) [aGroup (.ended 0)] 64 with launches := [(1, aLaunch 64)] }
     s.launchEnds (aLaunch 64) = true ∧ ((aLaunch 64).rec_.drop 6).headD 0 ≠ 0 ∧
       (match s.frontXlate (ctxSpace (s.launchCtx (aLaunch 64)) 0) 64 true with
        | (s1, .ok pa) => (match s1.target 0 pa with
          | .ok (.mem q) => if s1.closedAt q then 0 else q
          | _ => 0)
        | _ => 0) = 0x20040) ∧
    (let s := { gState (bindRec true false) [aGroup (.ended 0)] 64 with launches := [(1, aLaunch (1#64 <<< 60))] }
     (match (s.frontXlate (ctxSpace [] 0) (1#64 <<< 60) true).2 with
      | .error _ => true
      | _ => false) = true) := by decide +kernel

/-- A core that its context still owns, a saved strand of the context elsewhere, and none. -/
theorem witness_GroupsAndLaunches_kept :
    let l : Launch := { aLaunch 0 with rec_ := [0, 0, 0, 0, 0, 0, 0, BitVec.ofNat 64 (2 ^ 40)] }
    let sv : SavedGroup := ⟨1, 9, [(0, st0)], [], .preempt⟩
    let s := { gState { bindRec true false with level := 0, smask := 1 } [aGroup (.pending 0)] 0 with
      launches := [(1, l)], saved := [sv], cores := [(0, { Core.reset with ctx := some 0x1000 })] }
    (s.core 0).ctx = s.ctxPaOf 1 ∧ s.savedStrand (s.ctxPaOf 1) = true ∧ s.coreHolds 0 1 = false ∧
    ({ s with saved := [] } : State).savedStrand (s.ctxPaOf 1) = false := by decide +kernel

/-- A completion record in window 0, of module 1: nothing sent yet, its first store unanswered, answered, word 0 answered; and with
the window's allowance used up. -/
theorem witness_GroupsAndLaunches_window :
    let st (k : Nat) (p : List Packet) (lim : Nat) : State × Launch :=
      let l := { aLaunch 64 with recordStage := k }
      let f := winFabric lim
      ({ gState (bindRec true false) [aGroup (.ended 0)] 64 with
          launches := [(1, l)], fabric := { f with src := [(1, ⟨0, p, 0, false⟩)] }
          dies := [(0, { Die.reset with walk := [⟨0, 4, 0, 0, 1, 0⟩, ⟨0, 3, 0, 0, 1, 0⟩, ⟨0, 2, 0, 0, 1, 0⟩, ⟨0, 1, 0, 0, 1, 0⟩,
            ⟨0, 0, 0, 0, BitVec.ofNat 64 (windowBase + 0xF03), 0⟩] })] }, l)
    let ans (k : Nat) (p : List Packet) (lim : Nat) : Nat :=
      let (s, l) := st k p lim
      if !s.launchEnds l then 9
      else match s.frontXlate (ctxSpace (s.launchCtx l) 0) 64 true with
        | (s1, .ok pa) => (match s1.target 0 pa with
          | .ok (.window w dst _) =>
            let wait := (s1.fabric.pairSrc dst).outstanding.any (fun k => k.who == .front 1)
            let room := (s1.askAllow w (.front 1) 1).2 && s1.fabric.roomFor dst
            if mget? s1.launches 1 = some l then (if wait then 4 else 0) + (if room then 2 else 0) + min k 1 else 9
          | _ => 8)
        | _ => 7
    let sent : Packet := { pkt 4 .store with who := .front 1 }
    ans 0 [] 4 = 2 ∧ ans 1 [sent] 4 = 7 ∧ ans 1 [] 4 = 3 ∧ ans 2 [] 4 = 3 ∧ ans 0 [pkt 4 .store] 1 = 0 := by decide +kernel

/-- A group running, with a request whose time has come, saving, saved; strands not bound, running, stopped. -/
def saveState (ph : GroupPhase) (fl : List Flight) : State :=
  let st := { st0 with ctl := { st0.ctl with preq := true }, flights := fl }
  { State.reset with strands := [(0, st), (1, st0), (2, st0), (3, st0)], groups := [aGroup ph] }

theorem witness_SavesAndDebug :
    (saveState .running []).groupAt 1 0 = some (aGroup .running) ∧ (saveState .running []).groupAt 1 1 = none ∧
    (aGroup .saving).phase ≠ .running ∧ (one st0).saveDue (aGroup .running) = false ∧
    (saveState .running [busy]).saveDue (aGroup .running) = true ∧
    (aGroup .saving).strands.all (fun k => ((saveState .saving [busy]).strand k).settledForSave) = false ∧
    (let s := saveState .saving []
     s.saveDue (aGroup .saving) = true ∧
       (aGroup .saving).strands.all (fun k => (s.strand k).settledForSave) = true ∧
       (((aGroup .saving).strands.foldl (fun s k => s.capture k .preempt) s).groupAt 1 0).map Group.phase = some .saving) ∧
    Strand.reset.bound = none ∧ st0.bound.isSome = true ∧ st0.running = true ∧ st0.halted = false ∧
    ({ st0.front with stopped := true } : Front).trapping = none ∧ st0.settledForSave = true ∧ st0.front.stopped = false ∧
    ({ st0 with flights := [busy] } : Strand).settledForSave = false ∧ ((one st0).core 0).gang.on = false ∧ st0.past = [] ∧
    (one st0).pushing 0 = false := by decide +kernel

def missState : State := { lState 0 0 0 lq [] [] with
  wings := [(0, { Wing.reset with misses := [⟨0, 0, 0, 0, false, 0⟩, ⟨0, 2 ^ 40, 0, 0, false, 0⟩] })] }
def shootOf (d : Option Nat) : Shoot := ⟨0, 9, 0, 0, 4096, d, none⟩

/-- A walk that finds its leaf and one that does not; shootdowns before and after the drop; a context with a launch and
without; each kind of margin; the threshold temperature and one degree below. -/
theorem witness_Upkeep :
    let walkOf (va : Nat) : Nat := match (missState.wing 0).misses.find? (fun m => m.asid == 0 && m.page == va % 2 ^ 57 / 4096) with
      | none => 0
      | some m => match missState.walk ⟨m.root, m.asid, m.tenant, 0, 0⟩ ((BitVec.ofNat 57 (4096 * m.page)).signExtend 64) m.wantD with
        | (_, .leaf _) => 1
        | (_, .fault ..) => 2
    walkOf 0 = 1 ∧ walkOf (2 ^ 52) = 2 ∧ walkOf 4096 = 0 ∧ State.reset.cur8.shootdowns = [] ∧
    (shootOf none).dropped = none ∧ (waitOn (.tlbinv 24 25 false false true)).oldAccess (shootOf (some 0)) 0 = false ∧
    ((waitOn (.tlbinv 24 25 false false true)).entry? 0 9).isSome = true ∧
    ({ shootOf (some 0) with move := some 0x10000 } : Shoot).move = some 0x10000 ∧
    (openState [{ openE (.ldD 28 24 false 0) with id := 0, rds := [⟨0, .mem 0, 8, 0, 0, none, false⟩] }]).oldAccess
      { shootOf (some 1) with asid := 1 } 1 = true ∧
    (lState 0 0 0 lq [(1, aLaunch 0)] []).launches.any
      (fun l => ctxAsid ((lState 0 0 0 lq [(1, aLaunch 0)] []).launchCtx l.2) == 0) = true ∧
    (lState 0 0 0 lq [] []).launches.any (fun l => ctxAsid ((lState 0 0 0 lq [] []).launchCtx l.2) == 0) = false ∧
    mget? (lState 0 0 0 lq [(1, aLaunch 0)] []).launches 1 = some (aLaunch 0) ∧ (aLaunch 0).restartable = false ∧
    ({ aLaunch 0 with rec_ := [0, 0, 0, 0, 0, 0, 0, 4] } : Launch).restartable = true ∧ (aLaunch 0).relaunch < 3 ∧
    3 ≤ ({ aLaunch 0 with relaunch := 3 } : Launch).relaunch ∧ mget? missState.launches 2 = none ∧
    (mget? (({ missState with wings := [(0, { Wing.reset with slots := [(16, Slot.empty)] })] } : State).wing 0).slots 16).isSome = true ∧
    (aLaunch 0).uerr = false ∧ (List.replicate 32 (0 : Byte)).length = 32 ∧ Die.reset.supply = 0 ∧
    ¬ (110 ≤ (109 : Nat)) ∧ ∀ u ∈ [0, 63, 64, 71], u < 72 ∧ u ∉ State.reset.cur8.withdrawn := by decide +kernel

theorem witness_Upkeep_supply : Die.reset.supply < Config.topSupply ∧
    Config.topSupply ≤ ({ Die.reset with supply := Config.topSupply } : Die).supply := ⟨Nat.succ_pos _, Nat.le_refl _⟩

/-! ### Memory, control, objects, system: one step each -/

/-- What stands after an event or instruction. -/
def next (s : State) (i : Instr) : State :=
  match exec i s with
  | .next t => t
  | _ => State.reset

/-- R226, Table 10-3: a little-endian doubleword at 0x10004 is two pieces of its bytes. -/
theorem test_std_pieces : (after (memState { memSt with regs := { memSt.regs with
      sp := [(24, ⟨0x10004, false⟩), (25, ⟨0x0807060504030201, false⟩)] } }) (.stD 25 24 false 0)).wq.map
        (fun q => q.pieces.map (fun p => (p.va, p.bytes))) =
    [[(0x10004, [(0, 1), (1, 2), (2, 3), (3, 4)]), (0x10008, [(0, 5), (1, 6), (2, 7), (3, 8)])]] := by decide +kernel
/-- A store performs: the byte is in memory, and its line's stamp is not below the strand's. -/
theorem test_store_performs :
    let q := { winWrite 0 with pieces := [⟨0x10000, .mem 0x20000, [(0, 5)], false⟩] }
    let t := next (memState { memSt with wq := [q] }) (.writeQueuePerform 0)
    t.mem = [(0x20000, 5)] ∧ t.me.wq = [] := by decide +kernel
def amoTo (o : BitVec 4) (b : W64) : State × W64 :=
  let e := { loadE (.amo 28 24 25 o 0) 8 with y := SV.toVV ⟨b, false⟩ }
  let t := next (perf e) (.loadReturn 0 9 [] false)
  (t, (t.me.regs.sP 28).v)
/-- R272: ADD, MIN as signed; the old value to D. -/
theorem test_amo_add : (amoTo 0 1).1.mem = [(0x20000, 0x81), (0x20001, 1)] ∧ (amoTo 0 1).2 = 0x180 := by decide +kernel
theorem test_amo_min_signed : (amoTo 4 0xFFFFFFFFFFFFFFFF).1.mem = (List.range 8).map (fun i => (0x20000 + i, 0xFF)) := by
  decide +kernel
/-- `CAS` with another expected value stores nothing. -/
theorem test_cas_fails :
    let e := { loadE (.cas 28 24 25 0) 8 with y := SV.toVV ⟨1, false⟩, z := [SV.toVV ⟨5, false⟩] }
    let t := next (perf e) (.loadReturn 0 9 [] false)
    t.mem = (perf e).mem ∧ (t.me.regs.sP 28).v = 0x180 := by decide +kernel
/-- R276: a spilled vector comes back. -/
theorem test_spill_fill :
    let e := { openE (.spill 24 true 256) with z := [vl [1, 2, 3]] }
    let t := next (perf e) (.writeBack 0 9)
    (List.range 3).map (fun j => lane (spillGet t.me.spill 64 64).v j) = [1, 2, 3] := by decide +kernel

def atPc (pc : W64) (link : W32) (f : Strand → Strand) : State :=
  memState (f { memSt with front := { st0.front with ctx := ⟨0, pc, link, none, false⟩ } })
/-- R122: a branch target is counted in lines from the line of the bundle. -/
theorem test_br_back : (after (atPc 0x1003 0 id) (.br 0 false 0x3FFFF 2)).front.pc = 0xFC2 := by decide +kernel
theorem test_brc_lt : (after (atPc 0x1000 0 (fun st => { st with regs := { st.regs with sp := [(24, ⟨0xFFFFFFFFFFFFFFFF, false⟩)] } }))
    (.brc 24 false 2 1 0)).front.pc = 0x1040 := by decide +kernel
/-- R145: the return PC of bundle 0 of a line of two is bundle 1. -/
theorem test_call_links :
    let st := after (atPc 0x1000 0xF0000008 id) (.call 0 false 1 0)
    st.front.pc = 0x1040 ∧ st.flights.map Flight.wbs = [[.s 30 ⟨nextPc 0x1000 0xF0000008 |>.1, false⟩]] := by decide +kernel
theorem test_ret : (after (atPc 0x1000 0 id) (.ret 24 false 0 false)).front.pc = 0x10000 := by decide +kernel

/-- R328 to R332: updates apply at the end of the clock. -/
theorem test_jset : ((next (memState memSt) (.jset 5)).core 0).join = 0 ∧
    (((memState memSt).applyUpd 0 (0, .jset 5 0)).core 0).join = 5 := by decide +kernel
theorem test_sempost_saturates :
    let s := { memState memSt with cores := [(0, { Core.reset with sems := [(3, ⟨65535, [], 0⟩)] })] }
    ((s.applyUpd 0 (0, .post 3 1 0)).core 0).sem 3 = ((s.core 0).sem 3) := by decide +kernel
theorem test_mxunlk_not_held : (after (memState memSt) (.mxunlk 28 2)).flights.map Flight.wbs = [[.s 28 ⟨1, false⟩]] := by
  decide +kernel
/-- Table 7-7: a peer that is the strand itself gives 1. -/
theorem test_qlink_self : (after (memState { memSt with regs := { memSt.regs with sp := [(24, ⟨0x500, false⟩)] } })
    (.qlink 28 24 false 4)).flights.map Flight.wbs = [[.s 28 ⟨1, false⟩]] := by decide +kernel
theorem test_qdepth_counts_reservations : (after (one { memSt with regs := { memSt.regs with vq := [(4, [.full VV.zero, .hole 7])] } })
    (.qdepth 28 4)).flights.map Flight.wbs = [[.s 28 ⟨2, false⟩]] := by decide +kernel

/-- R162: SRNG of 0 takes the fixed seed; EPC clears ESLOT. -/
theorem test_mts_srng_zero : (next (qWait (.mtsSrng 24 false) 0 0 0 0 0) (.mtsSrng 24 false)).me.ctl.srng = 0x9E3779B97F4A7C15#64 := by
  decide +kernel
theorem test_mts_epc_clears_eslot :
    let s := (qWait (.mtsEpc 24 false) 0x1234 0 0 0 0).modStrand 0 (fun st => { st with ctl := { st.ctl with eslot := 2 } })
    let t := (next s (.mtsEpc 24 false)).me.ctl
    t.epc = 0x1234 ∧ t.eslot = 0 := by decide +kernel
theorem test_mfs_clock : (next (waitOn (.mfs 28 0x0B)) (.mfs 28 0x0B)).me.flights.map Flight.wbs = [[.s 28 ⟨4, false⟩]] := by
  decide +kernel

/-- R364: a system call is taken at TRAPBASE with its code in EINFO. -/
theorem test_sysc_taken :
    let st := after (one { later st0 with ctl := { st0.ctl with trapBase := 0x4000 } }) (.sysc 77)
    st.front.pc = 0x4000 ∧ st.ctl.epc = 0x40 ∧ st.ctl.einfo = 77 ∧ st.ctl.eslot = 2 ∧ st.ctl.exl = true := by decide +kernel
theorem test_trap_zero : after (memState { memSt with regs := { memSt.regs with sp := [(24, ⟨0, false⟩)] } }) (.trap 24 false 9) =
    { memSt with regs := { memSt.regs with sp := [(24, ⟨0, false⟩)] } } := by decide +kernel
theorem test_halt : (next (waitOn .halt) .halt).me.halted = true := by decide +kernel

/-- R312: the count of a completion counter. -/
theorem test_tstat_count : (after (memState { memSt with tcs := [(2, ⟨6, 0, 0, 0, 0⟩)] }) (.tstat 28 2 0 false)).flights.map Flight.wbs =
    [[.s 28 ⟨6, false⟩]] := by decide +kernel
/-- R232: the clock advance. -/
theorem test_pts_tick : (next (memState memSt) .ptsTick).pts 0 = 1 := by decide +kernel
/-- R353, R354: a store packet commits; the next number is expected. -/
theorem test_packet_store :
    let t := next (fabState 0 pair0) (.requestPacketArrival 1 5 3 0 0 0 0x20000 [4, 0, 0, 0, 0, 0, 0xAA])
    t.mem = [(0x20004, 0xAA)] ∧ (t.fabric.pairDst 1).expected = 4 := by decide +kernel
theorem test_packet_other_epoch : next (fabState 0 pair0) (.requestPacketArrival 1 5 3 1 0 0 0x20000 [4, 0, 0, 0, 0, 0, 0xAA]) = fabState 0 pair0 := by
  decide +kernel
theorem test_identity_swap : (next (next (fabState 0 pair0) (.identityShadowWrite 9 7)) (.identitySwap none)).fabric.active = [(9, 7)] := by
  decide +kernel
/-- R399: a nonce that is not 32 bytes gets no answer. -/
theorem test_short_nonce : next (memState memSt) (.attestationRequest [1, 2]) = memState memSt := by decide +kernel
/-- R402: 110 degrees stop the module. -/
theorem test_thermal : (next (memState memSt) (.thermalTrip 110)).cur8.thermal = true := by decide +kernel

end Sys2Proof.Tests
end

section
/-! The laws of FP32 arithmetic (02_numbers.md, R31 to R33, R43, R44; 09_float_codebook_instructions.md, R203): exact sum and
product do not depend on the order of their operands, and in every format a pattern is the rounding of its own value. -/

namespace Sys2Proof.Machine

/-! ### The order of the operands (R203) -/

theorem sigFlag_pair_comm (a b : XVal) : sigFlag [a, b] = sigFlag [b, a] := by
  simp [sigFlag, Bool.or_comm]

/-- The exact product does not depend on the order, nor does its invalid case 0 × ∞. -/
theorem xMul_comm (a b : XVal) : xMul a b = xMul b a := by
  cases a with
  | nan s => cases b <;> simp [xMul, Bool.or_comm]
  | inf s => cases b <;> simp [xMul, bne_comm]
  | fin s m e => cases b <;> simp [xMul, bne_comm, Nat.mul_comm, Int.add_comm]

/-- The exact sum does not depend on the order: a zero leaves exponent and sum as they are, and two infinities that
are not the invalid case are the same one. -/
theorem xSum_pair_comm (mode : RMode) (a b : XVal) : xSum mode [a, b] = xSum mode [b, a] := by
  cases a with
  | nan s => cases b <;> simp [xSum, XVal.isNan, XVal.isSig, Bool.or_comm]
  | inf s =>
    cases b with
    | nan t => simp [xSum, XVal.isNan, XVal.isSig]
    | inf t => cases s <;> cases t <;> rfl
    | fin t n f => cases s <;> rfl
  | fin s m e =>
    cases b with
    | nan t => simp [xSum, XVal.isNan, XVal.isSig]
    | inf t => cases t <;> rfl
    | fin t n f =>
      by_cases hm : m = 0 <;> by_cases hn : n = 0 <;>
        simp [xSum, XVal.isNan, XVal.isInf, XVal.sign, hm, hn, Bool.and_comm, Bool.or_comm, Int.add_comm, min_left_comm,
          min_comm]

theorem xAdd_comm (mode : RMode) (a b : XVal) : xAdd mode a b = xAdd mode b a := by
  simp [xAdd, xSum_pair_comm mode a b, sigFlag_pair_comm a b]

theorem xMulR_comm (a b : XVal) : xMulR a b = xMulR b a := by
  simp [xMulR, xMul_comm a b, sigFlag_pair_comm a b]

/-! ### Rounding what a format holds (R31 to R33, R43, R44) -/

/-- The exponent of the least significant bit of a format's subnormals (R32). -/
def FFmt.minExp (f : FFmt) : Int := 1 - (f.bias : Int) - (f.frac : Int)

theorem bitLen_le_iff_lt_two_pow (n k : Nat) : bitLen n ≤ k ↔ n < 2 ^ k := by
  unfold bitLen
  split
  · simp [*]
  · rw [Nat.add_one_le_iff, Nat.log2_lt ‹_›]

/-- A multiple of the unit is rounded to itself, in every mode. -/
theorem roundAt_same (mode : RMode) (neg : Bool) (m : Nat) (e : Int) (r : Nat) : roundAt mode neg m e e r = (m, true) := by
  simp [roundAt]

/-- The unit of a significand `m` of at most `frac + 1` bits that stands `k` above the least exponent: `2 ^ (minExp + k)`
itself, since `m` is normal or `k` is 0. -/
theorem FFmt.unit_of_canonical (f : FFmt) (m k : Nat) (hm : m < 2 ^ (f.frac + 1)) (hk : m < 2 ^ f.frac → k = 0) :
    max (f.minExp + k + (bitLen m : Int) - 1 - (f.frac : Int)) f.minExp = f.minExp + k := by
  have hle := (bitLen_le_iff_lt_two_pow m (f.frac + 1)).2 hm
  have hge := (bitLen_le_iff_lt_two_pow m f.frac).1
  omega

/-- A value that the format holds rounds to its own code, exactly, in every mode (R44). -/
theorem FFmt.roundFin_canonical (f : FFmt) (mode : RMode) (sat : Bool) (r : Nat) (neg : Bool) (m k : Nat)
    (hm : m < 2 ^ (f.frac + 1)) (hk : m < 2 ^ f.frac → k = 0) (hmax : k * 2 ^ f.frac + m ≤ f.maxCode) :
    f.roundFin mode sat r neg m (f.minExp + k) = ⟨f.signed neg (k * 2 ^ f.frac + m), 0⟩ := by
  by_cases h0 : m = 0
  · simp [FFmt.roundFin, h0, hk (h0 ▸ Nat.two_pow_pos _)]
  · have hunit := f.unit_of_canonical m k hm hk
    simp only [FFmt.minExp] at hunit ⊢
    simp [FFmt.roundFin, h0, hunit, roundAt_same, hmax.not_gt]

/-- A format that has infinities encodes them without a flag (Table 2-7). -/
theorem FFmt.encode_inf_of_hasInf (f : FFmt) (mode : RMode) (r : Nat) (neg : Bool) (h : f.hasInf = true) :
    f.encode mode false r (.inf neg) = ⟨f.signed neg f.infCode, 0⟩ := by
  have h1 : f ≠ .e2m1 := by rintro rfl; cases h
  have h2 : f ≠ .e4m3 := by rintro rfl; cases h
  simp [FFmt.encode, h1, h2]

/-- The sign bit and the magnitude of a pattern make up the pattern (R31). -/
theorem FFmt.signed_bitN_mod (f : FFmt) (p : Nat) (hp : p < 2 ^ f.width) :
    f.signed (bitN p (f.width - 1)) (p % 2 ^ (f.width - 1)) = p := by
  have hw : 2 ^ f.width = 2 * 2 ^ (f.width - 1) := by cases f <;> rfl
  have hdiv := Nat.div_add_mod p (2 ^ (f.width - 1))
  have hlt : p / 2 ^ (f.width - 1) < 2 := Nat.div_lt_of_lt_mul (by omega)
  rw [FFmt.signed, bitN, Nat.testBit_eq_decide_div_mod_eq]
  generalize p / 2 ^ (f.width - 1) = sign at hdiv hlt ⊢
  interval_cases sign <;> simp <;> omega

/-- What a pattern that is not a NaN decodes to: the infinity, or a significand and an exponent above the least one that
make up its magnitude, the significand normal or the exponent the least. -/
theorem FFmt.decode_cases (f : FFmt) (p : Nat) (h : (f.decode p).isNan = false) :
    (f.hasInf = true ∧ p % 2 ^ (f.width - 1) = f.infCode ∧ f.decode p = .inf (bitN p (f.width - 1))) ∨
    (∃ m k, m < 2 ^ (f.frac + 1) ∧ (m < 2 ^ f.frac → k = 0) ∧ k * 2 ^ f.frac + m = p % 2 ^ (f.width - 1) ∧
      k * 2 ^ f.frac + m ≤ f.maxCode ∧ f.decode p = .fin (bitN p (f.width - 1)) m (f.minExp + (k : Int))) := by
  unfold FFmt.decode at h ⊢
  generalize bitN p (f.width - 1) = neg at h ⊢
  generalize p % 2 ^ (f.width - 1) = mag at h ⊢
  have hsplit := Nat.div_add_mod' mag (2 ^ f.frac)
  have hfr := Nat.mod_lt mag (Nat.two_pow_pos f.frac)
  simp only [Nat.shiftRight_eq_div_pow] at h ⊢
  split at h
  next hbig =>
    left
    split at h
    next hinf =>
      split at h
      next hcode => exact ⟨hinf, hcode, by rw [if_pos hbig, if_pos hinf, if_pos hcode]⟩
      next => simp [XVal.isNan] at h
    next => simp [XVal.isNan] at h
  next hfin =>
    right
    generalize mag / 2 ^ f.frac = q at hsplit ⊢
    generalize mag % 2 ^ f.frac = fr at hsplit hfr ⊢
    cases q with
    | zero =>
      refine ⟨fr, 0, by omega, fun _ => rfl, by omega, by omega, ?_⟩
      simp [hfin, FFmt.minExp]
    | succ k =>
      rw [Nat.succ_mul] at hsplit
      refine ⟨2 ^ f.frac + fr, k, by omega, by omega, by omega, by omega, ?_⟩
      rw [if_neg hfin, if_neg k.succ_ne_zero, XVal.fin.injEq, FFmt.minExp]
      exact ⟨rfl, rfl, by omega⟩

/-- A pattern that is not a NaN, taken as an exact value, is encoded as itself with no flag, in every format and mode. -/
theorem FFmt.encode_decode (f : FFmt) (mode : RMode) (r p : Nat) (hp : p < 2 ^ f.width) (h : (f.decode p).isNan = false) :
    f.encode mode false r (f.decode p) = ⟨p, 0⟩ := by
  have hsigned := f.signed_bitN_mod p hp
  obtain ⟨hinf, hmag, hdec⟩ | ⟨m, k, hm, hk, hmag, hmax, hdec⟩ := f.decode_cases p h
  · rw [hdec, f.encode_inf_of_hasInf mode r _ hinf, ← hmag, hsigned]
  · rw [hdec, FFmt.encode, f.roundFin_canonical mode false r _ m k hm hk hmax, hmag, hsigned]

end Sys2Proof.Machine

open Sys2Proof.Machine

/-- Settles O29: sum and product commute case by case, and the code of a pattern's own value is the pattern. -/
theorem floatLaws : Obligations.FloatLaws := by
  refine ⟨fun a b => ⟨?_, ?_⟩, fun a h => ?_⟩
  · simp only [fAdd, xAdd_comm .rne (fl a) (fl b)]
  · simp only [fMul, xMulR_comm (fl a) (fl b)]
  · have h32 := FFmt.fp32.encode_decode .rne 0 a.toNat a.isLt h
    simp only [fl, f32, h32, and_self]

end

section
/-! One step of the machine (R91, R92, R110, R111): the turn that it carries out, what the start of a clock leaves of every
strand, and the oldest pair of slots B and C. -/

namespace Sys2Proof.Machine

/-! ### The start of a clock -/

/-- A change of every value of a map shows at each key as the change of the value there. -/
theorem mget_map_snd {α : Type} (f : α → α) (m : AMap α) (k : Nat) (d : α) :
    mget (m.map fun p => (p.1, f p.2)) k d = (mget? m k).elim d f := by
  induction m with
  | nil => rfl
  | cons p r ih =>
    obtain ⟨j, v⟩ := p
    by_cases h : j = k <;> simp [mget, mget?, h, ih]

theorem mget_eq_mget? {α : Type} (m : AMap α) (k : Nat) (d : α) : mget m k d = (mget? m k).getD d := by
  induction m with
  | nil => rfl
  | cons p r ih =>
    obtain ⟨j, v⟩ := p
    by_cases h : j = k <;> simp [mget, mget?, h, ih]

/-- The strand once its waiting `WAITV`s have learnt of the writes of earlier clocks (R337). -/
def State.withWritesSeen (s : State) (st : Strand) : Strand :=
  if st.open_.any s.writeSeen then
    { st with open_ := st.open_.map (fun e => if s.writeSeen e then { e with step := waitvSeen } else e) }
  else st

theorem State.strand_noteWrites (s : State) (n : Nat) : s.noteWrites.strand n = s.withWritesSeen (s.strand n) := by
  have h : s.noteWrites.strands = s.strands.map (fun p => (p.1, s.withWritesSeen p.2)) := by
    unfold State.noteWrites State.withWritesSeen
    exact List.map_congr_left fun p _ => by split <;> rfl
  unfold State.strand
  rw [h, mget_map_snd, mget_eq_mget?]
  cases mget? s.strands n <;> rfl

/-- Learning of writes leaves a strand as it is but for the steps of its open operations. -/
theorem State.withWritesSeen_frame (s : State) (st : Strand) :
    (s.withWritesSeen st).regs = st.regs ∧ (s.withWritesSeen st).ctl = st.ctl ∧ (s.withWritesSeen st).front = st.front ∧
      (s.withWritesSeen st).flights = st.flights ∧ (s.withWritesSeen st).wq = st.wq ∧
      (s.withWritesSeen st).streams = st.streams ∧ (s.withWritesSeen st).open_.map Entry.id = st.open_.map Entry.id := by
  unfold State.withWritesSeen
  split
  · refine ⟨rfl, rfl, rfl, rfl, rfl, rfl, ?_⟩
    rw [List.map_map]
    exact List.map_congr_left fun e _ => by simp only [Function.comp_apply]; split <;> rfl
  · exact ⟨rfl, rfl, rfl, rfl, rfl, rfl, rfl⟩

/-! ### One turn -/

/-- Without a thermal stop a step is the next turn of the clock. -/
theorem step_of_agenda {s : State} {t : Turn} {r : List Turn} (hth : s.cur8.thermal = false) (h : s.agenda = t :: r) :
    step s = runTurn exec t { s with agenda := r } := by
  simp [step, runStep, hth, h]

/-- With no turn left the next clock begins. -/
theorem step_of_no_agenda {s : State} (hth : s.cur8.thermal = false) (h : s.agenda = []) : step s = .next s.startClock := by
  simp [step, runStep, hth, h]

/-! ### The oldest pair of slots B and C (R110) -/

/-- A pair issues where nothing holds the strand: what becomes of it follows from the outcome of its two slots. -/
theorem pairTurn_of_next {s t : State} {n : Nat} {p : Pair} {rest : List Pair} (hp : (s.strand n).front.pairs = p :: rest)
    (hw : (s.strand n).front.waitC = none) (htr : (s.strand n).front.trapping = none)
    (hu : (s.strand n).unresolvedUpTo p.seq = false) (hr : runPair exec s n p false = .next t) :
    pairTurn exec s n = .next (if t.slotStalled n then s.keepMisses t else if t.slotTrapped n then t
      else if (s.strand n).ctl.leftGang && !(t.strand n).ctl.leftGang then
        t.modStrand n (fun x => { x.pairIssued p with front := { (x.pairIssued p).front with stepped := false } })
      else t.modStrand n (fun x => x.pairIssued p)) := by
  unfold pairTurn
  simp only [hp, hw, htr, hu, hr, Result.bind, Option.isSome_none, Bool.or_false, Bool.false_eq_true, if_false]
  repeat' split
  all_goals rfl

/-- A stall or a trap of slot B ends the pair's turn. -/
theorem runPair_of_slotB {s t : State} {n : Nat} {p : Pair} {i : Instr} (hf : p.from_ ≠ 2) (hb : p.decoded.b = .ok i)
    (hx : exec i (s.enterSlot n ⟨p.seq, p.pc, p.link, p.decoded.extB, false⟩) = .next t)
    (h : t.slotStalled n = true ∨ t.slotTrapped n = true) : runPair exec s n p false = .next t := by
  simp only [runPair, if_neg hf, runSlot, hb, Pair.ctx, hx, Result.bind, if_pos h]

/-- Else slot C runs on the state that slot B left. -/
theorem runPair_of_slotC {s tb tc : State} {n : Nat} {p : Pair} {ib ic : Instr} (hf : p.from_ ≠ 2) (hb : p.decoded.b = .ok ib)
    (hc : p.decoded.c = .ok ic) (hxb : exec ib (s.enterSlot n ⟨p.seq, p.pc, p.link, p.decoded.extB, false⟩) = .next tb)
    (hs : tb.slotStalled n = false) (ht : tb.slotTrapped n = false)
    (hxc : exec ic (tb.enterSlot n ⟨p.seq, p.pc, p.link, none, false⟩) = .next tc) : runPair exec s n p false = .next tc := by
  simp only [runPair, if_neg hf, runSlot, hb, hc, Pair.ctx, hxb, hxc, Result.bind, hs, ht, Bool.false_eq_true, or_self, if_false]

/-- What issues last of a bundle is a stepped bundle (R119). -/
theorem Strand.pairIssued_stepped (st : Strand) (p : Pair) : (st.pairIssued p).front.stepped = true := by
  have hsettle : ∀ x : Strand, x.settle.front = x.front := fun x => by unfold Strand.settle; split <;> rfl
  unfold Strand.pairIssued
  dsimp only
  split <;> simp only [Strand.settleEdges, hsettle, Front.dropPair]

end Sys2Proof.Machine

open Sys2Proof.Machine

/-- Settles O4: each turn is carried out by its own function, and a pair's turn is that of its two slots in order. -/
theorem stepRunsTurns : Obligations.StepRunsTurns := by
  refine ⟨fun s hth => ⟨fun i r h => step_of_agenda hth h, fun n r h => step_of_agenda hth h,
    fun c r h => step_of_agenda hth h, fun h => ⟨_, step_of_no_agenda hth h, rfl, rfl, fun n => ?_⟩⟩, ?_⟩
  · have hn : s.startClock.strand n = s.withWritesSeen (s.strand n) := s.strand_noteWrites n
    rw [hn]
    exact s.withWritesSeen_frame _
  · intro s tb tc n p rest ib ic hp hw htr hu hf hb hc hxb
    refine ⟨fun hst => ?_, fun hst htb hxc => ?_⟩
    · rw [pairTurn_of_next hp hw htr hu (runPair_of_slotB hf hb hxb (.inl hst)), if_pos hst]
    · have hturn := pairTurn_of_next hp hw htr hu (runPair_of_slotC hf hb hc hxb hst htb hxc)
      refine ⟨fun hs => by rw [hturn, if_pos hs], fun hs ht => ?_⟩
      have hkeep : ∀ x : Strand, x.pairIssued p =
          { x.pairIssued p with front := { (x.pairIssued p).front with stepped := true } } := fun x => by
        rw [← x.pairIssued_stepped p]
      rw [hturn, if_neg (by simp [hs]), if_neg (by simp [ht])]
      cases hback : ((s.strand n).ctl.leftGang && !(tc.strand n).ctl.leftGang)
      · simp only [Bool.false_eq_true, if_false, Bool.not_false, ← hkeep]
      · simp only [if_true, Bool.not_true]

end

section
/-! Accesses to memory that no strand makes (R66, R85, R225, R231): whatever they do to memory, its homes, copies and walk
caches, they leave everything else of the state as it was. -/

namespace Sys2Proof.Machine

/-- The state but for what an access to memory may change: memory with its marks, homes and tile copies, the dies' copies and
walk caches, the front-end's pts, and the context records as last read. -/
def State.offMemory (s : State) : State :=
  { s with mem := [], marks := [], homes := [], wings := [], dies := [], catalogue := [], frontPts := 0, contexts := [] }

@[simp] theorem State.modWing_offMemory (s : State) (w : Nat) (f : Wing → Wing) : (s.modWing w f).offMemory = s.offMemory := rfl
@[simp] theorem State.modDie_offMemory (s : State) (d : Nat) (f : Die → Die) : (s.modDie d f).offMemory = s.offMemory := rfl

@[simp] theorem State.recall_offMemory (s : State) (l : Nat) : (s.recall l).offMemory = s.offMemory := by
  unfold State.recall; split <;> rfl

@[simp] theorem State.readHome_offMemory (s : State) (pts : W64) (l : Nat) :
    (s.readHome pts l).1.offMemory = s.offMemory := s.recall_offMemory l

@[simp] theorem State.storeAt_offMemory (s : State) (ts : W64) (bytes : List (Nat × Byte)) :
    (s.storeAt ts bytes).offMemory = s.offMemory := by
  unfold State.storeAt
  dsimp only
  rw [foldl_same State.offMemory _ _ _ (fun b l => by split <;> rfl)]
  exact foldl_same State.offMemory _ _ _ State.recall_offMemory

@[simp] theorem State.store_offMemory (s : State) (pts : W64) (bytes : List (Nat × Byte)) :
    (s.store pts bytes).1.offMemory = s.offMemory := by
  unfold State.store
  split
  · rfl
  · exact s.storeAt_offMemory _ _

/-- A load by no core, from the die's copy or from the home. -/
@[simp] theorem State.loadLine_offMemory (s : State) (die asid : Nat) (pts : W64) (l : Nat) (acq : Bool) :
    (s.loadLine none die asid pts l acq).st.offMemory = s.offMemory := by
  unfold State.loadLine
  dsimp only [Option.bind_none]
  repeat' split
  all_goals first | rfl | exact s.recall_offMemory l

/-! ### Walks and translations -/

@[simp] theorem State.readPte_offMemory (s : State) (sp : Space) (bypass : Bool) (level va pa : Nat) :
    (s.readPte sp bypass level va pa).1.offMemory = s.offMemory := by
  unfold State.readPte
  dsimp only
  split
  · rfl
  · exact s.loadLine_offMemory _ _ _ _ _

@[simp] theorem State.walkGo_offMemory (s : State) (sp : Space) (bypass : Bool) (va level node : Nat) :
    (s.walkGo sp bypass va level node).1.offMemory = s.offMemory := by
  induction level generalizing s node with
  | zero =>
    unfold State.walkGo
    dsimp only
    repeat' split
    all_goals first | rfl | exact s.readPte_offMemory _ _ _ _ _
  | succ l ih =>
    unfold State.walkGo
    dsimp only
    repeat' split
    all_goals first | rfl | exact s.readPte_offMemory _ _ _ _ _ | exact (ih _ _).trans (s.readPte_offMemory _ _ _ _ _)

theorem State.setAD_offMemory {s t : State} {sp : Space} {e e' : Tlb} {d : Bool} (h : s.setAD sp e d = some (t, e')) :
    t.offMemory = s.offMemory := by
  unfold State.setAD at h
  dsimp only at h
  generalize e.w0 ||| (if d = true then 0x300#64 else 0x100#64) = w at h
  split at h
  · cases h; rfl
  · split at h
    · cases h
    · cases h
      exact s.store_offMemory _ _

@[simp] theorem State.walk_offMemory (s : State) (sp : Space) (va : W64) (d : Bool) :
    (s.walk sp va d).1.offMemory = s.offMemory := by
  have go (s : State) (bypass : Bool) {r : State × WalkEnd} (h : s.walkGo sp bypass (va57 va) 4 sp.root = r) :
      r.1.offMemory = s.offMemory := h ▸ s.walkGo_offMemory _ _ _ _ _
  unfold State.walk
  split
  · rfl
  split
  next h1 => exact go _ _ h1
  next s1 t h1 =>
    split
    next h2 => exact (State.setAD_offMemory h2).trans (go _ _ h1)
    next =>
      split
      next h3 => exact (go _ _ h3).trans (go _ _ h1)
      next s2 u h3 =>
        split
        next h4 => exact (State.setAD_offMemory h4).trans ((go _ _ h3).trans (go _ _ h1))
        next => exact (go _ _ h3).trans (go _ _ h1)

@[simp] theorem State.frontXlate_offMemory (s : State) (sp : Space) (va : W64) (wr : Bool) :
    (s.frontXlate sp va wr).1.offMemory = s.offMemory := by
  have walked (s : State) (d : Bool) {r : State × WalkEnd} (h : s.walk sp va d = r) : r.1.offMemory = s.offMemory :=
    h ▸ s.walk_offMemory _ _ _
  unfold State.frontXlate
  split
  next h1 => exact walked _ _ h1
  next s1 t h1 =>
    repeat' split
    next => exact walked _ _ h1
    next => exact walked _ _ h1
    next h2 => exact (walked _ _ h2).trans (walked _ _ h1)
    next h2 => exact (walked _ _ h2).trans (walked _ _ h1)
    next => exact walked _ _ h1

/-! ### Accesses of the launch front-end (R85) -/

@[simp] theorem State.frontRead_offMemory (s : State) (pa len : Nat) : (s.frontRead pa len).1.offMemory = s.offMemory :=
  s.readHome_offMemory s.frontPts (pa / 256)

@[simp] theorem State.frontStore_offMemory (s : State) (bytes : List (Nat × Byte)) :
    (s.frontStore bytes).offMemory = s.offMemory := s.store_offMemory _ _

@[simp] theorem State.readCtx_offMemory (s : State) (pa : Nat) : (s.readCtx pa).1.offMemory = s.offMemory :=
  s.frontRead_offMemory pa 64

@[simp] theorem State.frontGet_offMemory (s : State) (sp : Space) (va : W64) (len : Nat) :
    (s.frontGet sp va len).1.offMemory = s.offMemory := by
  have hx := s.frontXlate_offMemory sp va false
  unfold State.frontGet
  split
  next h => rw [h] at hx; exact hx
  next s1 pa h =>
    rw [h] at hx
    dsimp only
    repeat' split
    next => exact hx
    all_goals exact (s1.frontRead_offMemory pa len).trans hx

@[simp] theorem State.frontPut_offMemory (s : State) (sp : Space) (va : W64) (bs : List Byte) :
    (s.frontPut sp va bs).1.offMemory = s.offMemory := by
  have hx := s.frontXlate_offMemory sp va true
  unfold State.frontPut
  split
  next h => rw [h] at hx; exact hx
  next s1 pa h =>
    rw [h] at hx
    split
    · exact (s1.frontStore_offMemory _).trans hx
    · exact hx

end Sys2Proof.Machine
end

section
/-! Contexts, launch queues and the command port (R80 to R88, R92, R93, R97): what each operation on a queue leaves of the
queues, and what each command of the port answers. -/

namespace Sys2Proof.Machine

/-! ### Queues (R83, R85) -/

@[simp] theorem State.modQueue_mem (s : State) (num : Nat) (f : LaunchQueue → LaunchQueue) : (s.modQueue num f).mem = s.mem := by
  unfold State.modQueue; split <;> rfl

@[simp] theorem State.modQueue_lqueues (s : State) (num m : Nat) (f : LaunchQueue → LaunchQueue) :
    mget? (s.modQueue num f).lqueues m = if num = m then (mget? s.lqueues m).map f else mget? s.lqueues m := by
  unfold State.modQueue
  by_cases hm : num = m
  · subst hm
    cases h : mget? s.lqueues num <;> simp [h]
  · cases h : mget? s.lqueues num <;> simp [hm]

@[simp] theorem State.note_mem (s : State) (code x : Nat) : (s.note code x).mem = s.mem := rfl
@[simp] theorem State.note_lqueues (s : State) (code x : Nat) : (s.note code x).lqueues = s.lqueues := rfl

/-- What registering fixes of a queue: its number, base, context and tickets. -/
def LaunchQueue.fixed (q : LaunchQueue) : Nat × W64 × Nat × Nat := (q.num, q.qbase, q.ctx, q.tickets)

/-- Between two states queue `num` keeps what registering fixed of it, and every other queue is as it was. -/
structure SameQueues (num : Nat) (s t : State) : Prop where
  fixed : (mget? t.lqueues num).map LaunchQueue.fixed = (mget? s.lqueues num).map LaunchQueue.fixed
  others : ∀ m, m ≠ num → mget? t.lqueues m = mget? s.lqueues m

theorem SameQueues.refl (num : Nat) (s : State) : SameQueues num s s := ⟨rfl, fun _ _ => rfl⟩

theorem SameQueues.trans {num : Nat} {s t u : State} (h : SameQueues num t u) (g : SameQueues num s t) : SameQueues num s u :=
  ⟨h.fixed.trans g.fixed, fun m hm => (h.others m hm).trans (g.others m hm)⟩

theorem SameQueues.of_lqueues {num : Nat} {s t : State} (h : t.lqueues = s.lqueues) : SameQueues num s t := by
  constructor <;> simp [h]

theorem State.modQueue_same (s : State) (num : Nat) (f : LaunchQueue → LaunchQueue) (hf : ∀ q, (f q).fixed = q.fixed) :
    SameQueues num s (s.modQueue num f) := by
  constructor
  · simp [Function.comp_def, hf]
  · intro m hm
    simp [Ne.symm hm]

theorem State.note_same (s : State) (num code x : Nat) : SameQueues num s (s.note code x) := .of_lqueues rfl

theorem State.failQueue_same (s : State) (q : LaunchQueue) : SameQueues q.num s (s.failQueue q) :=
  (State.note_same _ _ _ _).trans (by exact s.modQueue_same _ _ (by exact fun _ => rfl))

theorem State.holdSkip_same (s : State) (num n : Nat) : SameQueues num s (s.holdSkip num n) :=
  s.modQueue_same _ _ (by exact fun _ => rfl)

theorem State.frontPut_same (s : State) (num : Nat) (sp : Space) (va : W64) (bs : List Byte) :
    SameQueues num s (s.frontPut sp va bs).1 :=
  .of_lqueues (congrArg State.lqueues (s.frontPut_offMemory sp va bs) :)

/-- Reading a queue's record and header changes no queue, but that one which cannot be read has failed. -/
theorem State.queueHead_same (s : State) (q : LaunchQueue) : SameQueues q.num s (s.queueHead q).1 := by
  have hctx : (s.readCtx q.ctx).1.lqueues = s.lqueues := (congrArg State.lqueues (s.readCtx_offMemory q.ctx) :)
  have hget := congrArg State.lqueues ((s.readCtx q.ctx).1.frontGet_offMemory (ctxSpace (s.readCtx q.ctx).2 0) q.qbase 32)
  unfold State.queueHead
  dsimp only
  split
  next h =>
    rw [h] at hget
    exact (State.failQueue_same _ q).trans (.of_lqueues (hget.trans hctx))
  next h =>
    rw [h] at hget
    exact .of_lqueues (hget.trans hctx)

/-! ### Skips (R86) -/

theorem State.skipSlot_of_failed {s : State} {q : LaunchQueue} (n : Nat) (h : q.failed = true) :
    s.skipSlot q n = s.holdSkip q.num n := by
  simp [State.skipSlot, h]

section
variable {s s1 s2 : State} {q : LaunchQueue} {cw : List W64} {h : QHead} {n : Nat}
variable (hf : q.failed = false) (hq : s.queueHead q = (s1, some (cw, h)))
include hf hq

/-- A skip of another slot than that of TAIL, or of one that is not reserved, is refused. -/
theorem State.skipSlot_refused (hn : n ≠ h.tail ∨ h.resv ≤ n) : s.skipSlot q n = s1.note 3 (q.num + 1024 * n) := by
  simp only [State.skipSlot, hf, hq, Bool.false_eq_true, if_false, if_pos hn]

theorem State.skipSlot_waits (ht : n = h.tail) (hr : n < h.resv)
    (hw : 16 ≤ q.skips.length ∨ s1.frontClosed (ctxSpace cw 0) (q.qbase + 8) = true) :
    s.skipSlot q n = s1.holdSkip q.num n := by
  have hn : ¬ (n ≠ h.tail ∨ h.resv ≤ n) := by omega
  simp only [State.skipSlot, hf, hq, Bool.false_eq_true, if_false, if_neg hn, if_pos hw]

/-- A skip that goes on moves TAIL and records its slot. -/
theorem State.skipSlot_done (ht : n = h.tail) (hr : n < h.resv) (hl : q.skips.length < 16)
    (hc : s1.frontClosed (ctxSpace cw 0) (q.qbase + 8) = false)
    (hp : s1.frontPut (ctxSpace cw 0) (q.qbase + 8) (leBytes 8 (n + 1)) = (s2, true)) :
    s.skipSlot q n = s2.modQueue q.num (fun x => { x with skips := x.skips ++ [BitVec.ofNat 64 n] }) := by
  have hn : ¬ (n ≠ h.tail ∨ h.resv ≤ n) := by omega
  have hw : ¬ (16 ≤ q.skips.length ∨ s1.frontClosed (ctxSpace cw 0) (q.qbase + 8) = true) :=
    not_or.mpr ⟨by omega, by rw [hc]; decide⟩
  simp only [State.skipSlot, hf, hq, hp, Bool.false_eq_true, if_false, if_neg hn, if_neg hw]

end

/-- However a skip ends, it changes its own queue alone, and nothing that registering fixed. -/
theorem State.skipSlot_same (s : State) (q : LaunchQueue) (n : Nat) : SameQueues q.num s (s.skipSlot q n) := by
  have hhead := s.queueHead_same q
  unfold State.skipSlot
  split
  · exact s.holdSkip_same _ _
  split
  next hq =>
    rw [hq] at hhead
    exact (State.holdSkip_same _ _ _).trans hhead
  next s1 cw h hq =>
    rw [hq] at hhead
    have hput := s1.frontPut_same q.num (ctxSpace cw 0) (q.qbase + 8) (leBytes 8 (n + 1))
    repeat' split
    next => exact (s1.note_same _ _ _).trans hhead
    next => exact (s1.holdSkip_same _ _).trans hhead
    next hp =>
      rw [hp] at hput
      exact (State.holdSkip_same _ _ _).trans ((State.failQueue_same _ q).trans (hput.trans hhead))
    next hp =>
      rw [hp] at hput
      exact (State.modQueue_same _ _ _ (by exact fun _ => rfl)).trans (hput.trans hhead)

/-- The skips that wait at a queue, checked again, change that queue alone, and nothing that registering fixed. -/
theorem State.retrySkips_same {s : State} {num : Nat} {q : LaunchQueue} (hq : mget? s.lqueues num = some q)
    (hnum : q.num = num) : SameQueues num s (s.retrySkips num) := by
  unfold State.retrySkips
  rw [hq]
  refine foldl_keeps (SameQueues num s) _ _ _ (s.modQueue_same _ _ (by exact fun _ => rfl)) (fun t k ht => ?_)
  split
  next => exact ht
  next q' hq' =>
    have hfix := ht.fixed
    rw [hq, hq'] at hfix
    have hnum' : q'.num = num := (congrArg Prod.fst (Option.some.inj hfix)).trans hnum
    exact (hnum' ▸ t.skipSlot_same q' k.toNat).trans ht

/-- With no skip waiting at a queue nothing is checked. -/
theorem State.retrySkips_of_none {s : State} {num : Nat} {q : LaunchQueue} (hq : mget? s.lqueues num = some q)
    (hw : q.waitSkips = []) : s.retrySkips num = s.modQueue num (fun x => { x with waitSkips := [] }) := by
  unfold State.retrySkips
  simp only [hq, hw, List.foldl_nil]

theorem State.recheckSkips_of_none {s : State} {q : LaunchQueue} (h : q.waitSkips = [] ∨ 16 ≤ q.skips.length) :
    s.recheckSkips q = s := by
  unfold State.recheckSkips
  rw [if_pos (by simpa [List.isEmpty_iff] using h)]

theorem execSkip_of_none {s : State} {num : Nat} (n : Nat) (h : mget? s.lqueues num = none) : execSkip num n s = .next s := by
  simp [execSkip, h]

theorem execSkip_of_some {s : State} {num : Nat} {q : LaunchQueue} (n : Nat) (h : mget? s.lqueues num = some q) :
    execSkip num n s = .next (s.skipSlot q n) := by
  simp [execSkip, h]

theorem execSkipDiscard_of_none {s : State} {num : Nat} (h : mget? s.lqueues num = none) : execSkipDiscard num s = .next s := by
  simp [execSkipDiscard, h]

theorem execSkipDiscard_of_failed {s : State} {num : Nat} {q : LaunchQueue} (h : mget? s.lqueues num = some q)
    (hf : q.failed = true) : execSkipDiscard num s = .next s := by
  simp [execSkipDiscard, h, hf]

/-- HEAD passes the skipped slot at which it stands. -/
theorem execSkipDiscard_done {s s1 s2 : State} {num : Nat} {q : LaunchQueue} {cw : List W64} {h : QHead}
    (hq : mget? s.lqueues num = some q) (hf : q.failed = false) (hh : s.queueHead q = (s1, some (cw, h)))
    (ht : h.head < h.tail) (hs : q.skips.contains (BitVec.ofNat 64 h.head) = true)
    (hc : s1.frontClosed (ctxSpace cw 0) (q.qbase + 16) = false)
    (hp : s1.frontPut (ctxSpace cw 0) (q.qbase + 16) (leBytes 8 (h.head + 1)) = (s2, true)) :
    execSkipDiscard num s = .next ((s2.modQueue num (fun x => { x with
      skips := x.skips.filter (fun k => k != BitVec.ofNat 64 h.head) })).retrySkips num) := by
  simp only [execSkipDiscard, hq, hf, hh, hp, hc, hs, LaunchQueue.skipped, Nat.not_le.mpr ht, Bool.not_true,
    Bool.false_eq_true, or_self, if_false]

/-- HEAD stands at no skipped slot: only the skips that wait are looked at again. -/
theorem execSkipDiscard_none {s s1 : State} {num : Nat} {q : LaunchQueue} {cw : List W64} {h : QHead}
    (hq : mget? s.lqueues num = some q) (hf : q.failed = false) (hh : s.queueHead q = (s1, some (cw, h)))
    (hn : h.tail ≤ h.head ∨ q.skips.contains (BitVec.ofNat 64 h.head) = false) :
    execSkipDiscard num s = .next (s1.recheckSkips q) := by
  have hcond : h.tail ≤ h.head ∨ (!q.skipped h.head) = true ∨ s1.frontClosed (ctxSpace cw 0) (q.qbase + 16) = true := by
    rcases hn with hn | hn
    · exact .inl hn
    · exact .inr (.inl (by rw [LaunchQueue.skipped, hn]; rfl))
  simp only [execSkipDiscard, hq, hf, hh, Bool.false_eq_true, if_false, if_pos hcond]

/-! ### Acceptance (R85, R87) -/

theorem execLaunchAccept_of_none {s : State} {num : Nat} (h : mget? s.lqueues num = none) :
    execLaunchAccept num s = .next s := by
  simp [execLaunchAccept, h]

/-- A record published at HEAD is copied into the launch of its handle, and HEAD moves on. -/
theorem execLaunchAccept_done {s s1 s2 s3 : State} {num lid : Nat} {q : LaunchQueue} {cw : List W64} {h : QHead} {bs : List Byte}
    (hq : mget? s.lqueues num = some q) (hl : s.freeHandle = some lid) (hf : q.failed = false) (hr : s.cur8.recovery = false)
    (hh : s.queueHead q = (s1, some (cw, h))) (hz : h.logsz ≤ 16) (ht : h.head < h.tail)
    (hs : q.skips.contains (BitVec.ofNat 64 h.head) = false) (hc : s1.frontClosed (ctxSpace cw 0) (q.qbase + 16) = false)
    (hg : s1.frontGet (ctxSpace cw 0) (q.slotVa h.logsz h.head) 64 = (s2, .ok bs))
    (hp : s2.frontPut (ctxSpace cw 0) (q.qbase + 16) (leBytes 8 (h.head + 1)) = (s3, true)) :
    ∃ t l, execLaunchAccept num s = .next t ∧ t.mem = s3.mem ∧ mget? t.launches lid = some l ∧
      l.rec_ = (List.range 8).map (word64 bs) ∧ l.qnum = num ∧ l.cancelled = false ∧
      l.rejected = (ctxBad cw || recordBad l.rec_) ∧ t.nextQueue = (num + 1) % 1024 := by
  simp only [execLaunchAccept, hq, hl, hf, hr, hh, hs, hc, hg, hp, LaunchQueue.skipped, Nat.not_lt.mpr hz, Nat.not_le.mpr ht,
    Bool.or_self, Bool.false_eq_true, or_self, if_false]
  exact ⟨_, _, rfl, rfl, (mget?_mset _ _ _ _).trans (if_pos rfl), rfl, rfl, rfl, rfl, rfl⟩

/-! ### Registering (R80, R83) -/

/-- A queue registered again has the base, context and tickets named, and keeps the slots that it had skipped. -/
theorem execQueueRegister_done (num qbase ctx tickets : Nat) (s : State) (hn : num < 1024) :
    ∃ t q, execQueueRegister num qbase ctx tickets s = .next t ∧
      mget? t.lqueues num = some q ∧ q.qbase = BitVec.ofNat 64 qbase ∧ q.ctx = ctx ∧ q.tickets = tickets ∧
      ((∀ o, mget? s.lqueues num = some o → o.waitSkips = []) → t.mem = s.mem ∧ q.failed = false ∧
        q.skips = ((mget? s.lqueues num).map LaunchQueue.skips).getD []) ∧
      ∀ m, m ≠ num → mget? t.lqueues m = mget? s.lqueues m := by
  unfold execQueueRegister
  rw [if_neg (by omega)]
  dsimp only
  generalize hq0 : LaunchQueue.mk num (BitVec.ofNat 64 qbase) ctx tickets false _ _ = q0
  generalize hs0 : ({ s with lqueues := mset s.lqueues num q0 } : State) = s0
  have hget : mget? s0.lqueues num = some q0 := by subst hs0; simp
  have hsame := State.retrySkips_same hget (by subst hq0; rfl)
  have hfix := hsame.fixed
  rw [hget] at hfix
  obtain ⟨q, hq, hfixq⟩ := Option.map_eq_some_iff.mp hfix
  subst hq0
  simp only [LaunchQueue.fixed, Prod.mk.injEq] at hfixq
  obtain ⟨-, hbase, hctx, htick⟩ := hfixq
  refine ⟨_, q, rfl, hq, hbase, hctx, htick, fun hw => ?_, fun m hm => ?_⟩
  · have hwait : ((mget? s.lqueues num).map LaunchQueue.waitSkips).getD [] = [] := by
      cases ho : mget? s.lqueues num with
      | none => rfl
      | some o => exact hw o ho
    rw [State.retrySkips_of_none hget hwait] at hq ⊢
    simp only [State.modQueue_lqueues, if_true, hget, Option.map_some, Option.some.injEq] at hq
    subst hq hs0
    exact ⟨State.modQueue_mem _ _ _, rfl, rfl⟩
  · rw [hsame.others m hm, ← hs0]
    simp [Ne.symm hm]

theorem execContextRegister_of_bad {pa : Nat} {s : State} (h : pa % 64 ≠ 0 ∨ 0x018000000000 < pa + 64) :
    execContextRegister pa s = .fault .reservedAddress := by
  have hbad : pa % 64 ≠ 0 ∨ (!inModule pa 64) = true := by
    simp [inModule, moduleEnd]
    omega
  unfold execContextRegister
  rw [if_pos hbad]

theorem execContextRegister_of_good {pa : Nat} (s : State) (ha : pa % 64 = 0) (hm : pa + 64 ≤ 0x018000000000) :
    execContextRegister pa s = .next (if s.contexts.any (fun c => c.pa == pa) then s
      else { s with contexts := s.contexts ++ [⟨pa, []⟩] }) := by
  have hgood : ¬ (pa % 64 ≠ 0 ∨ (!inModule pa 64) = true) := by
    simp [inModule, moduleEnd]
    omega
  unfold execContextRegister
  rw [if_neg hgood]
  split <;> rfl

/-! ### The command port (R92, R93) -/

/-- A field of a word, read as a bit vector and as a number. -/
theorem toNat_extractLsb'_eq_bitsN (w : W64) (lo n hi : Nat) (h : hi + 1 - lo = n) :
    (w.extractLsb' lo n).toNat = bitsN w.toNat hi lo := by
  rw [BitVec.extractLsb'_toNat, bitsN, h]

theorem extractLsb'_eq_zero_iff (w : W64) (lo n hi : Nat) (h : hi + 1 - lo = n) :
    w.extractLsb' lo n = 0 ↔ bitsN w.toNat hi lo = 0 := by
  rw [← toNat_extractLsb'_eq_bitsN w lo n hi h, ← BitVec.toNat_inj]
  rfl

@[simp] theorem State.curator_mem (s : State) (f : Curator → Curator) : (s.curator f).mem = s.mem := rfl
@[simp] theorem State.curator_placement (s : State) (f : Curator → Curator) : (s.curator f).placement = s.placement := rfl
@[simp] theorem State.curator_launches (s : State) (f : Curator → Curator) : (s.curator f).launches = s.launches := rfl
@[simp] theorem State.curator_groups (s : State) (f : Curator → Curator) : (s.curator f).groups = s.groups := rfl

@[simp] theorem State.answer_mem (s : State) (acc : Bool) (c e : Nat) : (s.answer acc c e).mem = s.mem := s.curator_mem _
@[simp] theorem State.answer_placement (s : State) (acc : Bool) (c e : Nat) : (s.answer acc c e).placement = s.placement :=
  s.curator_placement _
@[simp] theorem State.answer_launches (s : State) (acc : Bool) (c e : Nat) : (s.answer acc c e).launches = s.launches :=
  s.curator_launches _
@[simp] theorem State.answer_groups (s : State) (acc : Bool) (c e : Nat) : (s.answer acc c e).groups = s.groups :=
  s.curator_groups _

theorem State.answer_result (s : State) (acc : Bool) (cause entry : Nat) :
    (s.answer acc cause entry).cur8.result =
      BitVec.ofNat 64 (2 ^ 63 + (if acc then 2 ^ 62 else 0) + cause % 8 * 2 ^ 56 + entry % 4096) := by
  simp only [State.answer, State.curator, resultWord]

/-- What a cancel of a live launch does in its clock. -/
def State.cancelLive (s : State) (lid : Nat) : State :=
  let t := ((s.dropRecords lid).1.modLaunch lid (fun x => { x with cancelled := true })).answer true 0 (s.dropRecords lid).2
  { t with agenda := t.agenda ++ [.kill lid] }

/-- A live launch that is cancelled is marked, loses its pending records, and is killed from the next clock on. -/
theorem State.cancelLive_frame {s : State} {lid : Nat} {l : Launch} (hl : mget? s.launches lid = some l) :
    (s.cancelLive lid).agenda = s.agenda ++ [.kill lid] ∧ (s.cancelLive lid).mem = s.mem ∧
      (mget? (s.cancelLive lid).launches lid).map Launch.cancelled = some true ∧
      (s.cancelLive lid).placement = s.placement.filter (fun p => p.2.lid != lid) ∧
      (s.cancelLive lid).cur8.result = BitVec.ofNat 64 (2 ^ 63 + (if true then 2 ^ 62 else 0) + 0 % 8 * 2 ^ 56 +
        (s.placement.filter (fun p => p.2.lid == lid)).length % 4096) := by
  have hd : mget? (s.dropRecords lid).1.launches lid = some l := hl
  have hmod : (s.dropRecords lid).1.modLaunch lid (fun x => { x with cancelled := true }) =
      { (s.dropRecords lid).1 with launches := mset s.launches lid { l with cancelled := true } } := by
    unfold State.modLaunch
    rw [hd]
    rfl
  refine ⟨?_, ?_, ?_, ?_, State.answer_result _ _ _ _⟩
  all_goals simp only [State.cancelLive, hmod]
  · rfl
  · rfl
  · simp [State.answer, State.curator]
  · rfl

section
variable {s : State} {w0 w8 w16 w24 : W64}

/-- A command with reserved bits set, or of no operation of Table 4-9, is refused. -/
theorem State.command_refused (h : bitsN w0.toNat 61 12 ≠ 0 ∨ w8 ≠ 0 ∨ bitsN w0.toNat 63 62 = 0 ∨ bitsN w0.toNat 63 62 = 3 ∨
    (bitsN w0.toNat 63 62 = 1 ∧ bitsN w0.toNat 11 0 ≠ 0)) : s.command w0 w8 w16 w24 = s.answer false 7 0 := by
  unfold State.command
  dsimp only
  split
  next => rfl
  next hform =>
    rw [not_or, not_not, not_not] at hform
    obtain ⟨h1, h2⟩ := hform
    rcases h with h | h | h | h | ⟨h, hl⟩
    · exact absurd h1 h
    · exact absurd h2 h
    · simp [h]
    · simp [h]
    · simp [h, hl]

variable (hform : bitsN w0.toNat 61 12 = 0) (h8 : w8 = 0)
include hform h8

theorem State.command_bind (hop : bitsN w0.toNat 63 62 = 1) (hlid : bitsN w0.toNat 11 0 = 0) :
    s.command w0 w8 w16 w24 = if s.bindCause w16.toNat w24.toNat = 0 then s.placeRec w16.toNat w24.toNat
      else s.answer false (s.bindCause w16.toNat w24.toNat) 0 := by
  simp [State.command, hform, h8, hop, hlid]

/-- A cancel finds no launch, or one that is over (R97). -/
theorem State.command_cancel_over (hop : bitsN w0.toNat 63 62 = 2) (hl : ∀ l, mget? s.launches (bitsN w0.toNat 11 0) = some l →
    l.rejected = true ∨ s.allEnded (bitsN w0.toNat 11 0) l = true) :
    s.command w0 w8 w16 w24 = s.answer true 0 0 := by
  simp only [State.command, hform, h8, hop, ne_eq, not_true_eq_false, or_self, if_false, OfNat.ofNat_ne_one, if_true]
  split
  next => rfl
  next l h =>
    rw [if_pos (by simpa using hl l h)]

/-- A cancel of a live launch: its pending records go, it is marked, and its groups are killed from the next clock. -/
theorem State.command_cancel_live (hop : bitsN w0.toNat 63 62 = 2) {l : Launch}
    (hl : mget? s.launches (bitsN w0.toNat 11 0) = some l) (hr : l.rejected = false)
    (he : s.allEnded (bitsN w0.toNat 11 0) l = false) :
    s.command w0 w8 w16 w24 = s.cancelLive (bitsN w0.toNat 11 0) := by
  simp [State.command, State.cancelLive, hform, h8, hop, hl, hr, he]

end

/-- The checks of R92 begin with room in the table, then the time. -/
theorem State.bindCause_of_full {s : State} (start w : Nat) (h : 2048 ≤ s.placement.length) : s.bindCause start w = 1 := by
  simp only [State.bindCause, if_pos h]

theorem State.bindCause_of_late {s : State} {start : Nat} (w : Nat) (h : s.placement.length < 2048)
    (hs : start < s.clk + 2048) : s.bindCause start w = 2 := by
  simp only [State.bindCause, if_neg (Nat.not_le.mpr h), if_pos hs]

/-- The fields of an accepted record, from its two words (Table 4-5). -/
def acceptedRec (s : State) (start w : Nat) : BindRec :=
  { start := start, level := bitsN w 62 60, lid := bitsN w 59 48, grp := bitsN w 47 24, smask := bitsN w 23 20
    unit := bitsN w 19 11, res := bitN w 10, uid := s.opId, prepared := false }

/-- An accepted record takes the lowest free entry (R92). -/
theorem State.placeRec_frame {s : State} (start w : Nat) {e : Nat} (he : e < 2048) (hfree : mget? s.placement e = none)
    (hlow : ∀ x < e, (mget? s.placement x).isSome = true) :
    (s.placeRec start w).cur8.result =
        BitVec.ofNat 64 (2 ^ 63 + (if true then 2 ^ 62 else 0) + 0 % 8 * 2 ^ 56 + e % 4096) ∧ (s.placeRec start w).mem = s.mem ∧
      mget? (s.placeRec start w).placement e = some (acceptedRec s start w) := by
  have hfind : ((List.range 2048).find? (fun x => (mget? s.placement x).isNone)).getD 0 = e := by
    have h : (List.range 2048).find? (fun x => (mget? s.placement x).isNone) = some e := by
      rw [List.find?_range_eq_some]
      refine ⟨by simp [hfree], List.mem_range.mpr he, fun x hx => ?_⟩
      simpa [Option.isSome_iff_ne_none] using hlow x hx
    rw [h]
    rfl
  have hfold := foldl_same (fun t : State => (t.mem, t.placement)) (fun (t : State) (g : Nat × List Nat) =>
    if (acceptedRec s start w).res then t.modGroup (acceptedRec s start w).lid g.1 (fun x => { x with phase := .pending e })
    else { t with groups := t.groups ++
      [{ lid := (acceptedRec s start w).lid, grp := g.1, strands := [], phase := .pending e, faulted := false, fault := none }] })
    (acceptedRec s start w).groups
    { s with placement := mset s.placement e (acceptedRec s start w), opId := s.opId + 1 } (fun t g => by split <;> rfl)
  simp only [State.placeRec, hfind]
  refine ⟨State.answer_result _ _ _ _, (congrArg Prod.fst hfold :), (congrArg (fun x => mget? x.2 e) hfold :).trans ?_⟩
  simp

end Sys2Proof.Machine

open Sys2Proof.Machine

/-- Settles O57: each operation on a queue and each command of the port goes by its own rule. -/
theorem launchQueues : Obligations.LaunchQueues := by
  refine ⟨fun s pa num ctx tickets qbase n => ⟨fun h => execContextRegister_of_bad h,
    fun ha hm => execContextRegister_of_good s ha hm, fun h => if_pos h, fun h => execQueueRegister_done num qbase ctx tickets s h,
    ⟨_, rfl, State.modQueue_mem _ _ _, by simp⟩, ?_, fun hq => ⟨?_, ?_, ?_⟩, fun q hq hf => ⟨?_, ?_⟩,
    fun q s1 cw h hq hf hh => ⟨?_, ?_, ?_⟩, ?_, ?_⟩, ?_⟩
  · intro q lid s1 cw h s2 bs s3 hq hl hf hr hh hz ht hs hc hg hp
    exact execLaunchAccept_done hq hl hf hr hh hz ht hs hc hg hp
  · exact execLaunchAccept_of_none hq
  · exact execSkip_of_none n hq
  · exact execSkipDiscard_of_none hq
  · exact (execSkip_of_some n hq).trans (congrArg _ (State.skipSlot_of_failed n hf))
  · exact execSkipDiscard_of_failed hq hf
  · intro hn
    exact ⟨_, (execSkip_of_some n hq).trans (congrArg _ (State.skipSlot_refused hf hh hn)), rfl, rfl, rfl⟩
  · intro ht hr hw
    exact ⟨_, (execSkip_of_some n hq).trans (congrArg _ (State.skipSlot_waits hf hh ht hr hw)), State.modQueue_mem _ _ _,
      by simp [State.holdSkip]⟩
  · intro s2 ht hr hl hc hp
    refine ⟨_, (execSkip_of_some n hq).trans (congrArg _ (State.skipSlot_done hf hh ht hr hl hc hp)), State.modQueue_mem _ _ _,
      fun y hy => ?_⟩
    simp [hy]
  · intro q s1 cw h s2 y hq hf hh ht hs hc hp hy hw
    have hget : mget? (s2.modQueue num (fun x => { x with
        skips := x.skips.filter (fun k => k != BitVec.ofNat 64 h.head) })).lqueues num =
        some { y with skips := y.skips.filter (fun k => k != BitVec.ofNat 64 h.head) } := by simp [hy]
    refine ⟨_, (execSkipDiscard_done hq hf hh ht hs hc hp).trans (congrArg _ (State.retrySkips_of_none hget hw)), ?_, ?_⟩
    · rw [State.modQueue_mem, State.modQueue_mem]
    · rw [State.modQueue_lqueues, if_pos rfl, hget, Option.map_some, ← hw]
  · intro q s1 cw h hq hf hh hn hw
    exact (execSkipDiscard_none hq hf hh hn).trans (congrArg _ (State.recheckSkips_of_none hw))
  · intro s i w0 w8 w16 w24 hi
    have hexec : exec i s = .next (s.command w0 w8 w16 w24) := by rcases hi with rfl | rfl <;> rfl
    rw [hexec]
    simp only [extractLsb'_eq_zero_iff w0 12 50 61 rfl, toNat_extractLsb'_eq_bitsN w0 62 2 63 rfl,
      toNat_extractLsb'_eq_bitsN w0 0 12 11 rfl, ne_eq]
    refine ⟨fun h => ?_, fun hform h8 hop hlid => ⟨s.bindCause_of_full _ _, s.bindCause_of_late _, fun hc => ?_, ?_⟩,
      fun hform h8 hop => ⟨fun hl => ?_, fun l hl hr he => ?_⟩⟩
    · rw [State.command_refused h]
      exact ⟨_, rfl, State.answer_result _ _ _ _, s.answer_mem _ _ _, s.answer_placement _ _ _, s.answer_launches _ _ _⟩
    · rw [State.command_bind hform h8 hop hlid, if_neg hc]
      exact ⟨_, rfl, State.answer_result _ _ _ _, s.answer_placement _ _ _, s.answer_groups _ _ _, s.answer_mem _ _ _⟩
    · intro hc e he hfree hlow
      obtain ⟨hres, hmem, hrec⟩ := State.placeRec_frame w16.toNat w24.toNat he hfree hlow
      rw [State.command_bind hform h8 hop hlid, if_pos hc]
      refine ⟨_, _, rfl, hres, hmem, hrec, rfl, ?_, ?_, ?_, ?_, ?_, rfl, rfl⟩
      · exact (toNat_extractLsb'_eq_bitsN w24 60 3 62 rfl).symm
      · exact (toNat_extractLsb'_eq_bitsN w24 48 12 59 rfl).symm
      · exact (toNat_extractLsb'_eq_bitsN w24 24 24 47 rfl).symm
      · exact (toNat_extractLsb'_eq_bitsN w24 20 4 23 rfl).symm
      · exact (toNat_extractLsb'_eq_bitsN w24 11 9 19 rfl).symm
    · rw [State.command_cancel_over hform h8 hop hl]
      exact ⟨_, rfl, State.answer_result _ _ _ _, s.answer_placement _ _ _, s.answer_mem _ _ _⟩
    · rw [State.command_cancel_live hform h8 hop hl hr he]
      exact ⟨_, rfl, State.cancelLive_frame hl⟩

end

section
/-! What the Curator and the launch front-end keep of a module's work (clock, strands, launches, groups, records, saved groups),
apart from memory and from the storage of the units: clearing and granting that storage leaves it as it was. -/

namespace Sys2Proof.Machine

/-! ### Folds over a list whose elements do not touch each other -/

/-- Each step of a fold establishes `Q` of its own element where `Pre` holds of it, and leaves `Pre` and `Q` of the elements
apart from it: then `Q` holds of every element at the end. -/
theorem foldl_establishes {α β : Type} {apart : α → α → Prop} {Pre Q : α → β → Prop} {f : β → α → β}
    (hset : ∀ b a, Pre a b → Q a (f b a)) (hpre : ∀ b a a', apart a a' → Pre a' b → Pre a' (f b a))
    (hkeep : ∀ b a a', apart a a' → Q a b → Q a (f b a')) {l : List α} (hl : l.Pairwise apart) {b : β}
    (hb : ∀ a ∈ l, Pre a b) : ∀ a ∈ l, Q a (l.foldl f b) := by
  induction l generalizing b with
  | nil => simp
  | cons x r ih =>
    obtain ⟨hx, hr⟩ := List.pairwise_cons.mp hl
    have hxr : Q x (r.foldl f (f b x)) := List.foldlRecOn r f (hset b x (hb x (by simp))) (fun c hc a ha => hkeep c x a (hx a ha) hc)
    have hrest := ih hr (b := f b x) fun a ha => hpre b x a (hx a ha) (hb a (by simp [ha]))
    intro a ha
    rcases List.mem_cons.mp ha with rfl | ha
    · exact hxr
    · exact hrest a ha

/-- The places of a list without repeats have elements and numbers of their own. -/
theorem zipIdx_pairwise_ne {α : Type} {l : List α} (h : l.Nodup) :
    l.zipIdx.Pairwise (fun x y => x.1 ≠ y.1 ∧ x.2 ≠ y.2) := by
  rw [List.pairwise_iff_getElem]
  intro i j hi hj hij
  rw [List.getElem_zipIdx, List.getElem_zipIdx]
  simp only [List.length_zipIdx] at hi hj
  exact ⟨fun he => absurd (h.getElem_inj_iff.mp he) (by omega), by simp; omega⟩

/-! ### The ledger -/

/-- The state but for memory, the cores and the tasks' captures: what the Curator and the front-end keep of the module's work. -/
def State.ledger (s : State) : State := { s.offMemory with cores := [], tasks := [] }

theorem State.ledger_of_offMemory {s t : State} (h : t.offMemory = s.offMemory) : t.ledger = s.ledger :=
  (congrArg (fun x : State => { x with cores := [], tasks := [] }) h :)

@[simp] theorem State.modCore_ledger (s : State) (c : Nat) (f : Core → Core) : (s.modCore c f).ledger = s.ledger := rfl

@[simp] theorem State.releaseBanks_ledger (s : State) (c : Nat) (l : List (Nat × Nat)) : (s.releaseBanks c l).ledger = s.ledger :=
  foldl_same State.ledger _ _ _ fun _ _ => rfl

@[simp] theorem State.recaptureBanks_ledger (s : State) (c : Nat) (l : List (Nat × Nat)) :
    (s.recaptureBanks c l).ledger = s.ledger := foldl_same State.ledger _ _ _ fun _ _ => rfl

/-! ### Tile slots (R277, R293, R294) -/

@[simp] theorem State.freeSlot_ledger (s : State) (w k : Nat) : (s.freeSlot w k).ledger = s.ledger := rfl

@[simp] theorem State.releaseOwn_ledger (s : State) (w k : Nat) : (s.releaseOwn w k).ledger = s.ledger :=
  State.ledger_of_offMemory (foldl_same State.offMemory _ _ _ State.recall_offMemory)

theorem State.writeBack_ledger (s : State) (w k : Nat) : (s.writeBack w k).1.ledger = s.ledger := by
  unfold State.writeBack
  dsimp only
  split
  · rfl
  · split
    · rfl
    · exact s.releaseOwn_ledger w k

@[simp] theorem State.writeBackLazy_ledger (s : State) (w k : Nat) : (s.writeBackLazy w k).ledger = s.ledger := by
  have h := s.writeBack_ledger w k
  unfold State.writeBackLazy
  split
  next e => rw [e] at h; exact h
  next e => rw [e] at h; exact h

/-- Granting a core its park slots writes back and frees what stood there. -/
@[simp] theorem State.grantPark_ledger (s : State) (c : Nat) : (s.grantPark c).1.ledger = s.ledger := by
  have hfree (l : List Nat) : (l.foldl (fun (t : State) k =>
      if ((t.writeBackLazy (c / 8) k).slotOf (c / 8) k).v && !((t.writeBackLazy (c / 8) k).slotOf (c / 8) k).wbf
      then (t.writeBackLazy (c / 8) k).freeSlot (c / 8) k else t.writeBackLazy (c / 8) k) s).ledger = s.ledger := by
    refine foldl_same State.ledger _ _ _ fun t k => ?_
    split
    · exact (State.freeSlot_ledger _ _ _).trans (t.writeBackLazy_ledger _ k)
    · exact t.writeBackLazy_ledger _ k
  have hset (l : List Nat) (x : State → Nat → Slot) (t : State) :
      (l.foldl (fun (t : State) k => t.setSlot (c / 8) k (x t k)) t).ledger = t.ledger :=
    foldl_same State.ledger _ _ _ fun _ _ => rfl
  unfold State.grantPark
  dsimp only
  repeat' split
  · rfl
  · rfl
  · simp only [hset]
  · simp only [hset, State.modCore_ledger, hfree]

/-! ### A core's storage (R73, R94, R379) -/

@[simp] theorem State.freePark_ledger (s : State) (c : Nat) : (s.freePark c).ledger = s.ledger := by
  unfold State.freePark; split <;> rfl

@[simp] theorem State.clearCore_ledger (s : State) (c : Nat) (ctx : Option Nat) (banks : AMap Bank) :
    (s.clearCore c ctx banks).ledger = s.ledger := by
  unfold State.clearCore
  dsimp only
  split
  · rfl
  · exact s.freePark_ledger c

@[simp] theorem State.freshCore_ledger (s : State) (level c : Nat) (ctx : Option Nat) (banks : AMap Bank) :
    (s.freshCore level c ctx banks).ledger = s.ledger := by
  unfold State.freshCore
  dsimp only
  split
  · exact s.clearCore_ledger c ctx banks
  · exact s.clearCore_ledger c ctx banks

@[simp] theorem State.restorePark_ledger (s : State) (c : Nat) (img : Core) : (s.restorePark c img).ledger = s.ledger := by
  unfold State.restorePark
  split
  · exact s.grantPark_ledger c
  · rfl

@[simp] theorem State.restoreCore_ledger (s : State) (level lid c : Nat) (img : Core) :
    (s.restoreCore level lid c img).ledger = s.ledger := by
  unfold State.restoreCore
  dsimp only
  split
  · rw [State.restorePark_ledger, State.modCore_ledger, State.clearCore_ledger]
  · split
    · rfl
    · rw [State.restorePark_ledger, State.modCore_ledger, State.clearCore_ledger]

@[simp] theorem State.letGoTasks_ledger (s : State) (lid grp : Nat) : (s.letGoTasks lid grp).ledger = s.ledger := by
  refine foldl_same State.ledger _ _ _ fun t k => ?_
  split
  · exact foldl_same State.ledger _ _ _ fun _ _ => State.releaseBanks_ledger _ _ _
  · rfl

@[simp] theorem State.holdTasks_ledger (s : State) (lid grp : Nat) (at_ : Nat → Nat) :
    (s.holdTasks lid grp at_).ledger = s.ledger := by
  refine Eq.trans ?_ (foldl_same State.ledger (fun (s : State) (t : Task) => if t.bound.lid = lid ∧ t.bound.grp = grp then
    s.recaptureBanks (coreOf (at_ t.bound.pos)) (t.caps.map Prod.snd) else s) s.tasks s fun t k => ?_)
  · rfl
  · split
    · exact State.recaptureBanks_ledger _ _ _
    · rfl

/-- The walk of a strand's first line changes memory, walk caches and TLBs alone (R95). -/
@[simp] theorem State.warmFetch_ledger (s : State) (n : Nat) : (s.warmFetch n).ledger = s.ledger := by
  unfold State.warmFetch
  dsimp only
  split
  · rfl
  next b hb =>
    have hw := State.ledger_of_offMemory (s.walk_offMemory ⟨b.root, b.asid, b.tenant, b.part, dieOf n⟩
      (lineOf (s.strand n).front.pc) false)
    split
    · rfl
    · split
      next e => rw [e] at hw; exact hw
      next e => rw [e] at hw; exact hw

end Sys2Proof.Machine
end

section
/-! Preparing, starting and resuming groups (R92, R94, R95, R379, R381): what each leaves of the record, the cores, the strands and
the groups. -/

namespace Sys2Proof.Machine

/-! ### Preparation (R94) -/

@[simp] theorem State.modRec_mem (s : State) (e : Nat) (f : BindRec → BindRec) : (s.modRec e f).mem = s.mem := by
  unfold State.modRec; split <;> rfl

@[simp] theorem State.modRec_cores (s : State) (e : Nat) (f : BindRec → BindRec) : (s.modRec e f).cores = s.cores := by
  unfold State.modRec; split <;> rfl

@[simp] theorem State.modRec_placement (s : State) (e : Nat) (f : BindRec → BindRec) :
    mget? (s.modRec e f).placement e = (mget? s.placement e).map f := by
  unfold State.modRec
  cases h : mget? s.placement e <;> simp [h]

theorem State.prepare_of_none {s : State} {e : Nat} (h : mget? s.placement e = none) : s.prepare e = s := by
  simp [State.prepare, h]

/-- A record once prepared is not prepared again. -/
theorem State.prepare_of_prepared {s : State} {e : Nat} {b : BindRec} (h : mget? s.placement e = some b)
    (hp : b.prepared = true) : s.prepare e = s := by
  simp [State.prepare, h, hp]

/-- The images once read: they are loaded as banks. -/
theorem State.readImages_of_ok {s s1 s2 : State} {e : Nat} {b : BindRec} {l : Launch} {part : Nat} {rds rs rs' : List Rd}
    {m : AMap Bank} (hw : s.windowReads (.prep b.uid) part rds [] = (s1, rs, true)) (hr : s1.readHere rs = (s2, rs'))
    (hm : loadBanks l rs' = .ok m) :
    s.readImages e b l part rds = s2.modRec e (fun x => { x with prepared := true, rds := [], banks := m }) := by
  simp [State.readImages, hw, hr, hm]

section
variable {s s1 : State} {e : Nat} {b : BindRec} {l : Launch} {cw : List W64} {p : Plan}
variable (hb : mget? s.placement e = some b) (hp : b.prepared = false) (hpl : b.planned = false) (hres : b.res = false)
variable (hl : mget? s.launches b.lid = some l) (hc : s.readCtx ((s.ctxPaOf b.lid).getD 0) = (s1, cw))
variable (hplan : s1.planImages l (boundOf l cw b.grp 0) (wingOf (b.strands.headD 0)) = p)
include hb hp hpl hres hl hc hplan

/-- What goes wrong with the images is kept for the start. -/
theorem State.prepare_of_verdict {t : Trap} (hv : p.verdict = some t) :
    s.prepare e = p.st.modRec e (fun x => { x with prepared := true, fault := some t }) := by
  simp only [State.prepare, hb, hp, hpl, hres, hl, hc, hplan, hv, Bool.false_eq_true, if_false]

theorem State.prepare_of_plan (hv : p.verdict = none) (hm : p.miss = false) :
    s.prepare e = p.st.readImages e b l (ctxPart cw) p.rds := by
  simp only [State.prepare, hb, hp, hpl, hres, hl, hc, hplan, hv, hm, Bool.false_eq_true, if_false]

end

theorem imageBanks_of_zero {l : Launch} (h : bitsN (recWord l.rec_ 7) 39 32 = 0) : imageBanks l = [] := by
  simp [imageBanks, h, bitN]

/-- With no image named there is nothing to plan. -/
theorem State.planImages_of_none (s : State) {l : Launch} (b : Bound) (w : Nat) (h : bitsN (recWord l.rec_ 7) 39 32 = 0) :
    s.planImages l b w = { st := s } := by
  simp [State.planImages, imageBanks_of_zero h]

/-- And nothing to load. -/
theorem loadBanks_of_none {l : Launch} (rds : List Rd) (h : bitsN (recWord l.rec_ 7) 39 32 = 0) : loadBanks l rds = .ok [] := by
  simp [loadBanks, imageBanks_of_zero h]

/-! ### The groups of a record (R90, R95) -/

/-- The groups of a record have numbers and strands of their own. -/
theorem BindRec.groups_apart {b : BindRec} (h : b.strands.Nodup) :
    b.groups.Pairwise (fun x y => x.1 ≠ y.1 ∧ ∀ n ∈ y.2, n ∉ x.2) := by
  unfold BindRec.groups
  split
  · rw [List.pairwise_map]
    refine (zipIdx_pairwise_ne h).imp fun {x y} hxy => ⟨fun he => hxy.2 (by simpa using he), ?_⟩
    simpa using hxy.1.symm
  · exact List.pairwise_singleton _ _

theorem BindRec.groups_nodup {b : BindRec} (h : b.strands.Nodup) : ∀ x ∈ b.groups, x.2.Nodup := by
  unfold BindRec.groups
  split
  · intro x hx
    obtain ⟨p, -, rfl⟩ := List.mem_map.mp hx
    exact List.nodup_singleton _
  · intro x hx
    rw [List.mem_singleton.mp hx]
    exact h

/-- Setting the state of a launch's group shows in the groups of that number. -/
theorem State.modGroup_shows {s : State} {lid grp : Nat} {f : Group → Group} {P : Group → Prop} (hP : ∀ g, P (f g)) :
    ∀ g ∈ (s.modGroup lid grp f).groups, g.lid = lid → g.grp = grp → P g := by
  intro g hg hlid hgrp
  obtain ⟨g0, -, rfl⟩ := List.mem_map.mp hg
  by_cases h : g0.lid = lid ∧ g0.grp = grp
  · rw [if_pos h]
    exact hP g0
  · rw [if_neg h] at hlid hgrp
    exact absurd ⟨hlid, hgrp⟩ h

/-- And in those of no other number. -/
theorem State.modGroup_keeps {s : State} {lid grp grp' : Nat} {f : Group → Group} (hf : ∀ g, (f g).grp = g.grp)
    (hne : grp' ≠ grp) {P : Group → Prop} (hs : ∀ g ∈ s.groups, g.lid = lid → g.grp = grp → P g) :
    ∀ g ∈ (s.modGroup lid grp' f).groups, g.lid = lid → g.grp = grp → P g := by
  intro g hg hlid hgrp
  obtain ⟨g0, hg0, rfl⟩ := List.mem_map.mp hg
  by_cases h : g0.lid = lid ∧ g0.grp = grp'
  · rw [if_pos h, hf] at hgrp
    exact absurd (h.2.symm.trans hgrp) hne
  · rw [if_neg h] at hlid hgrp ⊢
    exact hs g0 hg0 hlid hgrp

/-! ### Launches -/

theorem State.modLaunch_launches (s : State) (lid m : Nat) (f : Launch → Launch) :
    mget? (s.modLaunch lid f).launches m = if lid = m then (mget? s.launches m).map f else mget? s.launches m := by
  unfold State.modLaunch
  by_cases hm : lid = m
  · subst hm
    cases h : mget? s.launches lid <;> simp [h]
  · cases h : mget? s.launches lid <;> simp [hm]

/-- The state but for its launches, and but for its launches and groups. -/
def State.offLaunches (s : State) : State := { s with launches := [] }
def State.offGroups (s : State) : State := { s.offLaunches with groups := [] }

@[simp] theorem State.modLaunch_offLaunches (s : State) (lid : Nat) (f : Launch → Launch) :
    (s.modLaunch lid f).offLaunches = s.offLaunches := by
  unfold State.modLaunch; split <;> rfl

@[simp] theorem State.recordFault_offLaunches (s : State) (lid : Nat) (f : FirstFault) :
    (s.recordFault lid f).offLaunches = s.offLaunches := by
  unfold State.recordFault
  dsimp only
  repeat' split
  all_goals rfl

/-! ### A start that fails (R94, R391) -/

/-- A group that could not be prepared ends FAULTED, and nothing else changes but its launch. -/
theorem State.failGroup_offLaunches (s : State) (lid grp : Nat) (t : Trap) : (s.failGroup lid grp t).offLaunches =
    (s.modGroup lid grp (fun x => { x with phase := .ended 2, strands := [] })).offLaunches := by
  unfold State.failGroup
  rw [State.modLaunch_offLaunches]
  exact (congrArg (fun x : State => x.modGroup lid grp (fun g => { g with phase := .ended 2, strands := [] }))
    (s.recordFault_offLaunches lid _) :)

theorem State.failGroup_groups (s : State) (lid grp : Nat) (t : Trap) : (s.failGroup lid grp t).groups =
    (s.modGroup lid grp (fun x => { x with phase := .ended 2, strands := [] })).groups :=
  (congrArg State.groups (s.failGroup_offLaunches lid grp t) :)

theorem State.failGroup_offGroups (s : State) (lid grp : Nat) (t : Trap) : (s.failGroup lid grp t).offGroups = s.offGroups :=
  (congrArg (fun x : State => { x with groups := [] }) (s.failGroup_offLaunches lid grp t) :)

/-- So every group of a record whose images could not be had ends FAULTED. -/
theorem failGroups_ended (s : State) {b : BindRec} (lid : Nat) (t : Trap) (h : b.groups.Pairwise (fun x y => x.1 ≠ y.1)) :
    ∀ x ∈ b.groups, ∀ g ∈ (b.groups.foldl (fun s g => s.failGroup lid g.1 t) s).groups, g.lid = lid → g.grp = x.1 →
      g.phase = .ended 2 := by
  refine foldl_establishes (Pre := fun _ _ => True) (apart := fun x y => x.1 ≠ y.1)
    (Q := fun (x : Nat × List Nat) (t : State) => ∀ g ∈ t.groups, g.lid = lid → g.grp = x.1 → g.phase = .ended 2)
    (fun s x _ => ?_) (fun _ _ _ _ _ => trivial) (fun s x y hxy hs => ?_) h (fun _ _ => trivial)
  · rw [State.failGroup_groups]
    exact State.modGroup_shows (by exact fun _ => rfl)
  · rw [State.failGroup_groups]
    exact State.modGroup_keeps (by exact fun _ => rfl) hxy.symm hs

end Sys2Proof.Machine
end

section
/-! The start of a group (R94, R95, Table 4-6): the cores that change owner, the strands at their places. -/

namespace Sys2Proof.Machine

/-! ### Cores that change owner (R73, R94, R379) -/

theorem State.freePark_core_of_ne (s : State) {c d : Nat} (h : c ≠ d) : (s.freePark c).core d = s.core d := by
  unfold State.freePark
  split
  · rw [State.core_modCore, if_neg h, State.core_modWing]
  · rfl

theorem State.clearCore_core (s : State) (c d : Nat) (ctx : Option Nat) (banks : AMap Bank) : (s.clearCore c ctx banks).core d =
    ((if (s.core c).ctx = ctx then s else s.freePark c).modCore c (fun k => k.cleared ctx banks)).core d := rfl

theorem State.clearCore_core_of_ne (s : State) {c d : Nat} (ctx : Option Nat) (banks : AMap Bank) (h : c ≠ d) :
    (s.clearCore c ctx banks).core d = s.core d := by
  rw [State.clearCore_core, State.core_modCore, if_neg h]
  split
  · rfl
  · exact s.freePark_core_of_ne h

theorem State.freshCore_core_of_ne (s : State) {c d : Nat} (level : Nat) (ctx : Option Nat) (banks : AMap Bank) (h : c ≠ d) :
    (s.freshCore level c ctx banks).core d = s.core d := by
  unfold State.freshCore
  dsimp only
  split
  · rw [State.core_modCore, if_neg h, s.clearCore_core_of_ne ctx banks h]
  · exact s.clearCore_core_of_ne ctx banks h

/-- A core that takes a new owner holds the banks given, no gang, and clear shared objects. -/
theorem State.clearCore_core_self (s : State) (c : Nat) (ctx : Option Nat) (banks : AMap Bank) :
    ((s.clearCore c ctx banks).core c).banks = banks ∧ ((s.clearCore c ctx banks).core c).gang = Gang.reset ∧
      ((s.clearCore c ctx banks).core c).join = 0 ∧ ((s.clearCore c ctx banks).core c).sems = [] ∧
      ((s.clearCore c ctx banks).core c).muts = [] := by
  rw [State.clearCore_core, State.core_modCore, if_pos rfl]
  exact ⟨rfl, rfl, rfl, rfl, rfl⟩

/-- What a fresh group finds in a core that changes owner: what `old` held of the shared objects where a saved strand of the
context may come back to them (R379). -/
structure FreshFor (level : Nat) (owned : Prop) (old new : Core) (banks : AMap Bank) : Prop where
  banks : new.banks = banks
  gang : new.gang = Gang.reset
  kept : level = 0 → owned → new.join = old.join ∧ new.sems = old.sems ∧ new.muts = old.muts
  cleared : ¬ (level = 0 ∧ owned) → new.join = 0 ∧ new.sems = [] ∧ new.muts = []

theorem State.freshCore_core (s : State) (level c : Nat) (ctx : Option Nat) (banks : AMap Bank) :
    FreshFor level ((s.core c).ctx = ctx ∧ s.savedStrand ctx = true) (s.core c) ((s.freshCore level c ctx banks).core c) banks := by
  obtain ⟨hbanks, hgang, hjoin, hsems, hmuts⟩ := s.clearCore_core_self c ctx banks
  unfold State.freshCore
  dsimp only
  split
  next h =>
    rw [State.core_modCore, if_pos rfl]
    exact ⟨hbanks, hgang, fun _ _ => ⟨rfl, rfl, rfl⟩, fun hn => absurd h hn⟩
  next h => exact ⟨hbanks, hgang, fun h0 hk => absurd ⟨h0, hk⟩ h, fun _ => ⟨hjoin, hsems, hmuts⟩⟩

/-- All the cores that change owner at a start. -/
theorem State.freshCores_core (s : State) (level : Nat) (ctx : Option Nat) (banks : AMap Bank) {cs : List Nat} (hcs : cs.Nodup) :
    (∀ c ∈ cs, FreshFor level ((s.core c).ctx = ctx ∧ s.savedStrand ctx = true) (s.core c)
      ((cs.foldl (fun s c => s.freshCore level c ctx banks) s).core c) banks) ∧
    ∀ c, c ∉ cs → (cs.foldl (fun s c => s.freshCore level c ctx banks) s).core c = s.core c := by
  constructor
  · refine foldl_establishes (apart := fun c d => c ≠ d) (Pre := fun c (t : State) => t.core c = s.core c ∧ t.ledger = s.ledger)
      (Q := fun c (t : State) => FreshFor level ((s.core c).ctx = ctx ∧ s.savedStrand ctx = true) (s.core c) (t.core c) banks)
      (fun t c ht => ?_) (fun t c d hcd ht => ⟨?_, ?_⟩) (fun t c d hcd ht => ?_) hcs (fun c _ => ⟨rfl, rfl⟩)
    · have hsaved : t.savedStrand ctx = s.savedStrand ctx := (congrArg (fun x : State => x.savedStrand ctx) ht.2 :)
      rw [← ht.1, ← hsaved]
      exact t.freshCore_core level c ctx banks
    · rw [t.freshCore_core_of_ne level ctx banks hcd, ht.1]
    · rw [t.freshCore_ledger, ht.2]
    · rw [t.freshCore_core_of_ne level ctx banks hcd.symm]
      exact ht
  · intro c hc
    exact List.foldlRecOn (motive := fun t : State => t.core c = s.core c) cs _ rfl fun t ht d hd =>
      (t.freshCore_core_of_ne level ctx banks (ne_of_mem_of_not_mem hd hc)).trans ht

theorem State.freshCores_ledger (s : State) (level : Nat) (ctx : Option Nat) (banks : AMap Bank) (cs : List Nat) :
    (cs.foldl (fun s c => s.freshCore level c ctx banks) s).ledger = s.ledger :=
  foldl_same State.ledger _ _ _ fun t c => t.freshCore_ledger level c ctx banks

/-! ### Strands -/

/-- Strands set at the places of a list show there. -/
theorem setStrands_strand (s : State) (f : Nat → Nat → Strand) {ns : List Nat} (hns : ns.Nodup) {p n : Nat}
    (hp : ns[p]? = some n) : (ns.zipIdx.foldl (fun (s : State) p => s.setStrand p.1 (f p.1 p.2)) s).strand n = f n p := by
  refine foldl_establishes (Pre := fun _ _ => True) (Q := fun (x : Nat × Nat) (t : State) => t.strand x.1 = f x.1 x.2)
    (fun t x _ => by simp) (fun _ _ _ _ _ => trivial) (fun t x y hxy ht => ?_) (zipIdx_pairwise_ne hns)
    (fun _ _ => trivial) (n, p) (List.mem_zipIdx_iff_getElem?.mpr hp)
  rw [State.strand_setStrand, if_neg hxy.1.symm]
  exact ht

theorem setStrands_strand_of_not_mem (s : State) (f : Nat → Nat → Strand) {ns : List Nat} {n : Nat} (hn : n ∉ ns) :
    (ns.zipIdx.foldl (fun (s : State) p => s.setStrand p.1 (f p.1 p.2)) s).strand n = s.strand n := by
  refine List.foldlRecOn (motive := fun t : State => t.strand n = s.strand n) _ _ rfl fun t ht x hx => ?_
  have hx' : x.1 ∈ ns := List.fst_mem_of_mem_zipIdx hx
  rw [State.strand_setStrand, if_neg (ne_of_mem_of_not_mem hx' hn)]
  exact ht

/-- A core but for its TLB. -/
def Core.offTlb (c : Core) : Core := { c with tlb := [] }

theorem State.warmFetch_core (s : State) (n c : Nat) : ((s.warmFetch n).core c).offTlb = (s.core c).offTlb := by
  have hcore {t : State} (h : t.offMemory = s.offMemory) : t.core c = s.core c := (congrArg (fun x : State => x.core c) h :)
  unfold State.warmFetch
  dsimp only
  split
  · rfl
  next b hb =>
    have hw := s.walk_offMemory ⟨b.root, b.asid, b.tenant, b.part, dieOf n⟩ (lineOf (s.strand n).front.pc) false
    split
    · rfl
    · split
      next e =>
        rw [e] at hw
        rw [State.core_modCore]
        split
        next hc => rw [← hcore hw, ← hc]; rfl
        next => exact congrArg Core.offTlb (hcore hw)
      next e =>
        rw [e] at hw
        exact congrArg Core.offTlb (hcore hw)

/-! ### A group (R95) -/

theorem State.startGroup_core (s : State) (l : Launch) (cw : List W64) (grp : Nat) (ns : List Nat) (c : Nat) :
    ((s.startGroup l cw grp ns).core c).offTlb = (s.core c).offTlb := by
  unfold State.startGroup
  refine (congrArg (fun x : State => (x.core c).offTlb) (State.modLaunch_offLaunches _ l.lid _) :).trans ?_
  refine (foldl_same (fun x : State => (x.core c).offTlb) State.warmFetch ns _ fun t n => t.warmFetch_core n c).trans ?_
  exact foldl_same (fun x : State => (x.core c).offTlb) _ _ _ fun t p => rfl

/-- But for launches, memory and the units' storage a start sets the strands at their places and the group's state. -/
theorem State.startGroup_offLaunches (s : State) (l : Launch) (cw : List W64) (grp : Nat) (ns : List Nat) :
    (s.startGroup l cw grp ns).ledger.offLaunches =
      ((ns.zipIdx.foldl (fun (s : State) p => s.setStrand p.1 (startStrand l cw p.1 grp p.2)) s).modGroup l.lid grp
        (fun x => { x with phase := .running, strands := ns })).ledger.offLaunches := by
  unfold State.startGroup
  refine (congrArg State.ledger (State.modLaunch_offLaunches _ l.lid _) :).trans ?_
  exact (congrArg (fun x : State => (x.modGroup l.lid grp (fun x => { x with phase := .running, strands := ns })).offLaunches)
    (foldl_same State.ledger State.warmFetch ns _ State.warmFetch_ledger) :)

theorem State.startGroup_groups (s : State) (l : Launch) (cw : List W64) (grp : Nat) (ns : List Nat) :
    (s.startGroup l cw grp ns).groups =
      (s.modGroup l.lid grp (fun x => { x with phase := .running, strands := ns })).groups := by
  refine (congrArg State.groups (s.startGroup_offLaunches l cw grp ns) :).trans ?_
  exact (congrArg (fun gs => ({ s with groups := gs }.modGroup l.lid grp (fun x => { x with phase := .running, strands := ns })).groups)
    (foldl_same State.groups (fun (s : State) p => s.setStrand p.1 (startStrand l cw p.1 grp p.2)) ns.zipIdx s fun _ _ => rfl) :)

theorem State.startGroup_placement (s : State) (l : Launch) (cw : List W64) (grp : Nat) (ns : List Nat) :
    (s.startGroup l cw grp ns).placement = s.placement :=
  (congrArg State.placement (s.startGroup_offLaunches l cw grp ns) :).trans (foldl_same State.placement _ _ _ fun _ _ => rfl)

theorem State.startGroup_strand (s : State) (l : Launch) (cw : List W64) (grp : Nat) (ns : List Nat) (n : Nat) :
    (s.startGroup l cw grp ns).strand n =
      (ns.zipIdx.foldl (fun (s : State) p => s.setStrand p.1 (startStrand l cw p.1 grp p.2)) s).strand n :=
  (congrArg (fun x : State => x.strand n) (s.startGroup_offLaunches l cw grp ns) :)

/-- What the start of a group leaves of it: it runs on its strands, each in its start state. -/
structure StartedAs (l : Launch) (cw : List W64) (x : Nat × List Nat) (t : State) : Prop where
  running : ∀ g ∈ t.groups, g.lid = l.lid → g.grp = x.1 → g.phase = .running ∧ g.strands = x.2
  strands : ∀ p n, x.2[p]? = some n → t.strand n = startStrand l cw n x.1 p

/-- The groups of a record, started one after another, all run. -/
theorem startGroups_started (s : State) {b : BindRec} (l : Launch) (cw : List W64) (h : b.strands.Nodup) :
    ∀ x ∈ b.groups, StartedAs l cw x (b.groups.foldl (fun s g => s.startGroup l cw g.1 g.2) s) := by
  refine foldl_establishes (Pre := fun (x : Nat × List Nat) (_ : State) => x.2.Nodup) (fun t x hx => ⟨?_, ?_⟩) (fun _ _ _ _ hx => hx)
    (fun t x y hxy ht => ⟨?_, fun p n hp => ?_⟩) (b.groups_apart h) (b.groups_nodup h)
  · rw [State.startGroup_groups]
    exact State.modGroup_shows (by exact fun _ => ⟨rfl, rfl⟩)
  · intro p n hp
    rw [State.startGroup_strand]
    exact setStrands_strand t (fun n p => startStrand l cw n x.1 p) hx hp
  · rw [State.startGroup_groups]
    exact State.modGroup_keeps (by exact fun _ => rfl) hxy.1.symm ht.running
  · have hn : n ∉ y.2 := fun hy => hxy.2 n hy (List.mem_of_getElem? hp)
    rw [State.startGroup_strand, setStrands_strand_of_not_mem t (fun n p => startStrand l cw n y.1 p) hn]
    exact ht.strands p n hp

/-! ### A due record (R92, R94, R95) -/

theorem nodup_eraseDups (l : List Nat) : l.eraseDups.Nodup := by
  induction hn : l.length using Nat.strong_induction_on generalizing l with
  | _ n ih =>
    cases l with
    | nil => simp
    | cons a r =>
      rw [List.eraseDups_cons, List.nodup_cons]
      refine ⟨fun ha => ?_, ih _ ?_ _ rfl⟩
      · simpa using List.mem_eraseDups.mp ha
      · rw [← hn, List.length_cons]
        exact Nat.lt_succ_of_le (List.length_filter_le _ _)

theorem State.newCores_nodup (s : State) (b : BindRec) : (s.newCores b).Nodup :=
  (nodup_eraseDups (b.strands.map coreOf)).filter _

theorem State.startEntry_of_none {s : State} {e : Nat} (h : mget? s.placement e = none) : s.startEntry e = s := by
  simp [State.startEntry, h]

theorem State.startEntry_of_not_due {s : State} {e : Nat} {b : BindRec} (h : mget? s.placement e = some b)
    (hd : s.clk < b.start ∨ b.res = true) : s.startEntry e = s := by
  simp only [State.startEntry, h, if_pos hd]

/-- The cores that change owner at the start of record `b`, at entry `e`, have done so. -/
def State.coresTaken (s : State) (e : Nat) (b : BindRec) : State :=
  (s.newCores b).foldl (fun (t : State) c => t.freshCore b.level c (s.ctxPaOf b.lid) b.banks)
    { s with placement := mdel s.placement e }

section
variable {s : State} {e : Nat} {b : BindRec} {l : Launch}
variable (hb : mget? s.placement e = some b) (hp : b.prepared = true) (hr : b.res = false) (hd : b.start ≤ s.clk)
variable (hl : mget? s.launches b.lid = some l)
include hb hp hr hd hl

/-- A due record whose images are there, or are wanted by no core, starts its groups. -/
theorem State.startEntry_starts (hf : s.newCores b = [] ∨ b.fault = none) :
    s.startEntry e = b.groups.foldl (fun t g => t.startGroup l (s.launchCtx l) g.1 g.2) (s.coresTaken e b) := by
  have hdue : ¬ (s.clk < b.start ∨ b.res = true) := by simp [hr, hd]
  have hfault : (if (s.newCores b).isEmpty then none else b.fault) = none := by
    rcases hf with hf | hf <;> simp [hf]
  simp only [State.startEntry, hb, if_neg hdue, State.prepare_of_prepared hb hp, hl, hp, Bool.not_true, Bool.false_eq_true,
    if_false, hfault]
  rfl

/-- A due record whose images could not be had fails its groups. -/
theorem State.startEntry_fails {f : Trap} (hc : s.newCores b ≠ []) (hf : b.fault = some f) :
    s.startEntry e = b.groups.foldl (fun t g => t.failGroup b.lid g.1 f) { s with placement := mdel s.placement e } := by
  have hdue : ¬ (s.clk < b.start ∨ b.res = true) := by simp [hr, hd]
  have hfault : (if (s.newCores b).isEmpty then none else b.fault) = some f := by
    rw [if_neg (by simpa using hc), hf]
  simp only [State.startEntry, hb, if_neg hdue, State.prepare_of_prepared hb hp, hl, hp, Bool.not_true, Bool.false_eq_true,
    if_false, hfault]

end

/-- What the start of a record leaves of a core: its new owner's state, or what it held. -/
theorem State.startGroups_core (s : State) (e : Nat) (b : BindRec) (l : Launch) (cw : List W64) (c : Nat) :
    let t := b.groups.foldl (fun (t : State) g => t.startGroup l cw g.1 g.2) (s.coresTaken e b)
    (c ∈ s.newCores b → FreshFor b.level ((s.core c).ctx = s.ctxPaOf b.lid ∧ s.savedStrand (s.ctxPaOf b.lid) = true)
      (s.core c) (t.core c).offTlb b.banks) ∧
    (c ∉ s.newCores b → (t.core c).offTlb = (s.core c).offTlb) := by
  intro t
  have ht : (t.core c).offTlb = ((s.coresTaken e b).core c).offTlb :=
    foldl_same (fun x : State => (x.core c).offTlb) _ _ _ fun u g => u.startGroup_core l cw g.1 g.2 c
  obtain ⟨hin, hout⟩ := State.freshCores_core { s with placement := mdel s.placement e } b.level (s.ctxPaOf b.lid) b.banks
    (s.newCores_nodup b)
  rw [ht]
  refine ⟨fun hc => ?_, fun hc => congrArg Core.offTlb (hout c hc)⟩
  obtain ⟨hbanks, hgang, hkept, hcleared⟩ := hin c hc
  exact ⟨hbanks, hgang, hkept, hcleared⟩

theorem State.startGroups_placement (s : State) (e : Nat) (b : BindRec) (l : Launch) (cw : List W64) :
    (b.groups.foldl (fun (t : State) g => t.startGroup l cw g.1 g.2) (s.coresTaken e b)).placement = mdel s.placement e :=
  (foldl_same State.placement _ _ _ fun t (g : Nat × List Nat) => t.startGroup_placement l cw g.1 g.2).trans
    (congrArg State.placement (State.freshCores_ledger _ _ _ _ _) :)

end Sys2Proof.Machine
end

section
/-! The resume of a saved group (R379, R381): its strands go back to their places, and its image is gone. -/

namespace Sys2Proof.Machine

/-! ### Strands put back (R381) -/

/-- The state but for memory, the units' storage and the strands. -/
def State.offStrands (s : State) : State := { s.ledger with strands := [] }

/-- What a strand of group `grp` resumes with: its launch, its group, where the strands of its group stand now, the images. -/
structure Resume where
  l : Launch
  cw : List W64
  grp : Nat
  places : Nat → Nat
  images : AMap Strand

/-- One strand of a saved group is put back at its place: strand and position. -/
def State.putBack (r : Resume) (s : State) (x : Nat × Nat) : State :=
  match mget? r.images x.2 with
  | some st => (s.setStrand x.1 (st.resumed (boundOf r.l r.cw r.grp x.2) r.places s.clk)).recaptureBanks (coreOf x.1) st.capsHeld
  | none => s

theorem State.putBack_offStrands (r : Resume) (s : State) (x : Nat × Nat) : (s.putBack r x).offStrands = s.offStrands := by
  unfold State.putBack
  split
  · exact (congrArg (fun y : State => { y with strands := [] }) (State.recaptureBanks_ledger _ _ _) :)
  · rfl

theorem State.recaptureBanks_strand (s : State) (c : Nat) (l : List (Nat × Nat)) (n : Nat) :
    (s.recaptureBanks c l).strand n = s.strand n :=
  (congrArg (fun x : State => x.strand n) (s.recaptureBanks_ledger c l) :)

theorem State.putBack_strand_of_some {r : Resume} {s : State} {n p : Nat} {img : Strand} (h : mget? r.images p = some img) :
    (s.putBack r (n, p)).strand n = img.resumed (boundOf r.l r.cw r.grp p) r.places s.clk := by
  simp only [State.putBack, h, State.recaptureBanks_strand, State.strand_setStrand, if_true]

theorem State.putBack_strand_of_ne (r : Resume) (s : State) {x : Nat × Nat} {n : Nat} (h : x.1 ≠ n) :
    (s.putBack r x).strand n = s.strand n := by
  unfold State.putBack
  split
  · rw [State.recaptureBanks_strand, State.strand_setStrand, if_neg h]
  · rfl

theorem State.putBackAll_offStrands (r : Resume) (s : State) (l : List (Nat × Nat)) :
    (l.foldl (State.putBack r) s).offStrands = s.offStrands := foldl_same State.offStrands _ _ _ (State.putBack_offStrands r)

/-- The strands of a list are put back at their places, with the clock as it stands. -/
theorem putBackAll_strand {r : Resume} (s : State) {ns : List Nat} (hns : ns.Nodup) {p n : Nat} (hp : ns[p]? = some n) {img : Strand}
    (h : mget? r.images p = some img) :
    (ns.zipIdx.foldl (State.putBack r) s).strand n = img.resumed (boundOf r.l r.cw r.grp p) r.places s.clk := by
  refine foldl_establishes (Pre := fun _ (t : State) => t.clk = s.clk) (Q := fun (x : Nat × Nat) (t : State) => ∀ img,
      mget? r.images x.2 = some img → t.strand x.1 = img.resumed (boundOf r.l r.cw r.grp x.2) r.places s.clk)
    (fun t x ht img hx => ?_) (fun t x y hxy ht => ?_) (fun t x y hxy ht img hx => ?_) (zipIdx_pairwise_ne hns)
    (fun _ _ => rfl) (n, p) (List.mem_zipIdx_iff_getElem?.mpr hp) img h
  · rw [← ht]
    exact State.putBack_strand_of_some hx
  · exact (congrArg State.clk (t.putBack_offStrands r x) :).trans ht
  · rw [t.putBack_strand_of_ne r hxy.1.symm]
    exact ht img hx

theorem putBackAll_strand_of_not_mem (r : Resume) (s : State) {ns : List Nat} {n : Nat} (hn : n ∉ ns) :
    (ns.zipIdx.foldl (State.putBack r) s).strand n = s.strand n :=
  List.foldlRecOn (motive := fun t : State => t.strand n = s.strand n) _ _ rfl fun t ht _ hx =>
    (t.putBack_strand_of_ne r (ne_of_mem_of_not_mem (List.fst_mem_of_mem_zipIdx hx) hn)).trans ht

/-! ### A group resumed (R381) -/

/-- The cores of a saved group restored where its image says (R379). -/
def State.coresRestored (s : State) (level : Nat) (l : Launch) (grp : Nat) (ns : List Nat) (sv : SavedGroup) : State :=
  ((ns.map coreOf).eraseDups).zipIdx.foldl (fun (s : State) p => match mget? sv.cores p.2 with
    | some c => s.restoreCore level l.lid p.1 c
    | none => s) (s.letGoTasks l.lid grp)

theorem State.coresRestored_ledger (s : State) (level : Nat) (l : Launch) (grp : Nat) (ns : List Nat) (sv : SavedGroup) :
    (s.coresRestored level l grp ns sv).ledger = s.ledger := by
  refine (foldl_same State.ledger _ _ _ fun t p => ?_).trans (s.letGoTasks_ledger l.lid grp)
  split
  · exact t.restoreCore_ledger _ _ _ _
  · rfl

/-- What the strands of a group resume with. -/
def resumeOf (l : Launch) (cw : List W64) (grp : Nat) (ns : List Nat) (sv : SavedGroup) : Resume :=
  ⟨l, cw, grp, fun p => (ns.drop p).headD 0, sv.strands⟩

/-- The strands of a saved group back at their places, its cores restored. -/
def State.strandsRestored (s : State) (level : Nat) (l : Launch) (cw : List W64) (grp : Nat) (ns : List Nat) (sv : SavedGroup) :
    State :=
  ns.zipIdx.foldl (State.putBack (resumeOf l cw grp ns sv)) (s.coresRestored level l grp ns sv)

theorem State.strandsRestored_offStrands (s : State) (level : Nat) (l : Launch) (cw : List W64) (grp : Nat) (ns : List Nat)
    (sv : SavedGroup) : (s.strandsRestored level l cw grp ns sv).offStrands = s.offStrands :=
  (State.putBackAll_offStrands _ _ _).trans
    (congrArg (fun x : State => { x with strands := [] }) (s.coresRestored_ledger level l grp ns sv) :)

theorem State.resumeGroup_of_none {s : State} (level : Nat) {l : Launch} (cw : List W64) {grp : Nat} (ns : List Nat)
    (h : s.saved.find? (fun x => x.lid == l.lid && x.grp == grp) = none) : s.resumeGroup level l cw grp ns = s := by
  simp only [State.resumeGroup, h]

section
variable {s : State} {level : Nat} {l : Launch} {cw : List W64} {grp : Nat} {ns : List Nat} {sv : SavedGroup}
variable (h : s.saved.find? (fun x => x.lid == l.lid && x.grp == grp) = some sv)
include h

/-- But for memory and the units' storage a resume puts the strands back, drops the image and sets the group's state. -/
theorem State.resumeGroup_ledger : (s.resumeGroup level l cw grp ns).ledger =
    ({ s.strandsRestored level l cw grp ns sv with
        saved := (s.strandsRestored level l cw grp ns sv).saved.filter (fun x => !(x.lid == l.lid && x.grp == grp)) }.modGroup
      l.lid grp (fun x => { x with phase := .running, strands := ns })).ledger := by
  have hwarm (t : State) (places : Nat → Nat) : (ns.foldl State.warmFetch (t.holdTasks l.lid grp places)).ledger = t.ledger :=
    (foldl_same State.ledger _ _ _ State.warmFetch_ledger).trans (t.holdTasks_ledger l.lid grp places)
  simp only [State.resumeGroup, h]
  exact (congrArg (fun x : State => x.modGroup l.lid grp (fun x => { x with phase := .running, strands := ns }))
    (hwarm _ (resumeOf l cw grp ns sv).places) :)

theorem State.resumeGroup_saved : (s.resumeGroup level l cw grp ns).saved =
    s.saved.filter (fun x => !(x.lid == l.lid && x.grp == grp)) :=
  (congrArg State.saved (State.resumeGroup_ledger h) :).trans
    (congrArg (fun x : State => x.saved.filter (fun x => !(x.lid == l.lid && x.grp == grp)))
      (s.strandsRestored_offStrands level l cw grp ns sv) :)

theorem State.resumeGroup_groups : (s.resumeGroup level l cw grp ns).groups =
    (s.modGroup l.lid grp (fun x => { x with phase := .running, strands := ns })).groups :=
  (congrArg State.groups (State.resumeGroup_ledger h) :).trans
    (congrArg (fun x : State => (x.modGroup l.lid grp (fun x => { x with phase := .running, strands := ns })).groups)
      (s.strandsRestored_offStrands level l cw grp ns sv) :)

theorem State.resumeGroup_strand (n : Nat) :
    (s.resumeGroup level l cw grp ns).strand n = (s.strandsRestored level l cw grp ns sv).strand n :=
  (congrArg (fun x : State => x.strand n) (State.resumeGroup_ledger h) :)

end

/-- Whether or not its image stands, a group's resume changes neither the clock nor the Placement Table. -/
theorem State.resumeGroup_frame (s : State) (level : Nat) (l : Launch) (cw : List W64) (grp : Nat) (ns : List Nat) :
    (s.resumeGroup level l cw grp ns).clk = s.clk ∧ (s.resumeGroup level l cw grp ns).placement = s.placement := by
  cases h : s.saved.find? (fun x => x.lid == l.lid && x.grp == grp) with
  | none => rw [State.resumeGroup_of_none level cw ns h]; exact ⟨rfl, rfl⟩
  | some sv =>
    have hoff := s.strandsRestored_offStrands level l cw grp ns sv
    exact ⟨(congrArg State.clk (State.resumeGroup_ledger h) :).trans (congrArg State.clk hoff :),
      (congrArg State.placement (State.resumeGroup_ledger h) :).trans (congrArg State.placement hoff :)⟩

/-- The image of a group of another number stays as it is. -/
theorem State.resumeGroup_find (s : State) (level : Nat) (l : Launch) (cw : List W64) {grp grp' : Nat} (ns : List Nat)
    (hne : grp ≠ grp') : (s.resumeGroup level l cw grp ns).saved.find? (fun x => x.lid == l.lid && x.grp == grp') =
      s.saved.find? (fun x => x.lid == l.lid && x.grp == grp') := by
  cases h : s.saved.find? (fun x => x.lid == l.lid && x.grp == grp) with
  | none => rw [State.resumeGroup_of_none level cw ns h]
  | some sv =>
    rw [State.resumeGroup_saved h, List.find?_filter]
    congr 1
    funext x
    rw [Bool.eq_iff_iff]
    simp only [Bool.not_eq_true', Bool.and_eq_true, Bool.and_eq_false_iff, beq_iff_eq, beq_eq_false_iff_ne, decide_eq_true_eq]
    omega

theorem State.resumeGroup_strand_of_not_mem (s : State) (level : Nat) (l : Launch) (cw : List W64) (grp : Nat) {ns : List Nat}
    {n : Nat} (hn : n ∉ ns) : (s.resumeGroup level l cw grp ns).strand n = s.strand n := by
  cases h : s.saved.find? (fun x => x.lid == l.lid && x.grp == grp) with
  | none => rw [State.resumeGroup_of_none level cw ns h]
  | some sv =>
    rw [State.resumeGroup_strand h, State.strandsRestored, putBackAll_strand_of_not_mem _ _ hn]
    exact (congrArg (fun x : State => x.strand n) (s.coresRestored_ledger level l grp ns sv) :)

/-! ### A due record (R381) -/

/-- What the resume of a group leaves of its image `sv`: it is gone, and its strands run at their places as the image has them. -/
structure ResumedAs (l : Launch) (cw : List W64) (clk : Nat) (sv : SavedGroup) (x : Nat × List Nat) (t : State) : Prop where
  gone : ∀ y ∈ t.saved, y.lid = l.lid → y.grp ≠ x.1
  running : ∀ g ∈ t.groups, g.lid = l.lid → g.grp = x.1 → g.phase = .running ∧ g.strands = x.2
  strands : ∀ p n img, x.2[p]? = some n → mget? sv.strands p = some img →
    t.strand n = img.resumed (boundOf l cw x.1 p) (resumeOf l cw x.1 x.2 sv).places clk

theorem State.resumeGroup_resumed {s : State} (level : Nat) {l : Launch} (cw : List W64) {x : Nat × List Nat} {sv : SavedGroup}
    (h : s.saved.find? (fun y => y.lid == l.lid && y.grp == x.1) = some sv) (hns : x.2.Nodup) :
    ResumedAs l cw s.clk sv x (s.resumeGroup level l cw x.1 x.2) := by
  refine ⟨?_, ?_, fun p n img hp himg => ?_⟩
  · rw [State.resumeGroup_saved h]
    intro y hy hlid hgrp
    simpa [hlid, hgrp] using (List.mem_filter.mp hy).2
  · rw [State.resumeGroup_groups h]
    exact State.modGroup_shows (by exact fun _ => ⟨rfl, rfl⟩)
  · rw [State.resumeGroup_strand h]
    refine (putBackAll_strand (r := resumeOf l cw x.1 x.2 sv) _ hns hp himg).trans ?_
    exact congrArg (Strand.resumed _ _ _) (congrArg State.clk (s.coresRestored_ledger level l x.1 x.2 sv) :)

/-- The groups of a record, resumed one after another. -/
theorem resumeGroups_resumed (s : State) {b : BindRec} (l : Launch) (cw : List W64) (h : b.strands.Nodup) :
    ∀ x ∈ b.groups, ∀ sv, s.saved.find? (fun y => y.lid == l.lid && y.grp == x.1) = some sv →
      ResumedAs l cw s.clk sv x (b.groups.foldl (fun s g => s.resumeGroup b.level l cw g.1 g.2) s) := by
  refine foldl_establishes (Pre := fun (x : Nat × List Nat) (t : State) => x.2.Nodup ∧ t.clk = s.clk ∧
      t.saved.find? (fun y => y.lid == l.lid && y.grp == x.1) = s.saved.find? (fun y => y.lid == l.lid && y.grp == x.1))
    (Q := fun (x : Nat × List Nat) (t : State) => ∀ sv, s.saved.find? (fun y => y.lid == l.lid && y.grp == x.1) = some sv →
      ResumedAs l cw s.clk sv x t)
    (fun t x ht sv hsv => ?_) (fun t x y hxy ht => ?_) (fun t x y hxy ht sv hsv => ?_) (b.groups_apart h)
    (fun x hx => ⟨b.groups_nodup h x hx, rfl, rfl⟩)
  · obtain ⟨hns, hclk, hfind⟩ := ht
    rw [← hclk]
    exact State.resumeGroup_resumed b.level cw (hfind.trans hsv) hns
  · obtain ⟨hns, hclk, hfind⟩ := ht
    exact ⟨hns, (t.resumeGroup_frame b.level l cw x.1 x.2).1.trans hclk,
      (t.resumeGroup_find b.level l cw x.2 hxy.1).trans hfind⟩
  · obtain ⟨hgone, hrun, hstr⟩ := ht sv hsv
    cases hf : t.saved.find? (fun z => z.lid == l.lid && z.grp == y.1) with
    | none => rw [State.resumeGroup_of_none b.level cw y.2 hf]; exact ⟨hgone, hrun, hstr⟩
    | some sy =>
      refine ⟨?_, ?_, fun p n img hp himg => ?_⟩
      · rw [State.resumeGroup_saved hf]
        exact fun z hz => hgone z (List.mem_filter.mp hz).1
      · rw [State.resumeGroup_groups hf]
        exact State.modGroup_keeps (by exact fun _ => rfl) hxy.1.symm hrun
      · have hn : n ∉ y.2 := fun hy => hxy.2 n hy (List.mem_of_getElem? hp)
        rw [t.resumeGroup_strand_of_not_mem b.level l cw y.1 hn]
        exact hstr p n img hp himg

theorem execGroupResume_of_none {s : State} {e : Nat} (h : mget? s.placement e = none) : execGroupResume e s = .next s := by
  simp only [execGroupResume, h]

/-- A record that is not due, or starts fresh groups, resumes nothing. -/
theorem execGroupResume_of_not_due {s : State} {e : Nat} {b : BindRec} (h : mget? s.placement e = some b)
    (hd : s.clk < b.start ∨ b.res = false) : execGroupResume e s = .next s := by
  have hd' : s.clk < b.start ∨ (!b.res) = true := by simpa using hd
  simp only [execGroupResume, h, if_pos hd']

/-- A due record of saved groups resumes them. -/
theorem execGroupResume_due {s : State} {e : Nat} {b : BindRec} {l : Launch} (h : mget? s.placement e = some b)
    (hp : b.prepared = true) (hr : b.res = true) (hd : b.start ≤ s.clk) (hl : mget? s.launches b.lid = some l) :
    execGroupResume e s = .next (b.groups.foldl (fun t g => t.resumeGroup b.level l (s.launchCtx l) g.1 g.2)
      { s with placement := mdel s.placement e }) := by
  have hdue : ¬ (s.clk < b.start ∨ (!b.res) = true) := by simp [hr, hd]
  simp only [execGroupResume, h, if_neg hdue, State.prepare_of_prepared h hp, hl]

theorem resumeGroups_placement (s : State) (level : Nat) (l : Launch) (cw : List W64) (gs : List (Nat × List Nat)) :
    (gs.foldl (fun s g => s.resumeGroup level l cw g.1 g.2) s).placement = s.placement :=
  foldl_same State.placement _ _ _ fun t (g : Nat × List Nat) => (t.resumeGroup_frame level l cw g.1 g.2).2

end Sys2Proof.Machine
end

section
/-! The end of groups and launches (R388 to R393): a group's strands are freed, its state is its status; a launch's record is
written in memory, word 0 last, or goes out through a window as two posted stores. -/

namespace Sys2Proof.Machine

/-! ### Strands freed (R393) -/

theorem State.releaseBanks_strand (s : State) (c : Nat) (l : List (Nat × Nat)) (n : Nat) :
    (s.releaseBanks c l).strand n = s.strand n := (congrArg (fun x : State => x.strand n) (s.releaseBanks_ledger c l) :)

theorem State.releaseBanks_groups (s : State) (c : Nat) (l : List (Nat × Nat)) : (s.releaseBanks c l).groups = s.groups :=
  (congrArg State.groups (s.releaseBanks_ledger c l) :)

/-- The bank copies that a strand's operations had captured, released, and the pages that they had closed, opened. -/
def State.capturesLeft (s : State) (n : Nat) : State :=
  let st := s.strand n
  let s1 := st.open_.foldl (fun s e => s.releaseBanks (coreOf n) e.caps) s
  let s2 := (st.flights.map Flight.caps ++ st.frame.map Entry.caps).foldl (fun s l => s.releaseBanks (coreOf n) l) s1
  { s2 with cur8 := { s2.cur8 with closed := s2.cur8.closed.filter (fun c => !st.open_.any (fun e => e.id == c.2.2)) } }

theorem State.capturesLeft_frame {β : Type} (p : State → β) (hp : ∀ (t : State) c l, p (t.releaseBanks c l) = p t)
    (hc : ∀ (t : State) c, p { t with cur8 := c } = p t) (s : State) (n : Nat) : p (s.capturesLeft n) = p s := by
  unfold State.capturesLeft
  dsimp only
  rw [hc, foldl_same p _ _ _ fun _ _ => hp _ _ _, foldl_same p _ _ _ fun _ _ => hp _ _ _]

theorem State.stopStrand_strand (s : State) (n m : Nat) : (s.stopStrand n).strand m =
    if n = m then { s.strand n with
      running := false, flights := [], open_ := [], past := [], linkPend := []
      frame := (s.strand n).frame.map (fun e => { e with caps := [] })
      wq := (s.strand n).wq.filter (fun q => !(s.strand n).slipped q.seq) } else s.strand m := by
  have h (k : Nat) : (s.capturesLeft n).strand k = s.strand k :=
    State.capturesLeft_frame (fun t => t.strand k) (fun t c l => t.releaseBanks_strand c l k) (fun _ _ => rfl) s n
  refine (State.strand_modStrand (s.capturesLeft n) n m _).trans ?_
  rw [h n, h m]

theorem State.stopStrand_groups (s : State) (n : Nat) : (s.stopStrand n).groups = s.groups :=
  State.capturesLeft_frame State.groups State.releaseBanks_groups (fun _ _ => rfl) s n

/-- A strand that is torn down is bound no more and does not run; the others stay as they are. -/
theorem State.freeStrand_strand (s : State) (n : Nat) :
    ((s.freeStrand n).strand n).bound = none ∧ ((s.freeStrand n).strand n).running = false ∧
      ∀ m, n ≠ m → (s.freeStrand n).strand m = s.strand m := by
  unfold State.freeStrand
  dsimp only
  refine ⟨?_, ?_, fun m hm => ?_⟩
  · rw [State.strand_modStrand, if_pos rfl]
  · rw [State.strand_modStrand, if_pos rfl, State.stopStrand_strand, if_pos rfl]
  · rw [State.strand_modStrand, if_neg hm, State.stopStrand_strand, if_neg hm]
    rfl

theorem State.freeStrand_mem (s : State) (n : Nat) : (s.freeStrand n).mem = s.mem := by
  unfold State.freeStrand
  dsimp only
  rw [State.modStrand_mem, State.stopStrand_mem]
  rfl

theorem State.freeStrand_groups (s : State) (n : Nat) : (s.freeStrand n).groups = s.groups := by
  unfold State.freeStrand
  dsimp only
  rw [State.modStrand_groups, State.stopStrand_groups]
  rfl

theorem State.freeGang_frame {β : Type} (p : State → β) (hp : ∀ (t : State) c f, p (t.modCore c f) = p t) (s : State) (c : Nat) :
    p (s.freeGang c) = p s := by
  unfold State.freeGang
  split
  · exact hp _ _ _
  · rfl

/-- Of strands torn down one after another none is bound or runs. -/
theorem freeStrands_strand (s : State) {ns : List Nat} {n : Nat} (hn : n ∈ ns) :
    ((ns.foldl (fun t n => t.freeStrand n) s).strand n).bound = none ∧
      ((ns.foldl (fun t n => t.freeStrand n) s).strand n).running = false := by
  induction ns generalizing s with
  | nil => cases hn
  | cons m r ih =>
    rw [List.foldl_cons]
    by_cases hr : n ∈ r
    · exact ih _ hr
    · obtain rfl : n = m := (List.mem_cons.mp hn).resolve_right hr
      obtain ⟨hb, hrun, -⟩ := s.freeStrand_strand n
      refine List.foldlRecOn (motive := fun t : State => (t.strand n).bound = none ∧ (t.strand n).running = false) r _
        ⟨hb, hrun⟩ fun t ht k hk => ?_
      rw [(t.freeStrand_strand k).2.2 n (ne_of_mem_of_not_mem hk hr)]
      exact ht

/-- Tearing a group down changes no memory and no group, and frees its strands. -/
theorem State.teardown_frame (s : State) (g : Group) : (s.teardown g).mem = s.mem ∧ (s.teardown g).groups = s.groups ∧
    ∀ n ∈ g.strands, ((s.teardown g).strand n).bound = none ∧ ((s.teardown g).strand n).running = false := by
  unfold State.teardown
  refine ⟨?_, ?_, fun n hn => ?_⟩
  · exact (foldl_same State.mem _ _ _ (State.freeGang_frame State.mem fun _ _ _ => rfl)).trans
      (foldl_same State.mem _ _ _ State.freeStrand_mem)
  · exact (foldl_same State.groups _ _ _ (State.freeGang_frame State.groups fun _ _ _ => rfl)).trans
      (foldl_same State.groups _ _ _ State.freeStrand_groups)
  · have hgang (cs : List Nat) (t : State) : (cs.foldl (fun t c => t.freeGang c) t).strand n = t.strand n :=
      foldl_same (fun x : State => x.strand n) _ _ _ (State.freeGang_frame (fun x : State => x.strand n) fun _ _ _ => rfl)
    rw [hgang]
    exact freeStrands_strand s hn

/-! ### The end of a group (R388 to R390) -/

theorem execGroupComplete_of_none {s : State} {lid grp : Nat} (h : s.groupAt lid grp = none) :
    execGroupComplete lid grp s = .next s := by
  simp only [execGroupComplete, h]

theorem execGroupComplete_of_not_ended {s : State} {lid grp : Nat} {g : Group} (h : s.groupAt lid grp = some g)
    (he : s.groupEnds g = false) : execGroupComplete lid grp s = .next s := by
  simp only [execGroupComplete, h, he, Bool.not_false, if_true]

/-- The status with which a group ends (Table 4-4, R389, R390). -/
def State.endStatus (s : State) (g : Group) : Nat :=
  if g.phase = .killed then (if g.faulted then 2 else 1) else if (s.liveFault g).isSome then 2 else 0

/-- A group that has ended takes its status, after what its launch keeps of it; its strands are free. -/
theorem execGroupComplete_ended {s : State} {lid grp : Nat} {g : Group} (h : s.groupAt lid grp = some g)
    (he : s.groupEnds g = true) : ∃ t : State, t.offLaunches = s.offLaunches ∧ execGroupComplete lid grp s =
      .next (((t.afterGroups lid (some grp)).teardown g).modGroup lid grp
        (fun x => { x with phase := .ended (s.endStatus g), strands := [] })) := by
  by_cases hk : g.phase = .killed
  · simp only [execGroupComplete, h, he, hk, State.endStatus, decide_true, Bool.not_true, Bool.false_eq_true, if_false, if_true]
    refine ⟨_, ?_, rfl⟩
    rw [State.modLaunch_offLaunches]
    split
    · exact State.recordFault_offLaunches _ _ _
    · rfl
  · simp only [execGroupComplete, h, he, hk, State.endStatus, decide_false, Bool.not_true, Bool.false_eq_true, if_false]
    refine ⟨_, ?_, rfl⟩
    rw [State.modLaunch_offLaunches]
    split
    · exact State.recordFault_offLaunches _ _ _
    · rfl

end Sys2Proof.Machine
end

section
/-! The completion record of a launch (R391, R392): in memory, word 0 last, or through a window as two posted stores. -/

namespace Sys2Proof.Machine

/-! ### Bytes stored by the front-end -/

theorem atOffsets_cons (o : Nat) (b : Byte) (l : List Byte) : atOffsets o (b :: l) = (o, b) :: atOffsets (o + 1) l := by
  simp only [atOffsets, List.zipIdx_cons, List.map_cons, Nat.add_zero, List.zipIdx_succ, List.map_map, List.cons.injEq, true_and]
  exact List.map_congr_left fun p _ => by simp; omega

theorem mem_atOffsets_le {o : Nat} {l : List Byte} {p : Nat × Byte} (h : p ∈ atOffsets o l) : o ≤ p.1 ∧ p.1 < o + l.length := by
  obtain ⟨x, hx, rfl⟩ := List.mem_map.mp h
  have := List.snd_lt_of_mem_zipIdx hx
  exact ⟨by simp, by simpa using this⟩

/-- A byte of a run reads as written. -/
theorem memGet_memSetAll_atOffsets (m : List Host.Cell) (o : Nat) (l : List Byte) {i : Nat} (hi : i < l.length) :
    memGet (memSetAll m (atOffsets o l)) (o + i) = l[i] := by
  induction l generalizing m o i with
  | nil => simp at hi
  | cons b r ih =>
    have hcons : memSetAll m (atOffsets o (b :: r)) = memSetAll (memSet m o b) (atOffsets (o + 1) r) := by
      rw [atOffsets_cons]; rfl
    rw [hcons]
    cases i with
    | zero =>
      rw [memGet_memSetAll_of_not_mem _ _ _ (fun p hp => by have := mem_atOffsets_le hp; omega), Nat.add_zero, memGet_memSet,
        if_pos rfl]
      rfl
    | succ i =>
      rw [show o + (i + 1) = o + 1 + i by omega]
      exact ih _ _ (by simpa using hi)

/-- A byte of a write at one stamp reads as the write leaves it in memory. -/
theorem State.storeAt_view_of_mem (s : State) (ts : W64) {bytes : List (Nat × Byte)} {a : Nat} (h : ∃ p ∈ bytes, p.1 = a) :
    ∃ m, (s.storeAt ts bytes).view a = memGet (memSetAll m bytes) a := by
  obtain ⟨p, hp, rfl⟩ := h
  unfold State.storeAt
  dsimp only
  obtain ⟨hm, hh, hw⟩ := unmarkAll_same (fun l =>
    256 ≤ ((bytes.filter (fun p => p.1 / 256 == l)).map Prod.fst).eraseDups.length)
    ((bytes.map (fun p => p.1 / 256)).eraseDups) { ((bytes.map (fun p => p.1 / 256)).eraseDups).foldl State.recall s with
      mem := memSetAll (((bytes.map (fun p => p.1 / 256)).eraseDups).foldl State.recall s).mem bytes
      homes := ((bytes.map (fun p => p.1 / 256)).eraseDups).foldl (fun h l => mset h l ⟨ts, ts, none⟩)
        (((bytes.map (fun p => p.1 / 256)).eraseDups).foldl State.recall s).homes }
  refine ⟨_, (State.view_of_none ?_).trans (congrArg (fun m => memGet m p.1) hm)⟩
  have hline : p.1 / 256 ∈ (bytes.map (fun p => p.1 / 256)).eraseDups :=
    List.mem_eraseDups.mpr (List.mem_map.mpr ⟨p, hp, rfl⟩)
  unfold State.home
  rw [hh, foldl_mset_of_mem, if_pos hline]

/-- A run of bytes stored by the front-end stands where it was put, and every other byte is as it was. -/
theorem State.frontStore_view (s : State) (o : Nat) (l : List Byte) (a : Nat) : (s.frontStore (atOffsets o l)).view a =
    if o ≤ a ∧ a < o + l.length then l.getD (a - o) 0 else s.view a := by
  have hview : (s.frontStore (atOffsets o l)).view a = (s.store s.frontPts (atOffsets o l)).1.view a := rfl
  rw [hview]
  split
  next h =>
    have hi : a - o < l.length := by omega
    have hmem : (a, l[a - o]) ∈ atOffsets o l :=
      List.mem_map.mpr ⟨(l[a - o], a - o), List.mem_zipIdx_iff_getElem?.mpr (List.getElem?_eq_getElem hi), by simp; omega⟩
    have hne : (atOffsets o l).isEmpty = false := by
      rw [List.isEmpty_eq_false_iff]
      exact List.ne_nil_of_mem hmem
    unfold State.store
    rw [hne]
    obtain ⟨m, hm⟩ := s.storeAt_view_of_mem (s.storeStamp s.frontPts (((atOffsets o l).map (fun p => p.1 / 256)).eraseDups))
      ⟨_, hmem, rfl⟩
    refine hm.trans ?_
    have hrun := memGet_memSetAll_atOffsets m o l hi
    rw [show o + (a - o) = a by omega] at hrun
    rw [hrun, List.getD_eq_getElem _ _ hi]
  next h =>
    exact s.store_view_of_not_mem _ _ _ fun p hp he => h (he ▸ mem_atOffsets_le hp)

/-! ### The record in memory (R392) -/

/-- The bytes of a launch's record (Table 17-1). -/
def State.recordBytes (s : State) (l : Launch) (asid : Nat) : List Byte :=
  (s.completionWords l asid).flatMap (fun w => leBytes 8 w.toNat)

theorem State.recordBytes_length (s : State) (l : Launch) (asid : Nat) : (s.recordBytes l asid).length = 64 := by
  simp [State.recordBytes, State.completionWords, leBytes]

/-- The words after the first of a record, stored one after another. -/
theorem recordWords_view (s : State) (q : Nat) {bs : List Byte} (hbs : bs.length = 64) (a k : Nat) (hk : k ≤ 7) :
    ((List.range k).foldl (fun (s : State) i =>
      s.frontStore (atOffsets (q + 8 * (i + 1)) ((bs.drop (8 * (i + 1))).take 8))) s).view a =
      if q + 8 ≤ a ∧ a < q + 8 + 8 * k then bs.getD (a - q) 0 else s.view a := by
  induction k with
  | zero => rw [if_neg (by omega)]; rfl
  | succ k ih =>
    have hlen : ((bs.drop (8 * (k + 1))).take 8).length = 8 := by simp [hbs]; omega
    rw [List.range_succ, List.foldl_append, List.foldl_cons, List.foldl_nil, State.frontStore_view, hlen, ih (by omega)]
    by_cases h : q + 8 * (k + 1) ≤ a ∧ a < q + 8 * (k + 1) + 8
    · rw [if_pos h, if_pos (by omega), List.getD_eq_getElem?_getD, List.getElem?_take_of_lt (by omega), List.getElem?_drop,
        show 8 * (k + 1) + (a - (q + 8 * (k + 1))) = a - q by omega, ← List.getD_eq_getElem?_getD]
    · rw [if_neg h]
      by_cases h2 : q + 8 ≤ a ∧ a < q + 8 + 8 * k
      · rw [if_pos h2, if_pos (by omega)]
      · rw [if_neg h2, if_neg (by omega)]

/-- The whole record stored at `q`, word 0 last. -/
def State.recordStored (s : State) (q : Nat) (bs : List Byte) : State :=
  ((List.range 7).foldl (fun (s : State) i =>
    s.frontStore (atOffsets (q + 8 * (i + 1)) ((bs.drop (8 * (i + 1))).take 8))) s).frontStore (atOffsets q (bs.take 8))

/-- The bytes of a stored record stand where they belong. -/
theorem State.recordStored_readBytes (s : State) (q : Nat) {bs : List Byte} (hbs : bs.length = 64) (a : Nat) :
    (s.recordStored q bs).readBytes a 1 =
      if q ≤ a ∧ a < q + 64 then (bs.drop (a - q)).take 1 else s.readBytes a 1 := by
  unfold State.recordStored
  have hlen : (bs.take 8).length = 8 := by simp [hbs]
  rw [State.readBytes_one, State.readBytes_one, State.frontStore_view, hlen, recordWords_view s q hbs a 7 (Nat.le_refl 7)]
  by_cases h : q ≤ a ∧ a < q + 64
  · have hi : a - q < bs.length := by omega
    rw [if_pos h, List.drop_eq_getElem_cons hi, List.take_succ_cons, List.take_zero, List.getD_eq_getElem _ _ hi]
    by_cases h8 : q ≤ a ∧ a < q + 8
    · rw [if_pos h8, List.getD_eq_getElem _ _ (by omega), List.getElem_take]
    · rw [if_neg h8, if_pos (by omega)]
  · rw [if_neg h, if_neg (by omega), if_neg (by omega)]

/-! ### The record through a window (R243, R352, R392) -/

/-- Asking for a window's allowance changes who waits at it, and nothing else. -/
theorem State.askAllow_frame (s : State) (w : Nat) (who : Waiter) (k : Nat) :
    ∃ q, (s.askAllow w who k).1 = { s with fabric := { s.fabric with allowQ := q } } := by
  unfold State.askAllow
  dsimp only
  repeat' split
  all_goals exact ⟨_, rfl⟩

/-- A packet that leaves changes neither memory nor launches nor the packets retained. -/
theorem State.emit_frame (s : State) (dst seqno part : Nat) (kind : PktKind) (pa : Nat) (bytes : List (Nat × Byte))
    (who : Waiter) : (s.emit dst seqno part kind pa bytes who).mem = s.mem ∧
      (s.emit dst seqno part kind pa bytes who).launches = s.launches ∧
      (s.emit dst seqno part kind pa bytes who).fabric.src = s.fabric.src := by
  unfold State.emit State.portGrant State.sendOver
  dsimp only
  repeat' split
  all_goals exact ⟨rfl, rfl, rfl⟩

/-- A request packet is retained as the last of its pair. -/
theorem State.request_frame (s : State) (dst part : Nat) (kind : PktKind) (pa : Nat) (bytes : List (Nat × Byte)) (who : Waiter)
    (window : Option Nat) : ∃ k : Packet, ((s.request dst part kind pa bytes who window).1.fabric.pairSrc dst).unacked =
        (s.fabric.pairSrc dst).unacked ++ [k] ∧ k.kind = kind ∧ k.pa = pa ∧ k.who = who ∧ k.bytes = bytes ∧
      (s.request dst part kind pa bytes who window).1.mem = s.mem ∧
      (s.request dst part kind pa bytes who window).1.launches = s.launches := by
  obtain ⟨hmem, hlaunches, hsrc⟩ := State.emit_frame (s.number dst part kind pa bytes who window 0).1 dst
    (s.number dst part kind pa bytes who window 0).2 part kind pa bytes who
  have hnum : ∃ k : Packet, ((s.number dst part kind pa bytes who window 0).1.fabric.pairSrc dst).unacked =
      (s.fabric.pairSrc dst).unacked ++ [k] ∧ k.kind = kind ∧ k.pa = pa ∧ k.who = who ∧ k.bytes = bytes := by
    refine ⟨{ seqno := (s.fabric.pairSrc dst).next, va := 0, kind := kind, pa := pa, bytes := bytes, part := part, who := who
              window := window, sent := !idHold (s.fabric.entry dst) }, ?_, rfl, rfl, rfl, rfl⟩
    simp only [State.number, Fabric.pairSrc, mget_mset, if_true]
  obtain ⟨k, hk, hrest⟩ := hnum
  unfold State.request
  dsimp only
  split
  · exact ⟨k, hk, hrest.1, hrest.2.1, hrest.2.2.1, hrest.2.2.2, rfl, rfl⟩
  · refine ⟨k, ?_, hrest.1, hrest.2.1, hrest.2.2.1, hrest.2.2.2, hmem, hlaunches⟩
    rw [← hk]
    unfold Fabric.pairSrc
    rw [hsrc]

/-- One posted store of a record through window `w`: bytes `o` to `o + n`, once the window and the pair have room. -/
def State.sendRecord (s : State) (l : Launch) (part w dst pa : Nat) (bs : List Byte) (o n : Nat) : State :=
  let (s1, ok) := s.askAllow w (.front l.lid) 1
  if ok && s1.fabric.roomFor dst then
    ((s1.request dst part .store pa (atOffsets o ((bs.drop o).take n)) (.front l.lid) (some w)).1).modLaunch l.lid
      (fun x => { x with recordStage := x.recordStage + 1 })
  else s1

section
variable {s : State} {l : Launch} {part w dst pa : Nat} {bs : List Byte} {o n : Nat}

/-- With room the store is retained, and the record's next step is due. -/
theorem State.sendRecord_sends (hl : mget? s.launches l.lid = some l)
    (hroom : ((s.askAllow w (.front l.lid) 1).2 && s.fabric.roomFor dst) = true) :
    ∃ k : Packet, (s.sendRecord l part w dst pa bs o n).mem = s.mem ∧
      ((s.sendRecord l part w dst pa bs o n).fabric.pairSrc dst).unacked = (s.fabric.pairSrc dst).unacked ++ [k] ∧
      k.kind = .store ∧ k.pa = pa ∧ k.who = .front l.lid ∧ k.bytes = atOffsets o ((bs.drop o).take n) ∧
      (mget? (s.sendRecord l part w dst pa bs o n).launches l.lid).map Launch.recordStage = some (l.recordStage + 1) := by
  obtain ⟨q, hq⟩ := s.askAllow_frame w (.front l.lid) 1
  have hroom1 : ((s.askAllow w (.front l.lid) 1).2 && (s.askAllow w (.front l.lid) 1).1.fabric.roomFor dst) = true := by
    rw [hq]; exact hroom
  obtain ⟨k, hk, hkind, hpa, hwho, hbytes, hmem, hlaunches⟩ := (s.askAllow w (.front l.lid) 1).1.request_frame dst part .store pa
    (atOffsets o ((bs.drop o).take n)) (.front l.lid) (some w)
  unfold State.sendRecord
  dsimp only
  rw [if_pos hroom1]
  generalize ((s.askAllow w (.front l.lid) 1).1.request dst part .store pa (atOffsets o ((bs.drop o).take n)) (.front l.lid)
    (some w)).1 = t at hk hmem hlaunches
  rw [hq] at hk hmem hlaunches
  refine ⟨k, (State.modLaunch_mem _ _ _).trans hmem, ?_, hkind, hpa, hwho, hbytes, ?_⟩
  · exact (congrArg (fun x : State => (x.fabric.pairSrc dst).unacked) (State.modLaunch_offLaunches t l.lid _) :).trans hk
  · rw [State.modLaunch_launches, if_pos rfl, hlaunches, hl]
    rfl

/-- Without room the front-end waits at the window. -/
theorem State.sendRecord_waits (hroom : ((s.askAllow w (.front l.lid) 1).2 && s.fabric.roomFor dst) = false) :
    (s.sendRecord l part w dst pa bs o n).mem = s.mem ∧ (s.sendRecord l part w dst pa bs o n).fabric.src = s.fabric.src ∧
      (s.sendRecord l part w dst pa bs o n).launches = s.launches := by
  obtain ⟨q, hq⟩ := s.askAllow_frame w (.front l.lid) 1
  have hroom1 : ¬ ((s.askAllow w (.front l.lid) 1).2 && (s.askAllow w (.front l.lid) 1).1.fabric.roomFor dst) = true := by
    rw [hq]; exact Bool.eq_false_iff.mp hroom
  unfold State.sendRecord
  dsimp only
  rw [if_neg hroom1, hq]
  exact ⟨rfl, rfl, rfl⟩

theorem State.recordByWindow_first (h : l.recordStage = 0) :
    s.recordByWindow l part w dst pa bs = s.sendRecord l part w dst pa bs 8 56 := by
  unfold State.recordByWindow
  rw [h]
  rfl

/-- The front-end's earlier store of the record is not acknowledged. -/
def State.recordOut (s : State) (l : Launch) (dst : Nat) : Bool :=
  (s.fabric.pairSrc dst).outstanding.any (fun k => k.who == .front l.lid)

theorem State.recordByWindow_waits (h : 1 ≤ l.recordStage) (hw : s.recordOut l dst = true) :
    s.recordByWindow l part w dst pa bs = s := by
  unfold State.recordOut at hw
  unfold State.recordByWindow
  dsimp only
  split
  next h0 => omega
  next => rw [if_pos hw]
  next => rw [if_pos hw]

theorem State.recordByWindow_second (h : l.recordStage = 1) (hw : s.recordOut l dst = false) :
    s.recordByWindow l part w dst pa bs = s.sendRecord l part w dst pa bs 0 8 := by
  unfold State.recordOut at hw
  unfold State.recordByWindow
  dsimp only
  rw [h]
  exact if_neg (by simp [hw])

/-- Whichever of the two stores is due is sent. -/
theorem State.recordByWindow_due (h : l.recordStage = 0 ∨ (l.recordStage = 1 ∧ s.recordOut l dst = false)) :
    ∃ o n, s.recordByWindow l part w dst pa bs = s.sendRecord l part w dst pa bs o n := by
  rcases h with h0 | ⟨h1, hw⟩
  · exact ⟨8, 56, State.recordByWindow_first h0⟩
  · exact ⟨0, 8, State.recordByWindow_second h1 hw⟩

theorem State.recordByWindow_done (h : 2 ≤ l.recordStage) (hw : s.recordOut l dst = false) :
    s.recordByWindow l part w dst pa bs = s.freeLaunch l.lid := by
  unfold State.recordOut at hw
  unfold State.recordByWindow
  dsimp only
  split
  next => omega
  next => omega
  next => rw [if_neg (by simp [hw])]

end

/-! ### `LAUNCH_COMPLETE` -/

/-- The completion is logged in place of a record, and the handle is free. -/
def State.endUnrecorded (s : State) (lid : Nat) : State := (s.note 2 lid).freeLaunch lid

theorem State.endUnrecorded_frame (s : State) (lid : Nat) :
    mget? (s.endUnrecorded lid).launches lid = none ∧ (s.endUnrecorded lid).mem = s.mem ∧
      (s.endUnrecorded lid).cur8.log = s.cur8.log ++ [2 + 8 * lid] ∧ ∀ g ∈ (s.endUnrecorded lid).groups, g.lid ≠ lid := by
  refine ⟨?_, rfl, rfl, fun g hg => ?_⟩
  · exact (mget?_mdel _ _ _).trans (if_pos rfl)
  · simpa using (List.mem_filter.mp hg).2

theorem State.freeLaunch_readBytes (s : State) (lid a n : Nat) : (s.freeLaunch lid).readBytes a n = s.readBytes a n := rfl

theorem State.freeLaunch_launches (s : State) (lid : Nat) : mget? (s.freeLaunch lid).launches lid = none :=
  (mget?_mdel _ _ _).trans (if_pos rfl)

/-- Where a launch's record lies (Table 4-3). -/
def recordVa (l : Launch) : W64 := (l.rec_.drop 6).headD 0 &&& ~~~63#64

section
variable {s : State} {lid : Nat} {l : Launch}

theorem execLaunchComplete_of_none (h : mget? s.launches lid = none) : execLaunchComplete lid s = .next s := by
  simp only [execLaunchComplete, h]

theorem execLaunchComplete_of_not_ended (h : mget? s.launches lid = some l) (he : s.launchEnds l = false) :
    execLaunchComplete lid s = .next s := by
  simp only [execLaunchComplete, h, he, Bool.not_false, if_true]

variable (h : mget? s.launches lid = some l) (he : s.launchEnds l = true)
include h he

theorem execLaunchComplete_of_no_record (hr : (l.rec_.drop 6).headD 0 = 0) :
    execLaunchComplete lid s = .next (s.endUnrecorded lid) := by
  simp only [execLaunchComplete, h, he, hr, Bool.not_true, Bool.false_eq_true, if_false, if_true]
  rfl

variable (hr : (l.rec_.drop 6).headD 0 ≠ 0)
include hr

/-- The address of the record cannot be translated, or leads nowhere. -/
theorem execLaunchComplete_of_error {s1 : State} {x : Cause × Nat}
    (hx : s.frontXlate (ctxSpace (s.launchCtx l) 0) (recordVa l) true = (s1, .error x)) :
    execLaunchComplete lid s = .next (s1.endUnrecorded lid) := by
  unfold recordVa at hx
  simp only [execLaunchComplete, h, he, hr, hx, Bool.not_true, Bool.false_eq_true, if_false]
  rfl

variable {s1 : State} {pa : Nat} (hx : s.frontXlate (ctxSpace (s.launchCtx l) 0) (recordVa l) true = (s1, .ok pa))
include hx

theorem execLaunchComplete_of_no_target {x : Cause × Nat} (ht : s1.target (ctxPart (s.launchCtx l)) pa = .error x) :
    execLaunchComplete lid s = .next (s1.endUnrecorded lid) := by
  unfold recordVa at hx
  simp only [execLaunchComplete, h, he, hr, hx, ht, Bool.not_true, Bool.false_eq_true, if_false]
  rfl

theorem execLaunchComplete_of_window {w dst q : Nat} (ht : s1.target (ctxPart (s.launchCtx l)) pa = .ok (.window w dst q)) :
    execLaunchComplete lid s = .next (s1.recordByWindow l (ctxPart (s.launchCtx l)) w dst q
      (s1.recordBytes l (ctxAsid (s.launchCtx l)))) := by
  unfold recordVa at hx
  simp only [execLaunchComplete, h, he, hr, hx, ht, Bool.not_true, Bool.false_eq_true, if_false]
  rfl

/-- A `PGPASS` has closed the page of the record (R338). -/
theorem execLaunchComplete_of_closed {q : Nat} (ht : s1.target (ctxPart (s.launchCtx l)) pa = .ok (.mem q))
    (hc : s1.closedAt q = true) : execLaunchComplete lid s = .next s1 := by
  unfold recordVa at hx
  simp only [execLaunchComplete, h, he, hr, hx, ht, hc, Bool.not_true, Bool.false_eq_true, if_false, if_true]

/-- The record is written where it lies in memory, and the handle is free. -/
theorem execLaunchComplete_of_mem {q : Nat} (ht : s1.target (ctxPart (s.launchCtx l)) pa = .ok (.mem q))
    (hc : s1.closedAt q = false) : execLaunchComplete lid s =
      .next ((s1.recordStored q (s1.recordBytes l (ctxAsid (s.launchCtx l)))).freeLaunch lid) := by
  unfold recordVa at hx
  simp only [execLaunchComplete, h, he, hr, hx, ht, hc, Bool.not_true, Bool.false_eq_true, if_false]
  rfl

end

end Sys2Proof.Machine
end

section
/-! Groups and launches as statement O58 has them, put together from the rules of preparation, start, resume and completion. -/

namespace Sys2Proof.Machine

/-- With no image named the preparation ends at once, with no bank loaded. -/
theorem State.prepare_of_no_images {s s1 : State} {e : Nat} {b : BindRec} {l : Launch} {cw : List W64}
    (hb : mget? s.placement e = some b) (hp : b.prepared = false) (hpl : b.planned = false) (hres : b.res = false)
    (hl : mget? s.launches b.lid = some l) (hc : s.readCtx ((s.ctxPaOf b.lid).getD 0) = (s1, cw))
    (hz : bitsN (recWord l.rec_ 7) 39 32 = 0) :
    s.prepare e = s1.modRec e (fun x => { x with prepared := true, rds := [], banks := [] }) := by
  rw [State.prepare_of_plan hb hp hpl hres hl hc (s1.planImages_of_none _ _ hz) rfl rfl]
  exact State.readImages_of_ok rfl rfl (loadBanks_of_none [] hz)

/-- The start state of a strand (Table 4-6). -/
theorem startStrand_state (l : Launch) (cw : List W64) (n grp pos : Nat) :
    let st := startStrand l cw n grp pos
    let w7 := recWord l.rec_ 7
    let w (k : Nat) : W64 := (l.rec_.drop k).headD 0
    st.running = true ∧ st.halted = false ∧ st.front.pc = (w 0 &&& ~~~63#64) + BitVec.ofInt 64 (64 * lineOff l.rec_ (n % 4)) ∧
    st.regs.sQ 0 = [.full ⟨w 2, false⟩] ∧ st.regs.sQ 1 = [.full ⟨BitVec.ofNat 64 grp, false⟩] ∧
    st.regs.sQ 2 = [.full ⟨BitVec.ofNat 64 pos, false⟩] ∧
    st.regs.sQ 3 = [.full ⟨BitVec.ofNat 64 (bitsN w7 63 40), false⟩] ∧
    st.regs.sP 31 = ⟨if bitsN w7 22 8 = 0 then 0 else w 3 + BitVec.ofNat 64 ((n + 1) * bitsN w7 22 8 * 4096), false⟩ ∧
    st.ctl.trapBase = w 4 ∧ st.ctl.srng = 0x9E3779B97F4A7C15#64 ^^^ BitVec.ofNat 64 pos ∧ st.ctl.exl = false ∧
    st.ctl.splim = BitVec.ofNat 17 (256 * bitsN w7 31 23) ∧ (∀ r, 24 ≤ r → st.regs.vP r = VV.zero) ∧
    st.ctl.pts = l.pts ∧ st.flights = [] ∧ st.open_ = [] ∧ st.wq = [] := by
  simp [startStrand, Regs.sQ, Regs.sP, Regs.vP, Regs.reset, Strand.reset, Front.reset, Ctl.reset, mget, lineAt, lineOf, posInCore,
    launchGroups]

/-- A fresh core has the banks given; what it holds of the shared objects stays in the one case of R379. -/
theorem FreshFor.state {level : Nat} {owned : Prop} [Decidable owned] {old new : Core} {banks : AMap Bank}
    (h : FreshFor level owned old new.offTlb banks) : new.banks = banks ∧ new.gang = Gang.reset ∧
      (if level = 0 ∧ owned then new.join = old.join ∧ new.sems = old.sems ∧ new.muts = old.muts
       else new.join = 0 ∧ new.sems = [] ∧ new.muts = []) := by
  obtain ⟨hbanks, hgang, hkept, hcleared⟩ := h
  refine ⟨hbanks, hgang, ?_⟩
  split
  next ho => exact hkept ho.1 ho.2
  next ho => exact hcleared ho

/-- A completed group has its status and no strand. -/
theorem execGroupComplete_state {s : State} {lid grp : Nat} {g : Group} (h : s.groupAt lid grp = some g)
    (he : s.groupEnds g = true) : ∃ t, execGroupComplete lid grp s = .next t ∧ t.mem = s.mem ∧
      (∀ n ∈ g.strands, (t.strand n).bound = none ∧ (t.strand n).running = false) ∧
      ∀ g' ∈ t.groups, g'.lid = lid → g'.grp = grp → g'.phase = .ended (s.endStatus g) := by
  obtain ⟨t, ht, hx⟩ := execGroupComplete_ended h he
  obtain ⟨hmem, -, hstr⟩ := (t.afterGroups lid (some grp)).teardown_frame g
  exact ⟨_, hx, hmem.trans (congrArg State.mem ht :), hstr, State.modGroup_shows (by exact fun _ => rfl)⟩

/-- The events of a group's preparation and start are the operations of those names. -/
theorem exec_groupPrepare_eq {s t : State} {e : Nat} (h : s.prepare e = t) : exec (.groupPrepare e) s = .next t :=
  (congrArg Host.Outcome.next h :)

theorem exec_groupStart_eq {s t : State} {e : Nat} (h : s.startEntry e = t) : exec (.groupStart e) s = .next t :=
  (congrArg Host.Outcome.next h :)

/-- A resumed strand is its image, with PREQ and DLINE clear. -/
theorem ResumedAs.state {l : Launch} {cw : List W64} {clk : Nat} {sv : SavedGroup} {x : Nat × List Nat} {t : State}
    (h : ResumedAs l cw clk sv x t) {p n : Nat} {img : Strand} (hp : x.2[p]? = some n) (hi : mget? sv.strands p = some img) :
    (t.strand n).regs = img.regs ∧ (t.strand n).ctl.preq = false ∧ (t.strand n).ctl.dline = 0 ∧
      (t.strand n).front.pc = img.front.pc ∧ (t.strand n).front.wake = clk ∧ (t.strand n).ctl.epc = img.ctl.epc ∧
      (t.strand n).ctl.srng = img.ctl.srng ∧ (t.strand n).spill = img.spill := by
  rw [h.strands p n img hp hi]
  exact ⟨rfl, rfl, rfl, rfl, rfl, rfl, rfl, rfl⟩

/-- What a core holds but for its TLB is as it was. -/
theorem Core.kept_of_offTlb {old new : Core} (h : new.offTlb = old.offTlb) :
    new.banks = old.banks ∧ new.join = old.join ∧ new.sems = old.sems :=
  ⟨(congrArg Core.banks h :), (congrArg Core.join h :), (congrArg Core.sems h :)⟩

/-- The groups of a record have numbers of their own. -/
theorem BindRec.groups_numbers (b : BindRec) : b.groups.Pairwise (fun x y => x.1 ≠ y.1) := by
  unfold BindRec.groups
  split
  · rw [List.pairwise_map, List.pairwise_iff_getElem]
    intro i j hi hj hij
    rw [List.getElem_zipIdx, List.getElem_zipIdx]
    simp only
    omega
  · exact List.pairwise_singleton _ _

end Sys2Proof.Machine

open Sys2Proof.Machine

/-- Settles O58: a record's groups are prepared, started and resumed one after another without touching each other; a group
ends with its status; a launch's record is written where its address leads. -/
theorem groupsAndLaunches : Obligations.GroupsAndLaunches := by
  refine ⟨fun s e h => ⟨exec_groupPrepare_eq (State.prepare_of_none h), exec_groupStart_eq (State.startEntry_of_none h),
      execGroupResume_of_none h⟩,
    fun s e b hb => ⟨fun hp => exec_groupPrepare_eq (State.prepare_of_prepared hb hp),
      fun hd => exec_groupStart_eq (State.startEntry_of_not_due hb hd), fun hd => execGroupResume_of_not_due hb hd,
      fun l s1 cw hp hpl hr hl hc => ⟨fun hz => ?_, fun f hv hpm => ?_, fun s2 rs s3 rs' m hv hm hw hrd hld hpm => ?_⟩,
      fun l f hp hr hd hl hc hf => ?_, fun l hp hr hd hns hf hl hlid => ?_, fun l hp hr hd hns hl hlid => ?_⟩,
    fun s lid grp => ⟨fun h => execGroupComplete_of_none h, fun g h he => execGroupComplete_of_not_ended h he,
      fun g h he => execGroupComplete_state h he⟩,
    fun s lid l => ⟨fun h => execLaunchComplete_of_none h, fun h he => execLaunchComplete_of_not_ended h he,
      fun h he hr => ⟨_, execLaunchComplete_of_no_record h he hr, s.endUnrecorded_frame lid⟩, fun h he hr => ?_⟩⟩
  · refine ⟨_, exec_groupPrepare_eq (State.prepare_of_no_images hb hp hpl hr hl hc hz), State.modRec_mem _ _ _,
      State.modRec_cores _ _ _, fun hpm => ?_⟩
    rw [State.modRec_placement, hpm, hb]
    rfl
  · refine ⟨_, exec_groupPrepare_eq (State.prepare_of_verdict hb hp hpl hr hl hc rfl hv), ?_⟩
    rw [State.modRec_placement, hpm, hb]
    rfl
  · refine ⟨_, exec_groupPrepare_eq ((State.prepare_of_plan hb hp hpl hr hl hc rfl hv hm).trans
      (State.readImages_of_ok hw hrd hld)), State.modRec_mem _ _ _, State.modRec_cores _ _ _, ?_⟩
    rw [State.modRec_placement, hpm, hb]
    rfl
  · have hoff := foldl_same State.offGroups (fun (t : State) (g : Nat × List Nat) => t.failGroup b.lid g.1 f) b.groups
      { s with placement := mdel s.placement e } fun t g => t.failGroup_offGroups b.lid g.1 f
    refine ⟨_, exec_groupStart_eq (State.startEntry_fails hb hp hr hd hl hc hf), ?_, (congrArg State.strands hoff :),
      (congrArg State.mem hoff :), failGroups_ended _ b.lid f b.groups_numbers⟩
    exact (congrArg (fun x : State => mget? x.placement e) hoff :).trans ((mget?_mdel _ _ _).trans (if_pos rfl))
  · refine ⟨_, exec_groupStart_eq (State.startEntry_starts hb hp hr hd hl hf), ?_, fun c => ?_, fun x hx => ?_⟩
    · rw [State.startGroups_placement, mget?_mdel, if_pos rfl]
    · obtain ⟨hnew, hold⟩ := s.startGroups_core e b l (s.launchCtx l) c
      split
      next hc => exact (hnew hc).state
      next hc => exact Core.kept_of_offTlb (hold hc)
    · obtain ⟨hrun, hstr⟩ := startGroups_started (s.coresTaken e b) l (s.launchCtx l) hns x hx
      refine ⟨hrun, fun p n hp => ?_⟩
      rw [hstr p n hp]
      exact startStrand_state l (s.launchCtx l) n x.1 p
  · refine ⟨_, execGroupResume_due hb hp hr hd hl, ?_, fun x hx sv hsv => ?_⟩
    · rw [resumeGroups_placement, mget?_mdel, if_pos rfl]
    · have hres := resumeGroups_resumed { s with placement := mdel s.placement e } l (s.launchCtx l) hns x hx sv hsv
      exact ⟨hres.gone, hres.running, fun p n img hp hi => hres.state hp hi⟩
  · intro cw r bs
    have hx {o : Except (Cause × Nat) Nat} (ho : r.2 = o) : s.frontXlate (ctxSpace cw 0) (recordVa l) true = (r.1, o) :=
      Prod.ext rfl ho
    refine ⟨fun x hv => ?_, fun pa x hv ht => ?_, fun pa w dst q hv ht hlid hl => ?_, fun pa q hv ht => ⟨fun hc => ?_, fun hc => ?_⟩⟩
    · obtain ⟨hfree, hmem, -, -⟩ := r.1.endUnrecorded_frame lid
      exact ⟨_, execLaunchComplete_of_error h he hr (hx hv), hfree, hmem⟩
    · obtain ⟨hfree, hmem, -, -⟩ := r.1.endUnrecorded_frame lid
      exact ⟨_, execLaunchComplete_of_no_target h he hr (hx hv) ht, hfree, hmem⟩
    · subst hlid
      have hexec := execLaunchComplete_of_window h he hr (hx hv) ht
      intro wait room sends
      refine ⟨fun h0 hroom => ?_, fun h1 hw hroom => ?_, fun h2 hw => ?_, fun h1 hw => ?_, fun hdue hroom => ?_⟩
      · rw [State.recordByWindow_first h0] at hexec
        obtain ⟨k, hk⟩ := State.sendRecord_sends (part := ctxPart cw) (pa := q) (bs := bs) (o := 8) (n := 56) hl hroom
        exact ⟨_, k, hexec, hk⟩
      · rw [State.recordByWindow_second h1 hw] at hexec
        obtain ⟨k, hk⟩ := State.sendRecord_sends (part := ctxPart cw) (pa := q) (bs := bs) (o := 0) (n := 8) hl hroom
        exact ⟨_, k, hexec, hk⟩
      · rw [State.recordByWindow_done h2 hw] at hexec
        exact ⟨_, hexec, State.freeLaunch_launches _ _, rfl⟩
      · rw [State.recordByWindow_waits h1 hw] at hexec
        exact hexec
      · obtain ⟨o, n, hsend⟩ := State.recordByWindow_due (s := r.1) (part := ctxPart cw) (w := w) (pa := q) (bs := bs) hdue
        obtain ⟨hmem, hsrc, hlaunches⟩ := State.sendRecord_waits (part := ctxPart cw) (pa := q) (bs := bs) (o := o) (n := n) hroom
        exact ⟨_, hexec.trans (congrArg Host.Outcome.next hsend), hmem, hsrc, (congrArg (mget? · l.lid) hlaunches).trans hl⟩
    · exact execLaunchComplete_of_closed h he hr (hx hv) ht hc
    · refine ⟨_, execLaunchComplete_of_mem h he hr (hx hv) ht hc, State.freeLaunch_launches _ _, fun a => ?_⟩
      exact (State.freeLaunch_readBytes _ _ _ _).trans (r.1.recordStored_readBytes q (r.1.recordBytes_length l _) a)

end

section
/-! Stores of a strand (R113, R226, R227, R231): the byte that a list of writes leaves at an address, the pieces of a queued
write, and `WRITE_QUEUE_PERFORM`. -/

namespace Sys2Proof.Machine

/-! ### The last write to an address -/

/-- The last of a list of writes that stores at address `a`. -/
def lastStore (l : List (Nat × Byte)) (a : Nat) : Option (Nat × Byte) := l.reverse.find? (fun b => b.1 == a)

theorem lastStore_append (l r : List (Nat × Byte)) (a : Nat) : lastStore (l ++ r) a = (lastStore r a).or (lastStore l a) := by
  simp only [lastStore, List.reverse_append, List.find?_append]

theorem lastStore_eq_none {l : List (Nat × Byte)} {a : Nat} : lastStore l a = none ↔ ∀ p ∈ l, p.1 ≠ a := by
  simp [lastStore]

/-- The byte that a list of writes leaves at an address where there was `old`. -/
def storeOver (l : List (Nat × Byte)) (a : Nat) (old : Byte) : Byte := ((lastStore l a).map Prod.snd).getD old

theorem storeOver_append (l r : List (Nat × Byte)) (a : Nat) (old : Byte) :
    storeOver (l ++ r) a old = storeOver r a (storeOver l a old) := by
  unfold storeOver
  rw [lastStore_append]
  cases lastStore r a <;> rfl

theorem storeOver_cons (p : Nat × Byte) (r : List (Nat × Byte)) (a : Nat) (old : Byte) :
    storeOver (p :: r) a old = storeOver r a (if p.1 = a then p.2 else old) := by
  rw [← List.singleton_append, storeOver_append]
  congr 1
  by_cases h : p.1 = a <;> simp [storeOver, lastStore, h]

/-- Of bytes stored twice the last one stands. -/
theorem memGet_memSetAll (m : List Host.Cell) (l : List (Nat × Byte)) (a : Nat) :
    memGet (memSetAll m l) a = storeOver l a (memGet m a) := by
  induction l generalizing m with
  | nil => rfl
  | cons p r ih =>
    have hcons : memSetAll m (p :: r) = memSetAll (memSet m p.1 p.2) r := rfl
    rw [hcons, ih, storeOver_cons, memGet_memSet]

/-- What a reader finds after one store of an agent (R231). -/
theorem State.store_view (s : State) (pts : W64) (bytes : List (Nat × Byte)) (a : Nat) :
    (s.store pts bytes).1.view a = storeOver bytes a (s.view a) := by
  cases hlast : lastStore bytes a with
  | none =>
    rw [s.store_view_of_not_mem pts bytes a (lastStore_eq_none.1 hlast), storeOver, hlast]
    rfl
  | some p =>
    have hmem : ∃ x ∈ bytes, x.1 = a := by
      by_contra hno
      have := lastStore_eq_none.2 fun x hx he => hno ⟨x, hx, he⟩
      simp [hlast] at this
    have hne : bytes.isEmpty = false := by
      obtain ⟨x, hx, -⟩ := hmem
      exact List.isEmpty_eq_false_iff.2 (List.ne_nil_of_mem hx)
    obtain ⟨m, hm⟩ := s.storeAt_view_of_mem (s.storeStamp pts ((bytes.map (fun p => p.1 / 256)).eraseDups)) hmem
    simp only [State.store, hne, Bool.false_eq_true, if_false, hm, memGet_memSetAll, storeOver, hlast]
    rfl

/-! ### Stores of a strand (R99, R231) -/

/-- No launch keeps a write log of what strand `n` writes (R99). -/
def State.Unlogged (s : State) (n : Nat) : Prop :=
  ∀ b l, (s.strand n).bound = some b → mget? s.launches b.lid = some l → l.restartable = false

/-- The write log of a launch that cannot be restarted takes no line. -/
theorem State.logBytes_of_not_restartable {s : State} {lid : Nat} (h : ∀ l, mget? s.launches lid = some l → l.restartable = false)
    (die : Nat) (bytes : List (Nat × Byte)) : s.logBytes lid die bytes = s := by
  have hline : ∀ line, s.logLine lid die line = s := fun line => by
    unfold State.logLine
    split
    · rfl
    · next l hl => rw [if_pos (by simp [h l hl])]
  exact foldl_keeps (· = s) _ _ _ rfl fun t line ht => ht ▸ hline line

theorem State.storeBy_of_unlogged {s : State} {n : Nat} (h : s.Unlogged n) (bytes : List (Nat × Byte)) :
    s.storeBy n bytes = (s.store (s.pts n) bytes).1.setPts n (s.store (s.pts n) bytes).2 := by
  unfold State.storeBy
  cases hb : (s.strand n).bound with
  | none => rfl
  | some b => simp only [State.logBytes_of_not_restartable fun l => h b l hb]

/-- State `t` is what the stores `bytes` of strand `n` make of `s`: the bytes stand, and of the strands only the pts of the
storing one has moved. -/
structure Stored (n : Nat) (bytes : List (Nat × Byte)) (s t : State) : Prop where
  view : ∀ a, t.view a = storeOver bytes a (s.view a)
  launches : t.launches = s.launches
  self : ∃ p, t.strand n = { s.strand n with ctl := { (s.strand n).ctl with pts := p } }
  others : ∀ k, k ≠ n → t.strand k = s.strand k

theorem Stored.readBytes_of_some {n a : Nat} {l : List (Nat × Byte)} {s t : State} {p : Nat × Byte} (h : Stored n l s t)
    (hl : lastStore l a = some p) : t.readBytes a 1 = [p.2] := by
  rw [State.readBytes_one, h.view, storeOver, hl]
  rfl

theorem Stored.readBytes_of_none {n a : Nat} {l : List (Nat × Byte)} {s t : State} (h : Stored n l s t)
    (hl : lastStore l a = none) : t.readBytes a 1 = s.readBytes a 1 := by
  rw [State.readBytes_one, State.readBytes_one, h.view, storeOver, hl]
  rfl

theorem Stored.trans {n : Nat} {l r : List (Nat × Byte)} {s t u : State} (h : Stored n l s t) (g : Stored n r t u) :
    Stored n (l ++ r) s u := by
  refine ⟨fun a => ?_, g.launches.trans h.launches, ?_, fun k hk => (g.others k hk).trans (h.others k hk)⟩
  · rw [g.view, h.view, storeOver_append]
  · obtain ⟨p, hp⟩ := h.self
    obtain ⟨q, hq⟩ := g.self
    exact ⟨q, by rw [hq, hp]⟩

theorem Stored.unlogged {n : Nat} {l : List (Nat × Byte)} {s t : State} (h : Stored n l s t) (hs : s.Unlogged n) :
    t.Unlogged n := by
  obtain ⟨p, hp⟩ := h.self
  intro b x hb hx
  rw [hp] at hb
  rw [h.launches] at hx
  exact hs b x hb hx

theorem State.storeBy_stored {s : State} {n : Nat} (h : s.Unlogged n) (bytes : List (Nat × Byte)) :
    Stored n bytes s (s.storeBy n bytes) := by
  have hoff := s.store_offMemory (s.pts n) bytes
  have hstrand : ∀ k, (s.store (s.pts n) bytes).1.strand k = s.strand k := fun k =>
    (congrArg (fun t : State => t.strand k) hoff :)
  rw [State.storeBy_of_unlogged h]
  refine ⟨s.store_view _ bytes, (congrArg State.launches hoff :), ⟨(s.store (s.pts n) bytes).2, ?_⟩, fun k hk => ?_⟩
  · rw [State.setPts, State.strand_modStrand, if_pos rfl, hstrand]
  · rw [State.setPts, State.strand_modStrand, if_neg hk.symm, hstrand]

/-! ### The pieces of a queued write (R226) -/

/-- The bytes that a piece stores in memory, each at the piece's physical address plus its offset. -/
def Piece.inMemory (p : Piece) : List (Nat × Byte) :=
  match p.tgt with
  | .mem pa => p.bytes.map (fun b => (pa + b.1, b.2))
  | .window _ _ _ => []

/-- Pieces that all go to memory are all stored, in order, behind the bytes already collected. -/
theorem State.performPieces_of_mem (n id : Nat) {ps : List Piece} (hmem : ∀ p ∈ ps, ∃ pa, p.tgt = .mem pa) {s : State}
    (hs : s.Unlogged n) (acc : List (Nat × Byte)) :
    ∃ t, s.performPieces n id ps acc = (t, []) ∧ Stored n (acc ++ ps.flatMap Piece.inMemory) s t := by
  induction ps generalizing s acc with
  | nil => exact ⟨_, rfl, by simpa using State.storeBy_stored hs acc⟩
  | cons p r ih =>
    obtain ⟨pa, hpa⟩ := hmem p List.mem_cons_self
    have hbs : p.inMemory = p.bytes.map (fun b => (pa + b.1, b.2)) := by rw [Piece.inMemory, hpa]
    replace ih := @ih fun q hq => hmem q (List.mem_cons_of_mem p hq)
    rw [List.flatMap_cons, ← List.append_assoc]
    cases hj : p.join with
    | true =>
      obtain ⟨t, ht, hst⟩ := ih hs (acc ++ p.inMemory)
      refine ⟨t, ?_, hst⟩
      rw [← ht, hbs]
      simp only [State.performPieces, hpa, hj, if_true]
    | false =>
      have hacc := State.storeBy_stored hs acc
      obtain ⟨t, ht, hst⟩ := ih (hacc.unlogged hs) p.inMemory
      refine ⟨t, ?_, by rw [List.append_assoc]; exact hacc.trans hst⟩
      rw [← ht, hbs]
      simp only [State.performPieces, hpa, hj, Bool.false_eq_true, if_false]

/-! ### `WRITE_QUEUE_PERFORM` (R113, R227) -/

/-- A multicast without peers sends nothing. -/
theorem State.performPeers_nil (s : State) (n : Nat) (q : QWrite) (pa : Nat) : s.performPeers n q pa [] = (s, []) := by
  unfold State.performPeers
  split <;> rfl

section
variable {s : State} {n : Nat} {q : QWrite} {rest : List QWrite} (hq : (s.strand n).wq = q :: rest)
include hq

theorem execWriteQueuePerform_waits
    (h : ((s.strand n).slipped q.seq || (s.strand n).open_.any (fun e => ordLt e.seq e.slot q.seq q.slot)) = true) :
    execWriteQueuePerform n s = .next s := by
  simp only [execWriteQueuePerform, hq, if_pos h]

theorem execWriteQueuePerform_of_mem
    (h : ((s.strand n).slipped q.seq || (s.strand n).open_.any (fun e => ordLt e.seq e.slot q.seq q.slot)) = false)
    (hpeers : q.peers = []) {t : State} (ht : s.performPieces n q.id q.pieces [] = (t, [])) : execWriteQueuePerform n s =
      .next ((t.modStrand n (fun x => { x with wq := rest })).orFlags n (q.fl ||| q.sfl)) := by
  simp only [execWriteQueuePerform, hq, h, Bool.false_eq_true, if_false, ht, hpeers, List.isEmpty_nil, if_true,
    State.performPeers_nil, and_self]

end

end Sys2Proof.Machine

open Sys2Proof.Machine

/-- Settles O35: a ready write of memory pieces stores them one after another, and leaves the queue with its flags. -/
theorem storePerforms : Obligations.StorePerforms := by
  intro s n q rest _ hq ready bytes
  refine ⟨fun hwait => execWriteQueuePerform_waits hq (by simpa [ready, ← Bool.not_or] using hwait),
    fun hready hpeers hmem hlog => ?_⟩
  obtain ⟨t, ht, hstored⟩ := State.performPieces_of_mem n q.id hmem hlog []
  obtain ⟨p, hself⟩ := hstored.self
  refine ⟨_, execWriteQueuePerform_of_mem hq (by simpa [ready, ← Bool.not_or] using hready) hpeers ht, ?_, ?_, fun a => ?_,
    ?_, ?_, fun k hk => ?_⟩
  · simp [State.orFlags]
  · simp [State.orFlags, hself]
  · split
    · next b hb => exact hstored.readBytes_of_some hb
    · next hb => exact hstored.readBytes_of_none hb
  · simp [State.orFlags, hself]
  · simp [State.orFlags, hself]
  · simp [State.orFlags, hstored.others k hk, hk.symm]

end

section
/-! Code lines and the fetch (R104 to R108): the fields of a link word, the checks of Table 5-2, `CODE_FETCH`. -/

namespace Sys2Proof.Machine

/-! ### Fields of a link word and of a PC (Table 5-1, R106) -/

theorem linkCnt_eq (w : W32) : linkCnt w = (w.extractLsb' 1 3).toNat := (BitVec.extractLsb'_toNat ..).symm

theorem linkNxt_ne_zero_iff (w : W32) : linkNxt w ≠ 0 ↔ w.extractLsb' 4 24 ≠ 0 := by
  have hbits : bitsN w.toNat 27 4 = (w.extractLsb' 4 24).toNat := (BitVec.extractLsb'_toNat ..).symm
  have hlt := (w.extractLsb' 4 24).isLt
  rw [linkNxt, hbits, sIntN, Nat.mod_eq_of_lt hlt, ne_eq, ne_eq, ← BitVec.toNat_inj]
  show ¬ (if 2 ^ 23 ≤ _ then _ else _) = (0 : Int) ↔ ¬ _ = 0
  split <;> omega

theorem linkOwn_testBit (w : W32) (i : Nat) : (linkOwn w).testBit i = (w.extractLsb' 28 4).getLsbD i := by
  have hbits : linkOwn w = (w.extractLsb' 28 4).toNat := (BitVec.extractLsb'_toNat ..).symm
  rw [hbits, BitVec.testBit_toNat]

theorem bundleOf_eq (pc : W64) : bundleOf pc = (pc.extractLsb' 0 3).toNat := by
  rw [BitVec.extractLsb'_toNat, Nat.shiftRight_zero]
  rfl

/-! ### The fetch (Table 5-2) -/

/-- What the checks of Table 5-2 make of the bytes `l` of a line, for the strand at position `pos` of its core. -/
def lineChecked (l : List Byte) (pos : Nat) (pc : W64) (off : Bool) : Fetched :=
  let link := word32 l 0
  let cnt := (link.extractLsb' 1 3).toNat
  let i := (pc.extractLsb' 0 3).toNat
  let bad (sub : Nat) : Fetched := .fault { cause := .fetch, sub := sub, fx := true }
  if cnt = 0 ∨ 5 < cnt ∨ (link.getLsbD 0 = true ∧ link.extractLsb' 4 24 ≠ 0) then bad fLink
  else if (link.extractLsb' 28 4).getLsbD pos = false then bad fOwn
  else if off = true then bad fEnd
  else if pc.extractLsb' 3 3 ≠ 0 ∨ cnt ≤ i then bad fBundle
  else .ok link (word32 l (4 + 12 * i)) (word32 l (8 + 12 * i)) (word32 l (12 + 12 * i))

/-- A line that is translated, lies in memory and is not marked is read and checked. -/
theorem State.fetch_of_xlate {s s1 : State} {n : Nat} {pc : W64} {pa : Nat} {t : Tlb} (off : Bool)
    (hx : s.xlate n (lineOf pc) .fetch = (s1, .ok pa t)) (hpa : paHome pa = true) (hm : s1.marked (pa / 256) = false) :
    s.fetch n pc off = (s1, lineChecked (s1.readBytes pa 64) (posInCore n) pc off) := by
  have hb (k : Nat) : 4 + 12 * k + 4 = 8 + 12 * k := by omega
  have hc (k : Nat) : 4 + 12 * k + 8 = 12 + 12 * k := by omega
  simp only [State.fetch, hx, hpa, hm, Bool.not_true, Bool.false_eq_true, if_false, lineChecked, linkCnt_eq, linkNxt_ne_zero_iff,
    linkOwn_testBit, bundleOf_eq, extractLsb'_eq_zero_iff pc 3 3 5 rfl, ne_eq, Bool.not_eq_true', linkLast,
    apply_ite (Prod.mk s1), hb, hc]

/-! ### `CODE_FETCH` (R108) -/

theorem execCodeFetch_of_held {s : State} {n : Nat} (h : ((s.strand n).canIssue s.clk && !(s.strand n).aHeld) = false) :
    execCodeFetch n s = .next s := by
  simp only [execCodeFetch, h, Bool.false_eq_true, if_false]

theorem execCodeFetch_of_free {s : State} {n : Nat} (h : ((s.strand n).canIssue s.clk && !(s.strand n).aHeld) = true) :
    execCodeFetch n s = .next (s.fetchTurn n) := by
  simp only [execCodeFetch, h, if_true]

/-- A bundle that is fetched goes into the empty latch. -/
theorem State.fetchTurn_of_ok {s s1 : State} {n : Nat} {link wa wb wc : W32} (hl : (s.strand n).front.latch = none)
    (hf : s.fetch n (s.strand n).front.pc (s.strand n).front.fellOff = (s1, .ok link wa wb wc)) : s.fetchTurn n =
      s1.modStrand n (fun x => { x with front := x.front.latched (x.front.fetched link wa wb wc) }) := by
  simp only [State.fetchTurn, hl, hf, Option.isSome_none, Bool.false_eq_true, if_false]

end Sys2Proof.Machine

open Sys2Proof.Machine

/-- Settles O6: the checks of Table 5-2 in terms of the link word's fields, and the latch that `CODE_FETCH` fills. -/
theorem fetchReadsBundle : Obligations.FetchReadsBundle := by
  refine ⟨fun s s1 n pc off pa t hx hpa hm => ?_, fun s n => ⟨execCodeFetch_of_held, fun h hl s1 link wa wb wc hf => ?_⟩⟩
  · intro word link cnt i bad
    rw [State.fetch_of_xlate off hx hpa hm]
    simp only [lineChecked, apply_ite (Prod.mk s1)]
    rfl
  · refine ⟨_, (execCodeFetch_of_free h).trans (congrArg _ (State.fetchTurn_of_ok hl hf)), rfl, ?_, ?_⟩ <;>
      rw [State.strand_modStrand, if_pos rfl]

end

section
/-! A strand's clock in split mode when nothing stands before it (R107, R108, R110, R111, R131): the fetch, slot A of the bundle
fetched, and, where that issues, slots B and C. -/

namespace Sys2Proof.Machine

/-! ### The parts of the clock -/

theorem pairTurn_of_no_pairs (ex : Exec) {s : State} {n : Nat} (h : (s.strand n).front.pairs = []) : pairTurn ex s n = .next s := by
  simp only [pairTurn, h]

theorem State.releaseHeld_of_none {s : State} {n : Nat} (h : (s.strand n).front.held = none) : s.releaseHeld n = s := by
  simp only [State.releaseHeld, h]

theorem slotATurn_of_latched (ex : Exec) {s s1 : State} {n : Nat} {b : Bundle} (hheld : (s.strand n).aHeld = false)
    (hf : s.fetchTurn n = s1) (hl : (s1.strand n).front.latch = some b) (hheld1 : (s1.strand n).aHeld = false) :
    slotATurn ex s n = issueA ex s1 n b := by
  simp only [slotATurn, hheld, Bool.false_eq_true, if_false, hf, hl, hheld1]

/-- Slot A of a bundle with no pair before it runs its instruction; what becomes of the bundle follows from the outcome. -/
theorem issueA_of_next {ex : Exec} {s t : State} {n : Nat} {b : Bundle} {i : Instr} {dir : Option Bool}
    (hp : (s.strand n).front.pairs = []) (hdir : (s.strand n).loopDecision (decodeBundle b.wa b.wb b.wc) = some dir)
    (hdone : b.aDone = false) (hd : (decodeBundle b.wa b.wb b.wc).a = .ok i)
    (hx : ex i (s.enterSlot n ⟨b.seq, b.pc, b.link, (decodeBundle b.wa b.wb b.wc).extA, false⟩) = .next t) :
    issueA ex s n b = .next (if t.slotStalled n then s.keepMisses t else if t.slotTrapped n then t
      else t.modStrand n (fun x => x.aIssued b dir)) := by
  have hhaz : (s.strand n).nameHazard i = false := by simp only [Strand.nameHazard, hp, List.any_nil]
  simp only [issueA, hdir, hdone, hd, hhaz, runSlot, hx, Result.bind, Bool.false_eq_true, if_false]
  repeat' split
  all_goals rfl

/-! ### A strand at rest -/

theorem State.modStrand_congr {s : State} {n : Nat} {f g : Strand → Strand} (h : f (s.strand n) = g (s.strand n)) :
    s.modStrand n f = s.modStrand n g := by
  simp only [State.modStrand, h]

/-- A bundle in the latch holds up no slot A. -/
theorem Strand.aHeld_latched (st : Strand) (b : Bundle) : ({ st with front := st.front.latched b } : Strand).aHeld = st.aHeld :=
  rfl

/-- The strand as its clock begins: no bundle of it is stepped, no trap of this clock. -/
def Strand.unstepped (st : Strand) : Strand := { st with front := { st.front with stepped := false, trapped := false } }

end Sys2Proof.Machine

namespace Sys2Proof

open Sys2Proof.Machine

theorem AtRest.not_held {st : Strand} {clk : Nat} (h : AtRest st clk) : st.aHeld = false := by
  have hss : st.ctl.ss = false := h.noStep
  simp [Strand.aHeld, h.noWait, h.noHeld, h.noTrap, h.noPairs, h.noWindow, h.noWriter, hss]

theorem AtRest.unstepped {st : Strand} {clk : Nat} (h : AtRest st clk) : AtRest st.unstepped clk :=
  ⟨h.can, h.noTrap, h.noHeld, h.noWait, h.noPairs, h.noLatch, h.noMarks, h.slot0, h.noWindow, h.noWriter, h.noStep, h.noReturn⟩

/-- A bundle fetched at rest has not issued its slot A. -/
theorem AtRest.fetched_aDone {st : Strand} {clk : Nat} (h : AtRest st clk) (link wa wb wc : W32) :
    (st.front.fetched link wa wb wc).aDone = false := by
  simp [Front.fetched, h.slot0, h.noMarks]

/-- A strand at rest does its slot A; slots B and C follow in the same clock while it may still issue. -/
theorem strandTurn_of_rest {ex : Exec} {s s2 : State} {n : Nat} (h : AtRest (s.strand n) s.clk)
    (hA : slotATurn ex (s.modStrand n Strand.unstepped) n = .next s2) : strandTurn ex s n =
      if (s2.strand n).canIssue s2.clk && !(s2.strand n).front.trapping.isSome then pairTurn ex s2 n else .next s2 := by
  have hss : (s.strand n).ctl.ss = false := h.noStep
  have hbegin : s.modStrand n (fun x => { x with front :=
      { x.front with stepped := x.ctl.ss && x.front.stepped, trapped := false } }) = s.modStrand n Strand.unstepped :=
    State.modStrand_congr (by rw [hss, Bool.false_and]; rfl)
  have hst : (s.modStrand n Strand.unstepped).strand n = (s.strand n).unstepped := by rw [State.strand_modStrand, if_pos rfl]
  have hpairs : pairTurn ex (s.modStrand n Strand.unstepped) n = .next (s.modStrand n Strand.unstepped) :=
    pairTurn_of_no_pairs ex (hst ▸ h.unstepped.noPairs)
  have hrel : (s.modStrand n Strand.unstepped).releaseHeld n = s.modStrand n Strand.unstepped :=
    State.releaseHeld_of_none (hst ▸ h.unstepped.noHeld)
  have hcan : (s.strand n).unstepped.canIssue s.clk = true := h.unstepped.can
  have htrapped : (s.modStrand n Strand.unstepped).slotTrapped n = false := by rw [State.slotTrapped, hst]; rfl
  simp only [strandTurn, h.can, h.noTrap, h.noReturn, hss, hbegin, hpairs, Result.bind, htrapped, hst, State.modStrand_clk, hcan,
    h.noPairs, hrel, hA, Bool.not_true, Bool.false_and, Bool.false_eq_true, Bool.or_self, Option.isSome_none, List.isEmpty_nil,
    if_false, Bool.true_and]

/-- A strand at rest whose fetch delivers a bundle is at the slot A of that bundle. -/
theorem slotATurn_of_fetch (ex : Exec) {s s2 : State} {n : Nat} {clk : Nat} {link wa wb wc : W32} (h : AtRest (s.strand n) clk)
    (hf : s.fetch n (s.strand n).front.pc (s.strand n).front.fellOff = (s2, .ok link wa wb wc)) (hs : s2.strand n = s.strand n) :
    let b := (s2.strand n).front.fetched link wa wb wc
    slotATurn ex s n = issueA ex (s2.modStrand n (fun x => { x with front := x.front.latched b })) n b := by
  have h2 : AtRest (s2.strand n) clk := hs ▸ h
  refine slotATurn_of_latched ex h.not_held (State.fetchTurn_of_ok h.noLatch hf) ?_ ?_
  · rw [State.strand_modStrand, if_pos rfl]
    rfl
  · rw [State.strand_modStrand, if_pos rfl, Strand.aHeld_latched]
    exact h2.not_held

end Sys2Proof

open Sys2Proof Sys2Proof.Machine

/-- Settles O5: at rest only the fetched bundle can issue, and its slot A's outcome decides whether slots B and C follow. -/
theorem nextBundleRuns : Obligations.NextBundleRuns := by
  intro s s2 t n r link wa wb wc i dir hth hag hrest s0 s1 f b s3 d hf hstrand hclk hd hdir hx after
  have hst1 : s1.strand n = (s.strand n).unstepped := by
    simp only [s1, State.strand_modStrand, if_true]
    rfl
  have hrest1 : AtRest (s1.strand n) s.clk := hst1 ▸ hrest.unstepped
  have hst3 : s3.strand n = { s2.strand n with front := (s2.strand n).front.latched b } := by
    simp only [s3, State.strand_modStrand, if_true]
  have hrest2 : AtRest (s2.strand n) s.clk := hstrand ▸ hrest1
  have hpairs : (s3.strand n).front.pairs = [] := by rw [hst3]; exact hrest2.noPairs
  have hA : slotATurn exec s1 n = .next (if t.slotStalled n then s3.keepMisses t else if t.slotTrapped n then t else after) :=
    (slotATurn_of_fetch exec hrest1 (by rw [hst1]; exact hf) hstrand).trans
      (issueA_of_next hpairs hdir (hrest2.fetched_aDone link wa wb wc) hd hx)
  have hstep {u : State} (hu : (if t.slotStalled n then s3.keepMisses t else if t.slotTrapped n then t else after) = u) :
      step s = if (u.strand n).canIssue u.clk && !(u.strand n).front.trapping.isSome then pairTurn exec u n else .next u :=
    (step_of_agenda hth hag).trans (strandTurn_of_rest (s := s0) hrest (hA.trans (congrArg _ hu)))
  refine ⟨fun hstall => ?_, fun hstall htrap hstop => ?_, fun hstall htrap hcan hnone => ?_⟩
  · rw [hstep (if_pos hstall), pairTurn_of_no_pairs exec (s := s3.keepMisses t) hpairs, ite_self]
  · rw [hstep (u := t) (by simp [hstall, htrap]), if_neg]
    obtain hcan | hset := hstop
    · simp [hcan]
    · simp [Option.isSome_iff_ne_none.2 hset]
  · rw [hstep (u := after) (by simp [hstall, htrap]), hcan, hnone]
    rfl

end

section
/-! Gang mode (R114, R116, R118, R147, R154): `GANG` at its issue and in each clock that it waits, `SPLIT` and `GBR`. -/

namespace Sys2Proof.Machine

/-! ### `GANG` (R114) -/

theorem execGang_of_on {s : State} (h : (s.core (coreOf s.cur)).gang.on = true) : execGang s = .next s := by
  simp only [execGang, h, if_true]

/-- Outside gang mode `GANG` waits, and raises GANGSYNC at its issue where the gang cannot come about. -/
theorem execGang_of_off {s : State} (h : (s.core (coreOf s.cur)).gang.on = false) : execGang s = s.runWaitC .gang noAddr
    (fun _ t => if t.gangBroken t.cur then some { cause := .gangsync } else none) gangGo := by
  simp only [execGang, h, Bool.false_eq_true, if_false]

theorem execGang_of_resuming {s : State} {e : Entry} (h : (s.core (coreOf s.cur)).gang.on = false)
    (he : s.resuming .gang = some e) : execGang s = .next (gangGo e s) :=
  (execGang_of_off h).trans (runWaitC_of_resuming _ _ _ he)

theorem execGang_broken {s : State} {g : Pass} (h : (s.core (coreOf s.cur)).gang.on = false) (hr : s.resuming .gang = none)
    (hg : PassesC s .gang g) (hfull : g.st.openFull .gang = false) (hb : s.gangBroken s.cur = true) :
    execGang s = .next (s.raise s.cur { cause := .gangsync, slot := 2 }) := by
  obtain ⟨hpass, hpoison⟩ := hg
  unfold Passes at hpass
  simp only [execGang_of_off h, State.runWaitC, hr, hpass, hpoison, hfull, hb, Bool.false_eq_true, if_false, if_true]

/-- Opening a `GANG`, which writes no register, touches no core. -/
theorem openedC_gang_core (s : State) (g : Pass) (c : Nat) : (openedC s .gang g).core c = s.core c := rfl
theorem openedC_gang_cur (s : State) (g : Pass) : (openedC s .gang g).cur = s.cur := rfl

/-- The clock in which a `GANG` issues is a clock of the open operation. -/
theorem execGang_of_opens {s : State} {g : Pass} {e : Entry} (h : (s.core (coreOf s.cur)).gang.on = false)
    (ho : OpensC s .gang g e) (hb : s.gangBroken s.cur = false) : execGang s = execGang (openedC s .gang g) := by
  obtain ⟨hr, ⟨hpass, hpoison⟩, hfull, hopen⟩ := ho
  unfold Passes at hpass
  rw [execGang_of_resuming (by rw [openedC_gang_cur, openedC_gang_core, h]) hopen]
  simp only [openedC, Pass.va, Pass.vb, Pass.vc] at hopen
  simp only [execGang_of_off h, State.runWaitC, hr, hpass, hpoison, hfull, hb, Bool.false_eq_true, if_false, hopen, openedC,
    Pass.va, Pass.vb, Pass.vc]

/-! ### A clock of an open `GANG` (R114) -/

theorem gangGo_broken {s : State} (e : Entry) (hb : s.gangBroken s.cur = true) : gangGo e s =
    (s.modCore (coreOf s.cur) (fun k => k.depart (posInCore s.cur))).trapEntry s.cur e { cause := .gangsync } := by
  simp only [gangGo, hb, if_true]

/-- The strands of the core whose `GANG`s have arrived, the executing strand's among them. -/
def State.arrivals (s : State) (e : Entry) : AMap Nat := mset (s.core (coreOf s.cur)).gang.arrived (posInCore s.cur) e.id

theorem State.arrive_arrived (s : State) (e : Entry) :
    ((s.modCore (coreOf s.cur) (fun k => k.arrive (posInCore s.cur) e.id)).core (coreOf s.cur)).gang.arrived = s.arrivals e := by
  rw [State.core_modCore, if_pos rfl]
  rfl

/-- The strand at position `y.1` of core `c` ends its `GANG`, entry `y.2`, and issues nothing before the next clock. -/
def State.endGang (c : Nat) (s : State) (y : Nat × Nat) : State :=
  (s.dropEntry (4 * c + y.1) y.2).modStrand (4 * c + y.1) (Strand.holdUntil (s.clk + 1))

/-- Strand `n` issues nothing before clock `k`, and its operation `id` is not open. -/
def State.HeldAfter (s : State) (n id k : Nat) : Prop := (s.strand n).front.wake = k ∧ s.entry? n id = none

theorem State.endGang_heldAfter (s : State) (c : Nat) (y : Nat × Nat) :
    (s.endGang c y).HeldAfter (4 * c + y.1) y.2 (s.clk + 1) := by
  simp [State.HeldAfter, State.endGang, State.entry?, State.dropEntry, Strand.holdUntil]

/-- A strand that is held stays held while others end their operations. -/
theorem State.HeldAfter.endGang {s : State} {n id : Nat} (h : s.HeldAfter n id (s.clk + 1)) (c : Nat) (y : Nat × Nat) :
    (s.endGang c y).HeldAfter n id (s.clk + 1) := by
  obtain ⟨hwake, hent⟩ := h
  by_cases hn : 4 * c + y.1 = n
  · subst hn
    simp only [State.entry?, List.find?_eq_none] at hent
    simpa [State.HeldAfter, State.endGang, State.entry?, State.dropEntry, Strand.holdUntil] using fun x hx _ => hent x hx
  · have hsame : (s.endGang c y).strand n = s.strand n := by
      simp only [State.endGang, State.dropEntry, State.strand_modStrand, if_neg hn]
    rw [State.HeldAfter, State.entry?, hsame]
    exact ⟨hwake, hent⟩

theorem endGangs_clk (c : Nat) (l : AMap Nat) (s : State) : (l.foldl (State.endGang c) s).clk = s.clk :=
  foldl_same State.clk _ _ _ fun _ _ => rfl

theorem endGangs_mem (c : Nat) (l : AMap Nat) (s : State) : (l.foldl (State.endGang c) s).mem = s.mem :=
  foldl_same State.mem _ _ _ fun _ _ => rfl

theorem endGangs_core (c d : Nat) (l : AMap Nat) (s : State) : (l.foldl (State.endGang c) s).core d = s.core d :=
  foldl_same (State.core · d) _ _ _ fun _ _ => rfl

theorem endGangs_heldAfter (c : Nat) (l : AMap Nat) (s : State) :
    ∀ y ∈ l, (l.foldl (State.endGang c) s).HeldAfter (4 * c + y.1) y.2 (s.clk + 1) := by
  induction l generalizing s with
  | nil => exact fun y hy => absurd hy List.not_mem_nil
  | cons x r ih =>
    intro y hy
    obtain rfl | hr := List.mem_cons.1 hy
    · have hend := foldl_keeps (fun t : State => t.HeldAfter (4 * c + y.1) y.2 (t.clk + 1)) (State.endGang c) r
        (s.endGang c y) (s.endGang_heldAfter c y) fun t z ht => ht.endGang c z
      rwa [endGangs_clk] at hend
    · exact ih (s.endGang c x) y hr

/-- With fewer than four strands the arrival is noted. -/
theorem gangGo_waits {s : State} {e : Entry} (hb : s.gangBroken s.cur = false) (ha : (s.arrivals e).length ≠ 4) :
    gangGo e s = s.modCore (coreOf s.cur) (fun k => k.arrive (posInCore s.cur) e.id) := by
  simp only [gangGo, hb, Bool.false_eq_true, if_false, s.arrive_arrived e, if_neg ha]

/-- With the fourth the core is in gang mode from the next clock, and the four operations end. -/
theorem gangGo_enters {s : State} {e : Entry} (hb : s.gangBroken s.cur = false) (ha : (s.arrivals e).length = 4) :
    gangGo e s = (s.arrivals e).foldl (State.endGang (coreOf s.cur))
      ((s.modCore (coreOf s.cur) (fun k => k.arrive (posInCore s.cur) e.id)).modCore (coreOf s.cur)
        (fun k => { k with gang := ⟨true, [], [], s.clk + 1⟩ })) := by
  simp only [gangGo, hb, Bool.false_eq_true, if_false, s.arrive_arrived e, if_pos ha]
  rfl

/-! ### `SPLIT` and `GBR` (R116, R118, R154) -/

theorem execSplit_of_gang {s : State} (h : s.ctxOf.gang = true) :
    execSplit s = .next (s.modCore (coreOf s.cur) (fun k => { k with gang := Gang.reset })) := by
  simp only [execSplit, h, if_true]

theorem execSplit_of_no_gang {s : State} (h : s.ctxOf.gang = false) :
    execSplit s = .next (s.raise s.cur { cause := .gangsync, slot := 2 }) := by
  simp only [execSplit, h, Bool.false_eq_true, if_false]

theorem execGbr_of_no_gang {s : State} (k : BitVec 3) (x : Bool) (o : BitVec 18) (b : BitVec 3) (h : s.ctxOf.gang = false) :
    execGbr k x o b s = .next (s.raise s.cur { cause := .gangsync, slot := 2 }) := by
  simp only [execGbr, h, Bool.not_false, if_true]

section
variable {s : State} (k : BitVec 3) (x : Bool) (o : BitVec 18) (b : BitVec 3) (hg : s.ctxOf.gang = true)
include hg

theorem execGbr_waits (hd : s.gbrDecision s.cur = none) : execGbr k x o b s = .next (s.stall s.cur) := by
  simp only [execGbr, hg, hd, Bool.not_true, Bool.false_eq_true, if_false]

theorem execGbr_poison {taken : Bool} (hd : s.gbrDecision s.cur = some taken)
    (hp : posInCore s.cur = 0 ∧ (s.me.regs.kP k.toNat).t.getLsbD 0 = true) :
    execGbr k x o b s = .next (s.raise s.cur { cause := .poison, slot := 2, einfo := 3 }) := by
  have hp' : posInCore s.cur = 0 ∧ ((s.strand s.cur).regs.kP k.toNat).t.getLsbD 0 = true := hp
  simp only [execGbr, hg, hd, if_pos hp', Bool.not_true, Bool.false_eq_true, if_false]

theorem execGbr_branches {taken : Bool} (hd : s.gbrDecision s.cur = some taken)
    (hp : ¬ (posInCore s.cur = 0 ∧ (s.me.regs.kP k.toNat).t.getLsbD 0 = true)) : execGbr k x o b s =
      .next (if taken then s.jump s.cur (branchTo s.ctxOf.pc o.toInt b) else s) := by
  have hp' : ¬ (posInCore s.cur = 0 ∧ ((s.strand s.cur).regs.kP k.toNat).t.getLsbD 0 = true) := hp
  simp only [execGbr, hg, hd, if_neg hp', Bool.not_true, Bool.false_eq_true, if_false]
  cases taken <;> rfl

end

/-- Strand 0's `GBR` decides by its predicate, once that is written (R116). -/
theorem State.gbrDecision_of_gbr {s : State} {n : Nat} {p : Pair} {r : List Pair} {k : BitVec 3} {x : Bool} {o : BitVec 18}
    {b : BitVec 3} (hp : (s.strand (4 * coreOf n)).front.pairs = p :: r) (hc : p.decoded.c = .ok (.gbr k x o b)) :
    s.gbrDecision n = if k ≠ 0 ∧ (s.strand (4 * coreOf n)).inFlight (.k k.toNat) = true then none
      else some (((s.strand (4 * coreOf n)).regs.kP k.toNat).v.getLsbD 0 != x) := by
  simp only [State.gbrDecision, hp, hc]

end Sys2Proof.Machine

open Sys2Proof.Machine

/-- Settles O44: `GANG` by whether the gang can come about and is complete, `SPLIT` and `GBR` by whether they stand in a long
word. -/
theorem gangMode : Obligations.GangMode := by
  intro s k b x o n c
  refine ⟨fun hg => ⟨_, execSplit_of_gang hg, ?_, rfl, rfl⟩, fun hg => ⟨execSplit_of_no_gang hg, execGbr_of_no_gang k x o b hg⟩,
    execGang_of_on, fun hoff => ⟨fun g hr hpass hfull hb => execGang_broken hoff hr hpass hfull hb,
      fun g e ho hb => execGang_of_opens hoff ho hb,
      fun e hr hb => (execGang_of_resuming hoff hr).trans (congrArg _ (gangGo_broken e hb)), fun e hr hb => ?_⟩, ?_⟩
  · rw [State.core_modCore, if_pos rfl]
  · intro a
    by_cases ha : a.length = 4
    · refine ⟨_, (execGang_of_resuming hoff hr).trans (congrArg _ (gangGo_enters hb ha)), endGangs_mem c a _,
        fun hne => absurd ha hne, fun _ => ⟨?_, endGangs_heldAfter c a _⟩⟩
      rw [endGangs_core, State.core_modCore, if_pos rfl]
    · refine ⟨_, (execGang_of_resuming hoff hr).trans (congrArg _ (gangGo_waits hb ha)), rfl, fun _ => ⟨rfl, ?_⟩,
        fun h4 => absurd h4 ha⟩
      rw [State.core_modCore, if_pos rfl]
      rfl
  · intro hg p r kk xx oo bb hp hc st0 taken
    have hd := State.gbrDecision_of_gbr hp hc
    refine ⟨fun hk hfl => execGbr_waits k x o b hg (hd.trans (if_pos ⟨hk, hfl⟩)), fun hready => ?_⟩
    have hdone : s.gbrDecision n = some taken := hd.trans (if_neg (by
      rintro ⟨hk, hfl⟩
      obtain h0 | hf := hready
      · exact hk h0
      · exact absurd hfl (by rw [hf]; exact Bool.false_ne_true)))
    refine ⟨fun h0 ht => execGbr_poison k x o b hg hdone ⟨h0, ht⟩, fun hno => execGbr_branches k x o b hg hdone ?_⟩
    rintro ⟨h0, ht⟩
    obtain hne | hf := hno
    · exact hne h0
    · rw [ht] at hf; cases hf

end

section
/-! NextPC of a bundle (R107, R145). -/

namespace Sys2Proof.Machine

/-- NXT is the signed value of its field. -/
theorem linkNxt_eq (w : W32) : linkNxt w = (w.extractLsb' 4 24).toInt := by
  have hbits : bitsN w.toNat 27 4 = (w.extractLsb' 4 24).toNat := (BitVec.extractLsb'_toNat ..).symm
  rw [linkNxt, hbits, sIntN, Nat.mod_eq_of_lt (w.extractLsb' 4 24).isLt, BitVec.toInt_eq_msb_cond, BitVec.msb_eq_decide]
  simp

theorem lineAt_eq {w : Nat} (pc : W64) (off : BitVec w) : lineAt pc off.toInt = lineOf pc + 64 * off.signExtend 64 := by
  rw [lineAt, BitVec.ofInt_mul]
  rfl

end Sys2Proof.Machine

open Sys2Proof.Machine

/-- Settles O7: the line of NXT by its signed field, the rest as the fields of the link word are read. -/
theorem nextPc : Obligations.NextPc := by
  intro pc link i cnt a
  rw [Sys2Proof.Machine.nextPc, bundleOf_eq, linkCnt_eq, linkNxt_eq, lineAt_eq]
  by_cases hi : i + 1 < cnt
  · exact (if_pos hi).trans (if_pos hi).symm
  · refine (if_neg hi).trans (Eq.trans ?_ (if_neg hi).symm)
    rw [linkLast]
    cases link.getLsbD 0 <;> rfl

end

section
/-! Slot C (R129, R144, R145, R426): jumps, results on their way, the end of a waiting operation, and the forms of issue as the
statements have them. -/

namespace Sys2Proof.Machine

/-! ### What a reservation leaves alone (R129) -/

@[simp] theorem State.strand_modRegs (s : State) (n m : Nat) (f : Regs → Regs) :
    (s.modRegs n f).strand m = if n = m then { s.strand n with regs := f (s.strand n).regs } else s.strand m :=
  s.strand_modStrand n m _

@[simp] theorem State.reserve_cur (s : State) (n id : Nat) (d : Dest) : (s.reserve n id d).cur = s.cur := by
  cases d <;> unfold State.reserve <;> dsimp only <;> repeat' split
  all_goals rfl

/-- What a change of a strand leaves of it, it leaves of every strand. -/
theorem State.modStrand_same {β : Type} (p : Strand → β) (s : State) (n m : Nat) (f : Strand → Strand)
    (hp : ∀ st, p (f st) = p st) : p ((s.modStrand n f).strand m) = p (s.strand m) := by
  rw [State.strand_modStrand]
  split
  · next h => rw [hp, h]
  · rfl

theorem State.modRegs_same {β : Type} (p : Strand → β) (s : State) (n m : Nat) (f : Regs → Regs)
    (hp : ∀ (st : Strand) r, p { st with regs := r } = p st) : p ((s.modRegs n f).strand m) = p (s.strand m) :=
  s.modStrand_same p n m (fun st => { st with regs := f st.regs }) fun st => hp st _

/-- A reservation changes queues alone. -/
theorem State.reserve_front (s : State) (n id m : Nat) (d : Dest) :
    ((s.reserve n id d).strand m).front = (s.strand m).front := by
  have hregs (k : Nat) (f : Regs → Regs) : ((s.modRegs k f).strand m).front = (s.strand m).front :=
    s.modRegs_same Strand.front k m f fun _ _ => rfl
  cases d with
  | k r => rfl
  | lk r p q => exact hregs p _
  | s r =>
    rw [State.reserve]
    split
    · exact hregs n _
    · rfl
  | v r =>
    rw [State.reserve]
    split
    · exact hregs n _
    · rfl

/-- The place that a scalar destination of operation `id` reserves: the tail of a queue, nothing of a plain register. -/
def Regs.reserveS (g : Regs) (r id : Nat) : Regs := if r < 24 then g.setSQ r (g.sQ r ++ [.hole id]) else g

theorem State.reserve_s_strand (s : State) (n id r m : Nat) : (s.reserve n id (.s r)).strand m =
    if n = m then { s.strand n with regs := (s.strand n).regs.reserveS r id } else s.strand m := by
  by_cases hr : r < 24
  · simp only [State.reserve, Regs.reserveS, hr, if_true, State.strand_modRegs]
  · simp only [State.reserve, Regs.reserveS, hr, if_false]
    split
    · next h => rw [h]
    · rfl

theorem State.reserve_s_agenda (s : State) (n id r : Nat) : (s.reserve n id (.s r)).agenda = s.agenda := by
  simp only [State.reserve]
  split <;> rfl

theorem Regs.reserveS_sQ (g : Regs) (r id : Nat) :
    (g.reserveS r id).sQ r = if r < 24 then g.sQ r ++ [.hole id] else g.sQ r := by
  unfold Regs.reserveS
  split
  · rw [Regs.sQ_setSQ, if_pos rfl]
  · rfl

theorem Regs.reserveS_sp (g : Regs) (r id : Nat) : (g.reserveS r id).sp = g.sp := by
  unfold Regs.reserveS
  split <;> rfl

/-! ### Opening an operation, putting a result on its way (R144) -/

@[simp] theorem State.openOp_cur (s : State) (n slot : Nat) (i : Instr) (st : Strand) (c : Cap) (r : Bool) (l : List Rd) :
    (s.openOp n slot i st c r l).cur = s.cur := by
  unfold State.openOp
  dsimp only
  split
  · exact foldl_same State.cur _ _ _ fun _ _ => State.reserve_cur _ _ _ _
  · exact foldl_same State.cur _ _ _ fun _ _ => State.reserve_cur _ _ _ _

theorem State.putC_front (s : State) (n m : Nat) (i : Instr) (vals : List DVal) (fl : LaneFlags) :
    ((s.putC n i vals fl).strand m).front = (s.strand m).front := by
  unfold State.putC
  dsimp only
  split
  · rfl
  · refine Eq.trans (foldl_same (fun t : State => (t.strand m).front) _ _ _ fun _ _ => State.reserve_front _ _ _ _ _) ?_
    exact State.modStrand_same Strand.front _ _ _ _ fun _ => rfl

/-- The operation in flight that carries a scalar result of slot C: it is due in this clock (R144). -/
def resultFlight (id seq due r : Nat) (v : SV) : Flight :=
  { id := id, seq := seq, slot := 2, due := due, wbs := [.s r v], flags := 0, caps := [] }

/-- The operation in flight and its write-back, a later turn of this clock. -/
def State.sendFlight (s : State) (n : Nat) (f : Flight) : State :=
  { s.modStrand n (fun st => { st with flights := st.flights ++ [f] }) with agenda := s.agenda ++ [.ev (.writeBack n f.id)] }

theorem State.sendFlight_strand (s : State) (n m : Nat) (f : Flight) : (s.sendFlight n f).strand m =
    if n = m then { s.strand n with flights := (s.strand n).flights ++ [f] } else s.strand m :=
  s.strand_modStrand n m fun st => { st with flights := st.flights ++ [f] }

theorem State.putC_of_no_dest {t : State} {n : Nat} {i : Instr} (v : SV) (h : destsOf (t.strand n) i = []) :
    t.putC n i [.s v] 0 = { t with opId := t.opId + 1 } := by
  have h' : destsOf (t.newId.2.strand n) i = [] := h
  simp only [State.putC, h', List.zip_nil_left, List.filterMap_nil, List.isEmpty_nil, beq_self_eq_true, Bool.and_self, if_true]
  rfl

/-- A scalar result of slot C: it is in flight, and its queue position is reserved. -/
theorem State.putC_of_scalar {t : State} {n r : Nat} {i : Instr} (v : SV) (h : destsOf (t.strand n) i = [.s r]) :
    t.putC n i [.s v] 0 = (State.sendFlight { t with opId := t.opId + 1 } n
      (resultFlight t.opId (t.strand n).front.ctx.seq t.clk r v)).reserve n t.opId (.s r) := by
  have h' : destsOf (t.newId.2.strand n) i = [.s r] := h
  simp only [State.putC, h', List.zip_cons_cons, List.zip_nil_left, List.filterMap_cons, List.filterMap_nil, wbOf,
    List.isEmpty_cons, Bool.false_and, Bool.false_eq_true, if_false, List.foldl_cons, List.foldl_nil, State.reserve]
  split <;> rfl

theorem State.putC_scalar_strand {t : State} {n r : Nat} {i : Instr} (v : SV) (h : destsOf (t.strand n) i = [.s r]) (m : Nat) :
    (t.putC n i [.s v] 0).strand m = if n = m then { t.strand n with
      flights := (t.strand n).flights ++ [resultFlight t.opId (t.strand n).front.ctx.seq t.clk r v]
      regs := (t.strand n).regs.reserveS r t.opId } else t.strand m := by
  rw [State.putC_of_scalar v h, State.reserve_s_strand, State.sendFlight_strand, State.sendFlight_strand, if_pos rfl]
  split <;> rfl

/-! ### The end of a waiting operation (R426) -/

/-- A strand whose operation `id` has ended: slot C waits for it no more. -/
def Strand.dropped (st : Strand) (id : Nat) : Strand :=
  { st with
    open_ := st.open_.filter (fun e => e.id != id)
    front := { st.front with waitC := if st.front.waitC = some id then none else st.front.waitC } }

theorem State.dropEntry_strand (s : State) (n m id : Nat) :
    (s.dropEntry n id).strand m = if n = m then (s.strand n).dropped id else s.strand m :=
  s.strand_modStrand n m fun st => st.dropped id

theorem Strand.find?_dropped (st : Strand) (id : Nat) : (st.dropped id).open_.find? (fun e => e.id == id) = none := by
  simp [Strand.dropped]

theorem Strand.dropped_waitC {st : Strand} {id : Nat} (h : st.front.waitC = some id) : (st.dropped id).front.waitC = none :=
  if_pos h

theorem State.finishC_of_no_dest {e : Entry} (t : State) (n : Nat) (v : SV) (h : e.dests = []) :
    t.finishC n e [.s v] = t.dropEntry n e.id := by
  simp [State.finishC, h]

/-- An operation that ends without a result is dropped. -/
@[simp] theorem State.finishC_nil (t : State) (n : Nat) (e : Entry) : t.finishC n e [] = t.dropEntry n e.id := by
  simp [State.finishC]

theorem State.finishC_of_scalar {e : Entry} {r : Nat} (t : State) (n : Nat) (v : SV) (h : e.dests = [.s r]) :
    t.finishC n e [.s v] = (t.dropEntry n e.id).sendFlight n (resultFlight e.id e.seq t.clk r v) := by
  simp only [State.finishC, h, List.zip_cons_cons, List.zip_nil_left, List.filterMap_cons, List.filterMap_nil, wbOf,
    List.isEmpty_cons, Bool.false_eq_true, if_false]
  rfl

/-! ### Jumps (R145) -/

/-- The front of a strand that goes on at `pc`: nothing is fetched. -/
def Front.goOn (f : Front) (pc : W64) : Front := { f with pc := pc, fellOff := false, latch := none }

theorem State.jump_strand (s : State) (n m : Nat) (pc : W64) : (s.jump n pc).strand m =
    if n = m then { s.strand n with front := (s.strand n).front.goOn pc } else s.strand m :=
  s.strand_modStrand n m fun st => { st with front := st.front.goOn pc }

end Sys2Proof.Machine

namespace Sys2Proof

open Sys2Proof.Machine

theorem goesTo_jump (t : State) (n : Nat) (q : W64) : GoesTo t (t.jump n q) n q := by
  have hn : (t.jump n q).strand n = { t.strand n with front := (t.strand n).front.goOn q } := by
    rw [State.jump_strand, if_pos rfl]
  rw [GoesTo, hn]
  exact ⟨rfl, rfl, rfl, rfl, rfl, rfl, rfl, rfl, rfl, rfl, rfl, fun m hm => (t.jump_strand n m q).trans (if_neg (Ne.symm hm))⟩

/-! ### The forms of issue (R131, R144, R426) -/

theorem poppedC_cur (s : State) (g : Pass) : (poppedC s g).cur = s.cur := rfl

theorem poppedC_me (s : State) (g : Pass) : (poppedC s g).me = g.st := by
  rw [poppedC, State.me, State.setStrand_cur, State.strand_setStrand, if_pos rfl]

theorem poppedC_ctxOf (s : State) (g : Pass) : (poppedC s g).ctxOf = g.st.front.ctx := by
  rw [State.ctxOf, poppedC_me]

theorem openedC_cur (s : State) (i : Instr) (g : Pass) : (openedC s i g).cur = s.cur := State.openOp_cur ..

theorem runsC_of_exec {s : State} {i : Instr} {f : CIn → State → State} {f' : Pass → State → State}
    (hexec : exec i s = s.runC i f) (hf : ∀ g, f g.cin (poppedC s g) = f' g (poppedC s g)) : RunsC s i f' := fun g hg =>
  hexec.trans ((runC_of_passesC f hg).trans (congrArg _ (hf g)))

theorem waitsC_of_exec {s : State} {i : Instr} {a : CIn → Nat → W64} {go f : Entry → State → State}
    (hexec : ∀ s, exec i s = s.runWaitC i a noTrap go) (hf : ∀ e t, t.cur = s.cur → go e t = f e t) : WaitsC s i f :=
  ⟨fun _ e h => (hexec s).trans ((runWaitC_of_opensC a go h).trans (congrArg _ (hf e _ (openedC_cur ..)))),
   fun e h => (hexec s).trans ((runWaitC_of_resuming a noTrap go h).trans (congrArg _ (hf e s rfl)))⟩

theorem resultC_of_cur {t : State} {n : Nat} {i : Instr} {v : W64} (h : t.cur = n) :
    resultC t i v = t.putC n i [.s ⟨v, false⟩] 0 := by
  rw [resultC, h]

end Sys2Proof

open Sys2Proof Sys2Proof.Machine

/-- Settles O42, by what a jump, a result and the end of an operation make of each strand. -/
theorem slotCResults : Obligations.SlotCResults := by
  intro t n r i e v q
  refine ⟨goesTo_jump t n q, State.putC_of_no_dest v, ?_, State.finishC_of_no_dest t n v, ?_⟩
  · intro h u
    have hstrand : ∀ m, u.strand m = _ := State.putC_scalar_strand v h
    have hagenda : u.agenda = t.agenda ++ [.ev (.writeBack n t.opId)] := by
      rw [show u = _ from State.putC_of_scalar v h, State.reserve_s_agenda]
      rfl
    rw [(hstrand n).trans (if_pos rfl)]
    exact ⟨rfl, hagenda, State.putC_mem .., Regs.reserveS_sQ .., Regs.reserveS_sp .., rfl, rfl,
      fun m hm => (hstrand m).trans (if_neg (Ne.symm hm))⟩
  · intro h u
    let f := resultFlight e.id e.seq t.clk r v
    have hu : u = (t.dropEntry n e.id).sendFlight n f := State.finishC_of_scalar t n v h
    have hn : u.strand n = { (t.strand n).dropped e.id with flights := (t.strand n).flights ++ [f] } := by
      rw [hu, State.sendFlight_strand, State.dropEntry_strand, if_pos rfl, if_pos rfl]
      rfl
    have hm (m : Nat) (h : m ≠ n) : u.strand m = t.strand m := by
      rw [hu, State.sendFlight_strand, if_neg (Ne.symm h), State.dropEntry_strand, if_neg (Ne.symm h)]
    rw [State.entry?, hn]
    exact ⟨Strand.find?_dropped .., Strand.dropped_waitC, rfl, congrArg State.agenda hu, State.finishC_mem .., rfl, rfl, hm⟩

end

section
/-! Control flow in split mode (R134, R145 to R153, R164): branches, calls, returns, `LOOP`, and the course of `JT`. -/

namespace Sys2Proof.Machine

/-! ### `JT` (R151) -/

section
variable {s : State} {e : Entry}

theorem jtGo_of_bound_le (h : e.zv.toNat ≤ e.yv.toNat) : jtGo e s = s.finishC s.cur e [] := by
  simp only [jtGo, if_pos h]

theorem jtGo_waits (h : ¬ e.zv.toNat ≤ e.yv.toNat) (hp : (s.strand s.cur).performedBefore e.seq e.slot = false) :
    jtGo e s = s := by
  simp only [jtGo, if_neg h, hp, Bool.not_false, if_true]

/-- The first turn of the read: the access is planned, and its bytes are there at once. -/
theorem jtGo_reads {s1 : State} {e1 : Entry} {bs : List Byte} {m : Bool} {p : Plan} (h : ¬ e.zv.toNat ≤ e.yv.toNat)
    (hp : (s.strand s.cur).performedBefore e.seq e.slot = true) (hrds : e.rds = [])
    (hplan : ({ st := s } : Plan).access s.cur 2 .load (jtAddr e.xv e.yv) 8 = p) (ht : p.trap = none) (hm : p.miss = false)
    (hread : (p.st.modEntry s.cur e.id (fun y => { y with rds := p.rds })).readStep s.cur { e with rds := p.rds } false =
      (s1, e1, true))
    (hbs : bytesAt e1.rds (jtAddr e.xv e.yv) 8 = (bs, m)) :
    jtGo e s = if m then s1.trapEntry s.cur e1 { cause := .memue, eaddr := jtAddr e.xv e.yv }
      else (s1.finishC s.cur e1 []).jump s.cur (word64 bs 0) := by
  simp only [jtGo, if_neg h, hp, hrds, hplan, ht, hm, hread, hbs, List.isEmpty_nil, Bool.not_true, Bool.false_eq_true, if_false,
    if_true]

end

end Sys2Proof.Machine

open Sys2Proof Sys2Proof.Machine

/-- Settles O43: each branch by the target that its rule names, `JT` by the course of its one read. -/
theorem controlFlow : Obligations.ControlFlow := by
  intro s a d j p p' x c b k o18 o12 o16 im w n at_ ret test
  have hto (g : Pass) (o : Int) : branchTo (poppedC s g).ctxOf.pc o b = at_ g o := by rw [poppedC_ctxOf]; rfl
  have hret (g : Pass) : (poppedC s g).retPc = ret g := by rw [State.retPc, poppedC_ctxOf]
  refine ⟨rfl, rfl, runsC_of_exec (execBr.eq_1 ..) fun g => ?_, runsC_of_exec (execBrc.eq_1 ..) fun g => ?_,
    runsC_of_exec (execCall.eq_1 ..) fun g => ?_, runsC_of_exec (execCalli.eq_1 ..) fun g => ?_,
    runsC_of_exec (execRet.eq_1 ..) fun g => rfl, runsC_of_exec (execLoop.eq_1 ..) fun g => ?_, ?_, ?_⟩
  · exact congrArg _ (hto g _)
  · rw [hto]; rfl
  · rw [hto, hret]; rfl
  · rw [hret]; rfl
  · have hfront : ((resultC (poppedC s g) (.loop d o16 b) (g.sa.v - 1)).strand n).front = g.st.front :=
      (State.putC_front ..).trans (congrArg Strand.front (poppedC_me s g))
    dsimp only
    rw [hto, hfront, poppedC_me]
    rfl
  · refine waitsC_of_exec (fun _ => execJt.eq_1 ..) fun e t hcur => ?_
    by_cases hb : e.zv.toNat ≤ e.yv.toNat
    · rw [jtGo_of_bound_le hb, if_pos hb, hcur]
    · rw [if_neg hb]
      cases hp : (t.strand n).performedBefore e.seq e.slot with
      | true => rfl
      | false => exact jtGo_waits hb (hcur ▸ hp)
  · intro e e1 s1 bs m hr hlt hp ea pl hrds ht hm hread hbs
    have hgo := jtGo_reads (Nat.not_le.2 hlt) hp hrds rfl ht hm hread hbs
    exact (execJt.eq_1 ..).trans ((runWaitC_of_resuming _ _ _ hr).trans (congrArg _ hgo))

end

section
/-! Queue links (R157, R333 to R336): the status of `QLINK`, `QUNLINK`, `QDEPTH`, `QFLUSH`, and `LINK_COMMIT`. -/

namespace Sys2Proof.Machine

/-! ### Binding, unbinding, flushing (R157, Table 7-7) -/

/-- The place of a link's peer on the die and its register, in the operand of `QLINK`. -/
theorem qlink_peer (x : W64) : x.toNat % 256 = (x.extractLsb' 0 8).toNat := by
  rw [BitVec.extractLsb'_toNat, Nat.shiftRight_zero]

theorem qlink_reg (x : W64) : x.toNat / 256 % 32 = (x.extractLsb' 8 5).toNat := by
  rw [BitVec.extractLsb'_toNat, Nat.shiftRight_eq_div_pow]

theorem State.ite_modStrand_cur (c : Prop) [Decidable c] (s : State) (n : Nat) (f : Strand → Strand) :
    (if c then s.modStrand n f else s).cur = s.cur := by
  split <;> rfl

section
variable {s : State} {e : Entry} {r : Nat}

theorem qunlinkGo_of_none (h : mget? (s.strand s.cur).links r = none) : qunlinkGo r e s = s.finishC s.cur e [] := by
  simp only [qunlinkGo, h]

theorem qunlinkGo_of_some {l : Link} (h : mget? (s.strand s.cur).links r = some l) : qunlinkGo r e s =
    if l.broken ∨ (s.strand s.cur).linkIds r = [] then
      (s.modStrand s.cur (fun st => { st with links := mdel st.links r })).finishC s.cur e [] else s := by
  simp only [qunlinkGo, h, List.isEmpty_iff]

end

/-! ### `LINK_COMMIT` (R333) -/

/-- A push may not commit yet: it is not due, an access of its sender before it has not performed, or an earlier slot of the
sender can still undo it. -/
def State.PushWaits (s : State) (n : Nat) (p : LinkPush) : Prop :=
  s.clk < p.due ∨ (s.strand n).performedBefore p.seq 1 = false ∨
    ((s.strand n).slipped p.seq = true ∧ (s.strand n).front.stopped = false)

/-- Strand `n` without its push `id`. -/
def State.withoutPush (s : State) (n id : Nat) : State :=
  s.modStrand n (fun x => { x with linkPend := x.linkPend.filter (fun q => q.id != id) })

theorem State.withoutPush_pts (s : State) (n id m : Nat) : (s.withoutPush n id).pts m = s.pts m :=
  s.modStrand_same (·.ctl.pts) n m (fun x => { x with linkPend := x.linkPend.filter (fun q => q.id != id) }) fun _ => rfl

theorem State.withoutPush_linkPend (s : State) (n id : Nat) :
    ((s.withoutPush n id).strand n).linkPend = (s.strand n).linkPend.filter (fun q => q.id != id) := by
  rw [State.withoutPush, State.strand_modStrand, if_pos rfl]

theorem State.withoutPush_strand_of_ne (s : State) (n id : Nat) {m : Nat} (h : m ≠ n) :
    (s.withoutPush n id).strand m = s.strand m := by
  rw [State.withoutPush, State.strand_modStrand, if_neg (Ne.symm h)]

theorem State.withoutPush_regs (s : State) (n id m : Nat) : ((s.withoutPush n id).strand m).regs = (s.strand m).regs :=
  s.modStrand_same Strand.regs n m (fun x => { x with linkPend := x.linkPend.filter (fun q => q.id != id) }) fun _ => rfl

section
variable {s : State} {n r : Nat} {p : LinkPush} {ps : List LinkPush}

theorem State.not_pushWaits (hd : p.due ≤ s.clk) (hp : (s.strand n).performedBefore p.seq 1 = true)
    (hs : (s.strand n).slipped p.seq = false ∨ (s.strand n).front.stopped = true) : ¬ s.PushWaits n p := by
  rintro (hlt | hacc | ⟨hslip, hrun⟩)
  · exact absurd hlt (Nat.not_lt.2 hd)
  · simp [hp] at hacc
  · simp [hslip, hrun] at hs

theorem execLinkCommit_of_none (h : (s.strand n).linkPend.filter (fun q => q.reg == r) = []) :
    execLinkCommit n r s = .next s := by
  simp only [execLinkCommit, h]

variable (h : (s.strand n).linkPend.filter (fun q => q.reg == r) = p :: ps)
  (hole : firstHoleOf ((s.strand p.peer).regs.vQ p.peerReg) ((s.strand n).linkIds r) = some p.id)
include h hole

theorem execLinkCommit_waits (hw : s.PushWaits n p) : execLinkCommit n r s = .next s := by
  unfold State.PushWaits at hw
  simp only [execLinkCommit, h, hole, List.find?_cons, beq_self_eq_true, Bool.not_eq_true', if_pos hw]

/-- The push leaves the sender, and its value stands in the peer's queue. -/
theorem execLinkCommit_delivers (hw : ¬ s.PushWaits n p) : execLinkCommit n r s = .next ((s.withoutPush n p.id).modRegs p.peer
    (fun g => g.setVQ p.peerReg (qPut (g.vQ p.peerReg) p.id (.linked p.val (wmax p.pts (s.pts n)))))) := by
  unfold State.PushWaits at hw
  simp only [execLinkCommit, h, hole, List.find?_cons, beq_self_eq_true, Bool.not_eq_true', if_neg hw]
  rfl

end

end Sys2Proof.Machine

open Sys2Proof Sys2Proof.Machine

/-- Settles O46: each instruction by its one decision, `LINK_COMMIT` by whether the oldest push still waits. -/
theorem queueLinks : Obligations.QueueLinks := by
  refine ⟨fun s d a p v r => ⟨runsC_of_exec (execQlink.eq_1 ..) fun g => ?qlink,
      waitsC_of_exec (fun _ => execQunlink.eq_1 ..) ?_, runsC_of_exec (execQdepth.eq_1 ..) fun g => rfl,
      waitsC_of_exec (fun _ => execQflush.eq_1 ..) ?_⟩,
    fun s n r p ps => ⟨execLinkCommit_of_none, fun h hole => ⟨execLinkCommit_waits h hole, fun hd hp hs => ?_⟩⟩⟩
  case qlink =>
    simp only [State.qlinkStatus, qlink_peer, qlink_reg, Bool.not_eq_true']
    exact (resultC_of_cur (State.ite_modStrand_cur ..)).symm
  · intro e t hcur
    rw [← hcur]
    cases hl : mget? (t.strand t.cur).links r.toNat with
    | none => exact qunlinkGo_of_none hl
    | some l => exact qunlinkGo_of_some hl
  · intro e t hcur
    rw [qflushGo, hcur]
  · refine ⟨_, execLinkCommit_delivers h hole (State.not_pushWaits hd hp hs), rfl, ?_, ?_, ?_, fun m hn hpeer => ?_⟩
    · rw [State.strand_modRegs, if_pos rfl, Regs.vQ_setVQ, if_pos rfl, State.withoutPush_regs]
    · exact (State.modRegs_same (·.ctl.pts) _ _ _ _ fun _ _ => rfl).trans (State.withoutPush_pts ..)
    · exact (State.modRegs_same Strand.linkPend _ _ _ _ fun _ _ => rfl).trans (State.withoutPush_linkPend ..)
    · rw [State.strand_modRegs, if_neg (Ne.symm hpeer), State.withoutPush_strand_of_ne _ _ _ hn]

end

section
/-! Leaving a handler, yielding and halting (R158, R161, R165, R332, R368): a clock of an open `RPLY`, `ERET`, `YIELD` or
`HALT`. -/

namespace Sys2Proof.Machine

/-! ### Re-injection (R161, R368) -/

section
variable {s : State} {e : Entry} (fin : State → State) (hstep : e.step ≠ 0)
  (hnone : s.me.open_.any (fun x => x.frame) = false)
include hstep hnone

theorem reinject_ends (hf : s.me.frame = []) : reinject fin e s = fin (s.finishC s.cur e []) := by
  unfold State.me at hnone hf
  simp only [reinject, if_neg hstep, hnone, hf, List.isEmpty_nil, Bool.false_eq_true, if_false, if_true]

theorem reinject_injects (hf : s.me.frame ≠ []) (hd : s.me.drainedBefore e.seq 1 = true)
    (hp : s.me.performedBefore e.seq 1 = true) :
    reinject fin e s = s.modStrand s.cur (fun x => x.injectNext e.seq s.clk) := by
  unfold State.me at hnone hf hd hp
  simp only [reinject, if_neg hstep, hnone, List.isEmpty_iff, hf, hd, hp, Bool.and_self, Bool.false_eq_true, if_false, if_true]

end

theorem execRply_of_resuming {s : State} {e : Entry} (h : s.resuming .rply = some e) :
    execRply s = .next (reinject (fun t => t) e s) :=
  runWaitC_of_resuming _ _ _ h

theorem execEret_of_resuming {s : State} {e : Entry} (h : s.resuming .eret = some e) :
    execEret s = .next (reinject (fun t => t.returnTrap t.cur) e s) :=
  runWaitC_of_resuming _ _ _ h

theorem Strand.injectNext_cons {st : Strand} {x : Entry} {r : List Entry} (h : st.frame = x :: r) (seq clk : Nat) :
    st.injectNext seq clk = { st with
      frame := r
      open_ := st.open_ ++ [{ x with seq := seq, slip := true, resolved := false, rds := [], clk := clk }]
      front := { st.front with waitC := if x.slot = 2 then some x.id else st.front.waitC } } := by
  simp only [Strand.injectNext, h]

/-- A return leaves its strand as it left the handler, but for single-step in a gang that it rejoins. -/
theorem State.returnTrap_same {β : Type} (p : Strand → β) (s : State) (n : Nat)
    (hp : ∀ (st : Strand) b, p { st with front := { st.front with stepped := b } } = p st) :
    p ((s.returnTrap n).strand n) = p ((s.strand n).leaveHandler s.clk) := by
  unfold State.returnTrap
  dsimp only
  split
  · rw [State.strand_modCore, State.strand_modStrand, if_pos rfl, hp, State.strand_modStrand, if_pos rfl]
  · rw [State.strand_modStrand, if_pos rfl]

/-- The same of an `ERET`, operation `id`, that ends. -/
theorem State.dropEntry_returnTrap_same {β : Type} (p : Strand → β) (s : State) (n id : Nat)
    (hp : ∀ (st : Strand) b, p { st with front := { st.front with stepped := b } } = p st) :
    p (((s.dropEntry n id).returnTrap n).strand n) = p (((s.strand n).dropped id).leaveHandler s.clk) := by
  rw [State.returnTrap_same p _ _ hp, State.dropEntry_strand, if_pos rfl]
  rfl

/-! ### `YIELD` (R158) -/

theorem execYield_of_no_preq {s : State} (hr : s.resuming .yield = none) (hp : s.me.ctl.preq = false) :
    execYield s = .next s := by
  simp only [execYield, hr, hp, Option.isNone_none, Bool.not_false, Bool.and_self, if_true]

theorem execYield_of_resuming {s : State} {e : Entry} (h : s.resuming .yield = some e) : execYield s = .next (yieldGo e s) := by
  simp only [execYield, h, Option.isNone_some, Bool.false_and, Bool.false_eq_true, if_false]
  exact runWaitC_of_resuming _ _ _ h

theorem Strand.settledBut_of_drained {st : Strand} {id : Nat} (hf : st.flights = []) (hw : st.wq = [])
    (ho : ∀ x ∈ st.open_, x.id = id) : st.settledBut [id] = true := by
  simpa [Strand.settledBut, hf, hw] using ho

theorem yieldGo_of_settled {s : State} {e : Entry} (hg : (s.core (coreOf s.cur)).gang.on = false)
    (h : s.me.settledBut [e.id] = true) : yieldGo e s = (s.dropEntry s.cur e.id).modStrand s.cur Strand.yieldNow := by
  unfold State.me at h
  simp only [yieldGo, hg, h, Bool.false_eq_true, if_false, if_true]

/-! ### `HALT` (R165, R332) -/

theorem execHalt_of_resuming {s : State} {e : Entry} (h : s.resuming .halt = some e) : execHalt s = .next (haltGo e s) :=
  runWaitC_of_resuming _ _ _ h

theorem execStrandHalted_of_open {s : State} {m : Nat} {e : Entry} (h : s.openC m (fun i => decide (i = .halt)) = some e) :
    execStrandHalted m s = .next (haltGo e { s with cur := m }) := by
  simp only [execStrandHalted, h]

/-- A strand whose `HALT`, entry `e`, has taken effect. -/
def Strand.haltedBy (st : Strand) (e : Entry) : Strand :=
  { st.dropped e.id with halted := true, front := { (st.dropped e.id).front with haltedPc := some e.pc, waitC := none } }

section
variable {s : State} {e : Entry}

theorem haltGo_halts (h : (s.me.drainedBefore e.seq e.slot && s.me.performedBefore e.seq e.slot) = true) :
    haltGo e s = s.haltNow s.cur e := if_pos h

theorem haltGo_waits (h : (s.me.drainedBefore e.seq e.slot && s.me.performedBefore e.seq e.slot) = false) :
    haltGo e s = s := if_neg (by rw [h]; exact Bool.false_ne_true)

end

theorem State.haltNow_strand (s : State) (n : Nat) (e : Entry) : (s.haltNow n e).strand n = (s.strand n).haltedBy e := by
  rw [State.haltNow, State.strand_modCore, State.strand_modStrand, if_pos rfl, State.dropEntry_strand, if_pos rfl]
  rfl

/-- Every mutex that the strand holds is released at the end of the clock. -/
theorem State.haltNow_unlocks {s : State} {n k : Nat} (e : Entry) {p : Nat × Mutex}
    (h : (s.core (coreOf n)).muts.find? (fun y => y.1 == k && y.2.holder == some (posInCore n)) = some p) :
    (posInCore n, Upd.unlock k (posInCore n) (s.pts n)) ∈ ((s.haltNow n e).core (coreOf n)).upds := by
  have hheld : k ∈ (s.core (coreOf n)).held (posInCore n) := by
    have hp := List.find?_some h
    simp only [Bool.and_eq_true, beq_iff_eq] at hp
    exact List.mem_map.2 ⟨p, List.mem_filter.2 ⟨List.mem_of_find?_eq_some h, by simp [hp]⟩, hp.1⟩
  rw [State.haltNow, State.core_modCore, if_pos rfl]
  exact List.mem_append_right _ (List.mem_map.2 ⟨k, hheld, rfl⟩)

end Sys2Proof.Machine

open Sys2Proof Sys2Proof.Machine

/-- Settles O49: each instruction by its next clock with the entry that waits. -/
theorem leavingAndHalting : Obligations.LeavingAndHalting := by
  intro s n
  refine ⟨fun e hr hs hf hn => ?_, fun e x r hr hs hf hn hd hp => ?_, fun e hr hs hf hn => ?_, execYield_of_no_preq,
    fun e hr hg hfl hwq hop => ?_, ?_⟩
  · exact (execRply_of_resuming hr).trans (congrArg _ (reinject_ends _ hs hn hf))
  · have hne : s.me.frame ≠ [] := by rw [hf]; exact List.cons_ne_nil x r
    refine (execRply_of_resuming hr).trans (congrArg _ ((reinject_injects _ hs hn hne hd hp).trans ?_))
    exact State.modStrand_congr (Strand.injectNext_cons hf _ _)
  · have hleft {β : Type} (p : Strand → β) := State.dropEntry_returnTrap_same p s n e.id
    have hgo : reinject (fun t => t.returnTrap t.cur) e s = (s.dropEntry n e.id).returnTrap n := by
      rw [reinject_ends _ hs hn hf, State.finishC_nil]
      rfl
    exact ⟨_, (execEret_of_resuming hr).trans (congrArg _ hgo), hleft (·.ctl.exl) fun _ _ => rfl,
      hleft (·.front.pc) fun _ _ => rfl, hleft (·.front.firstSlot) fun _ _ => rfl, hleft (·.front.wake) fun _ _ => rfl,
      hleft (·.ctl.epc) fun _ _ => rfl, hleft Strand.regs fun _ _ => rfl, State.returnTrap_mem ..⟩
  · have hgo := yieldGo_of_settled hg (Strand.settledBut_of_drained hfl hwq hop)
    refine ⟨_, (execYield_of_resuming hr).trans (congrArg _ hgo), ?_⟩
    rw [State.strand_modStrand, if_pos rfl, State.dropEntry_strand, if_pos rfl]
    exact ⟨rfl, rfl, List.filter_eq_nil_iff.2 fun x hx => by simp [hop x hx], rfl, rfl⟩
  · intro m e h i
    have hexec : exec i s = .next (haltGo e { s with cur := m }) := by
      by_cases hi : m = n ∧ s.resuming .halt = some e
      · rw [show i = .halt from if_pos hi, hi.1]
        exact execHalt_of_resuming hi.2
      · rw [show i = .strandHalted m from if_neg hi]
        exact execStrandHalted_of_open (h.resolve_left hi)
    refine ⟨fun hready => ?_, fun hready => hexec.trans (congrArg _ (haltGo_waits hready))⟩
    refine ⟨_, hexec.trans (congrArg _ (haltGo_halts hready)), ?_⟩
    rw [State.entry?, State.haltNow_strand]
    exact ⟨rfl, rfl, rfl, Strand.find?_dropped .., rfl, fun k p hk => State.haltNow_unlocks e hk⟩

end

section
/-! Results of slot B (R30, R51 to R53, R121, R127, R128, R174, R372): packed elements, one vector result lane by lane, and the
forms of issue as the statements have them. -/

namespace Sys2Proof.Machine

/-! ### Packed elements (R30) -/

theorem testBit_packN {w : Nat} (l : List Nat) (m i : Nat) (h : i < w) :
    (packN w l).testBit (w * m + i) = (l.getD m 0).testBit i := by
  induction l generalizing m with
  | nil => simp [packN]
  | cons x r ih =>
    have hcons : packN w (x :: r) = packN w r <<< w ||| x % 2 ^ w := rfl
    cases m with
    | zero => simp [hcons, h]
    | succ m =>
      have hi : w * (m + 1) + i = w * m + i + w := by rw [Nat.mul_succ]; omega
      simp [hcons, hi, ih]

theorem elemN_vecOfElems {w m : Nat} (l : List Nat) (h : w * m + w ≤ 2048) :
    elemN (vecOfElems w l) w m = l.getD m 0 % 2 ^ w := by
  apply Nat.eq_of_testBit_eq
  intro i
  simp only [elemN, vecOfElems, Nat.testBit_mod_two_pow, Nat.testBit_shiftRight, BitVec.toNat_ofNat]
  by_cases hi : i < w
  · simp [hi, show w * m + i < 2048 by omega, testBit_packN]
  · simp [hi]

theorem toNat_lane (v : VReg) (j : Nat) : (lane v j).toNat = elemN v 32 j := by
  simp [lane, elemN]

theorem lane_vecOfElems (l : List Nat) {j : Nat} (h : j < 64) :
    lane (vecOfElems 32 l) j = BitVec.ofNat 32 (l.getD j 0) :=
  BitVec.eq_of_toNat_eq (by rw [toNat_lane, elemN_vecOfElems _ (by omega), BitVec.toNat_ofNat])

theorem getD_map_range {α : Type} (f : Nat → α) (d : α) {j n : Nat} (h : j < n) : ((List.range n).map f).getD j d = f j := by
  simp [h]

/-! ### Elements of 32 bits -/

/-- What an element of 32 bits makes of its lane. -/
def El.laneVal (x : El) : LaneVal := ⟨BitVec.ofNat 32 x.v, x.t, x.f⟩

theorem laneVal_toNat (x : W32) (t : Bool) (f : Nat) : El.laneVal ⟨x.toNat, t, f⟩ = ⟨x, t, f⟩ := by
  rw [El.laneVal, BitVec.ofNat_toNat, BitVec.setWidth_eq]

theorem lane_vvOfEls (f : Nat → El) {j : Nat} (h : j < 64) :
    lane (vvOfEls 32 ((List.range 64).map f)).v j = (f j).laneVal.v := by
  rw [vvOfEls, lane_vecOfElems _ h, List.map_map, getD_map_range _ _ h]
  rfl

theorem tag_vvOfEls (f : Nat → El) {j : Nat} (h : j < 64) :
    (vvOfEls 32 ((List.range 64).map f)).t.getLsbD j = (f j).laneVal.t := by
  rw [vvOfEls, getLsbD_maskOfList _ _ h]
  have hd : List.take 1 (List.drop j (List.range 64)) = [j] := by
    rw [List.drop_eq_getElem_cons (by simpa using h)]
    simp
  simp [groupElems, h, El.laneVal, ← List.map_drop, ← List.map_take, hd]

/-! ### Flags and masks (R51, R128) -/

theorem laneFlags_flagsOfMap (f : Nat → Nat) {j : Nat} (h : j < 64) :
    (laneFlags (flagsOfList ((List.range 64).map f)) j).toNat = f j % 128 := by
  rw [laneFlags_flagsOfList _ _ h, getD_map_range _ _ h]

theorem laneFlags_maskFlags (f : LaneFlags) (m : W64) {j : Nat} (h : j < 64) :
    (laneFlags (maskFlags f m) j).toNat = if m.getLsbD j then (laneFlags f j).toNat else 0 := by
  rw [maskFlags, laneFlags_flagsOfMap _ h]
  split
  · exact Nat.mod_eq_of_lt (laneFlags f j).isLt
  · rfl

theorem laneFlags_or (f g : LaneFlags) (j : Nat) : laneFlags (f ||| g) j = laneFlags f j ||| laneFlags g j := by
  simp [laneFlags, BitVec.extractLsb'_or]

theorem lane_merge (m : W64) (a b : VV) {j : Nat} (h : j < 64) :
    lane (VV.merge m a b).v j = if m.getLsbD j then lane a.v j else lane b.v j := lane_vecOf _ j h

/-! ### Vector results (R127, R128, R372) -/

theorem psFlag_mod (t : Bool) : (if t then fPS else 0) % 128 = if t then fPS else 0 := by
  cases t <;> rfl

section
variable (x : VV) (f : LaneFlags) (pred : PV) (act : W64) (acc : Option VV) {j : Nat} (h : j < 64)
include h

theorem finishVec_lane : lane (finishVec x f pred act acc).1.v j =
    if act.getLsbD j then lane x.v j else lane (acc.getD VV.zero).v j := lane_merge _ _ _ h

theorem finishVec_tag : (finishVec x f pred act acc).1.tag j =
    ((if act.getLsbD j then x.tag j else (acc.getD VV.zero).tag j) || pred.t.getLsbD j) := by
  simp only [finishVec, VV.tag, BitVec.getLsbD_or, BitVec.getLsbD_and, BitVec.getLsbD_not, h, decide_true, Bool.true_and]
  cases act.getLsbD j <;> simp

theorem finishVec_flags : (laneFlags (finishVec x f pred act acc).2 j).toNat =
    if act.getLsbD j then (laneFlags f j).toNat ||| (if (finishVec x f pred act acc).1.tag j then 64 else 0) else 0 := by
  rw [finishVec, laneFlags_maskFlags _ _ h, laneFlags_or, BitVec.toNat_or, laneFlags_flagsOfMap _ h]
  exact congrArg (fun p => if act.getLsbD j then (laneFlags f j).toNat ||| p else 0) (psFlag_mod _)

end

theorem laneResult_congr {g : Pass} {o : BOut} {third : VV} {f f' : Nat → LaneVal} (h : LaneResult g o third f)
    (hf : ∀ j < 64, f j = f' j) : LaneResult g o third f' := by
  obtain ⟨hk, x, hx, hlanes⟩ := h
  exact ⟨hk, x, hx, fun j hj => hf j hj ▸ hlanes j hj⟩

/-- A result computed lane by lane is what the statements call a lane result. -/
theorem laneResult_vLanes (g : Pass) (acc : Option VV) (f : Nat → El) :
    LaneResult g (vLanes g.bin acc f) (acc.getD VV.zero) (fun j => (f j).laneVal) := by
  refine ⟨rfl, _, rfl, fun j hj => ⟨?_, ?_, ?_⟩⟩
  · rw [finishVec_lane _ _ _ _ _ hj, lane_vvOfEls f hj]
    rfl
  · rw [finishVec_tag _ _ _ _ _ hj, VV.tag, tag_vvOfEls f hj]
    rfl
  · have hf := laneFlags_flagsOfMap (fun j => (f j).f) hj
    refine (finishVec_flags _ _ _ _ _ hj).trans ?_
    rw [List.map_map, show El.f ∘ f = fun j => (f j).f from rfl, hf]
    refine if_congr Iff.rfl ?_ rfl
    rw [show (128 : Nat) = 2 ^ 7 from rfl, Nat.or_mod_two_pow]
    exact congrArg (_ ||| ·) (psFlag_mod _).symm

/-! ### The forms of issue (R174, R176) -/

section
variable {s : State} {lat : Nat} {i : Instr}

theorem givesB_of_exec {out : BIn → BOut} (hexec : exec i s = s.runB lat i out) : GivesB s lat i out := fun _ hg =>
  hexec.trans (runB_of_passes out hg)

theorem scalarOp_of_exec {out : BIn → BOut} {v : Pass → W64} {t : Pass → Bool} {f : Pass → Nat}
    (hexec : exec i s = s.runB lat i out) (hout : ∀ g : Pass, out g.bin = sOut (v g) (t g) (f g)) : ScalarOp s lat i v t f :=
  fun g hg => (givesB_of_exec hexec g hg).trans (congrArg (fun o => Host.Outcome.next (issuedB s lat i g o)) (hout g))

theorem scalarOp_one {op : W64 → W64} {v : Pass → W64} (hexec : exec i s = s.runB lat i (fun b => sOut1 b op))
    (hop : ∀ g : Pass, op g.sa.v = v g) : ScalarOp s lat i v tagA noFlags :=
  scalarOp_of_exec hexec fun g => congrArg (sOut · g.sa.t 0) (hop g)

theorem scalarOp_flags {op : W64 → W64 → W64 × Nat} {v : Pass → W64} {f : Pass → Nat}
    (hexec : exec i s = s.runB lat i (fun b => sOut2 b op)) (hop : ∀ g : Pass, op g.sa.v g.sb.v = (v g, f g)) :
    ScalarOp s lat i v tagAB f :=
  scalarOp_of_exec hexec fun g => congrArg (fun r : W64 × Nat => sOut r.1 (tagAB g) r.2) (hop g)

theorem scalarOp_two {op : W64 → W64 → W64} {v : Pass → W64}
    (hexec : exec i s = s.runB lat i (fun b => sOut2 b (fun x y => (op x y, 0)))) (hop : ∀ g : Pass, op g.sa.v g.sb.v = v g) :
    ScalarOp s lat i v tagAB noFlags :=
  scalarOp_flags hexec fun g => congrArg (·, 0) (hop g)

theorem laneOp_of_exec {third : Pass → VV} {f : Pass → Nat → LaneVal} {acc : BIn → Option VV} {e : BIn → Nat → El}
    (hexec : exec i s = s.runB lat i (fun b => vLanes b (acc b) (e b)))
    (hacc : ∀ g : Pass, (acc g.bin).getD VV.zero = third g)
    (he : ∀ (g : Pass), ∀ j < 64, (e g.bin j).laneVal = f g j) : LaneOp s lat i third f := fun g hg =>
  ⟨_, givesB_of_exec hexec g hg, hacc g ▸ laneResult_congr (laneResult_vLanes g (acc g.bin) (e g.bin)) (he g)⟩

theorem laneOp_one {op h : W32 → W32 × Nat} (hexec : exec i s = s.runB lat i (fun b => vOut1 b op))
    (hop : ∀ a, op a = h a) : LaneOp s lat i noThird (lanes1 h) := by
  obtain rfl : op = h := funext hop
  exact laneOp_of_exec (acc := fun _ => none) hexec (fun _ => rfl) fun g j _ => laneVal_toNat ..

theorem laneOp_two {op h : W32 → W32 → W32} (hexec : exec i s = s.runB lat i (fun b => vOut2 b (fun x y => (op x y, 0))))
    (hop : ∀ a b, op a b = h a b) : LaneOp s lat i noThird (lanes2 fun a b => (h a b, 0)) := by
  obtain rfl : op = h := funext₂ hop
  exact laneOp_of_exec (acc := fun _ => none) hexec (fun _ => rfl) fun g j _ => laneVal_toNat ..

theorem laneOp_three {op h : W32 → W32 → W32 → W32 × Nat} (hexec : exec i s = s.runB lat i (fun b => vOut3 b op))
    (hop : ∀ a b c, op a b c = h a b c) : LaneOp s lat i Pass.vc (lanes3 h) := by
  obtain rfl : op = h := funext₃ hop
  exact laneOp_of_exec (acc := fun b => some b.vc) hexec (fun _ => rfl) fun g j _ => laneVal_toNat ..

end

/-! ### Opcodes (R121) -/

theorem toNat_append_shiftRight {m n : Nat} (x : BitVec m) (y : BitVec n) (k : Nat) :
    (x ++ y).toNat >>> (k + n) = x.toNat >>> k := by
  apply Nat.eq_of_testBit_eq
  intro i
  have hn : ¬ k + n + i < n := by omega
  have hs : k + n + i - n = k + i := by omega
  simp only [Nat.testBit_shiftRight, BitVec.testBit_toNat, BitVec.getLsbD_append, hn, if_false, hs]

/-- The opcode of an instruction of format T or U. -/
theorem opcodeOf_word {i : Instr} {sl : SlotClass} {c : BitVec 7} {d a b : BitVec 6} {p q n : BitVec 1} {k : BitVec 3}
    {x : BitVec 1} (h : encode i = some (sl, (c ++ d ++ a ++ b ++ p ++ q ++ n ++ k ++ x : W32))) : opcodeOf i = some c.toNat := by
  rw [opcodeOf, h]
  exact congrArg some <|
    (toNat_append_shiftRight _ x 24).trans <| (toNat_append_shiftRight _ k 21).trans <|
    (toNat_append_shiftRight _ n 20).trans <| (toNat_append_shiftRight _ q 19).trans <|
    (toNat_append_shiftRight _ p 18).trans <| (toNat_append_shiftRight _ b 12).trans <|
    (toNat_append_shiftRight _ a 6).trans (toNat_append_shiftRight c d 0)

end Sys2Proof.Machine
end

section
/-! Scalar integers (R177 to R185): the model's arithmetic on words in the terms of the statements, each form by it. -/

namespace Sys2Proof.Machine

/-! ### Words as integers (R173, R177, R178) -/

section
variable {w : Nat} (a b : BitVec w) (n : Nat)

theorem sub_eq_ofInt : a - b = BitVec.ofInt w (a.toInt - b.toInt) :=
  BitVec.eq_of_toInt_eq (by rw [BitVec.toInt_sub, BitVec.toInt_ofInt])

theorem mul_eq_ofNat : a * b = BitVec.ofNat w (a.toNat * b.toNat) :=
  BitVec.eq_of_toNat_eq (by rw [BitVec.toNat_mul, BitVec.toNat_ofNat])

theorem sdiv_eq_ofInt : a.sdiv b = BitVec.ofInt w (a.toInt.tdiv b.toInt) :=
  BitVec.eq_of_toInt_eq (by rw [BitVec.toInt_sdiv, BitVec.toInt_ofInt])

theorem srem_eq_ofInt : a.srem b = BitVec.ofInt w (a.toInt.tmod b.toInt) := by
  rw [← BitVec.toInt_srem, BitVec.ofInt_toInt]

theorem udiv_eq_ofNat : a / b = BitVec.ofNat w (a.toNat / b.toNat) := by
  rw [← BitVec.toNat_udiv, BitVec.ofNat_toNat, BitVec.setWidth_eq]

theorem umod_eq_ofNat : a % b = BitVec.ofNat w (a.toNat % b.toNat) := by
  rw [← BitVec.toNat_umod, BitVec.ofNat_toNat, BitVec.setWidth_eq]

theorem shiftLeft_eq_ofNat : a <<< n = BitVec.ofNat w (a.toNat * 2 ^ n) :=
  BitVec.eq_of_toNat_eq (by rw [BitVec.toNat_shiftLeft, Nat.shiftLeft_eq, BitVec.toNat_ofNat])

theorem ushiftRight_eq_ofNat : a >>> n = BitVec.ofNat w (a.toNat / 2 ^ n) := by
  rw [← Nat.shiftRight_eq_div_pow, ← BitVec.toNat_ushiftRight, BitVec.ofNat_toNat, BitVec.setWidth_eq]

theorem sshiftRight_eq_ofInt : a.sshiftRight n = BitVec.ofInt w (a.toInt / 2 ^ n) := by
  rw [← BitVec.ofInt_toInt (x := a.sshiftRight n), BitVec.toInt_sshiftRight, Int.shiftRight_eq_div_pow]
  rfl

theorem lesser_eq_min : (if b.toInt < a.toInt then b else a) = BitVec.ofInt w (min a.toInt b.toInt) := by
  by_cases h : b.toInt < a.toInt
  · rw [if_pos h, min_eq_right h.le, BitVec.ofInt_toInt]
  · rw [if_neg h, min_eq_left (not_lt.1 h), BitVec.ofInt_toInt]

theorem greater_eq_max : (if a.toInt < b.toInt then b else a) = BitVec.ofInt w (max a.toInt b.toInt) := by
  by_cases h : a.toInt < b.toInt
  · rw [if_pos h, max_eq_right h.le, BitVec.ofInt_toInt]
  · rw [if_neg h, max_eq_left (not_lt.1 h), BitVec.ofInt_toInt]

theorem lesser_eq_minu : (if b.toNat < a.toNat then b else a) = BitVec.ofNat w (min a.toNat b.toNat) := by
  by_cases h : b.toNat < a.toNat
  · rw [if_pos h, min_eq_right h.le, BitVec.ofNat_toNat, BitVec.setWidth_eq]
  · rw [if_neg h, min_eq_left (not_lt.1 h), BitVec.ofNat_toNat, BitVec.setWidth_eq]

theorem greater_eq_maxu : (if a.toNat < b.toNat then b else a) = BitVec.ofNat w (max a.toNat b.toNat) := by
  by_cases h : a.toNat < b.toNat
  · rw [if_pos h, max_eq_right h.le, BitVec.ofNat_toNat, BitVec.setWidth_eq]
  · rw [if_neg h, max_eq_left (not_lt.1 h), BitVec.ofNat_toNat, BitVec.setWidth_eq]

end

/-- The high half of a double-width product, signed. -/
theorem ofInt_div_eq_high (w : Nat) (x : Int) :
    BitVec.ofInt w (x / 2 ^ w) = (BitVec.ofInt (w + w) x).extractLsb' w w := by
  have hp : (2 : Int) ^ w ≠ 0 := by positivity
  have hx : x / 2 ^ w % 2 ^ w = x % 2 ^ (w + w) / 2 ^ w % 2 ^ w := by
    conv_lhs => rw [← Int.emod_add_mul_ediv x (2 ^ (w + w)), pow_add, mul_assoc, Int.add_mul_ediv_left _ _ hp,
      Int.add_mul_emod_self_left, ← pow_add]
  obtain ⟨n, hn⟩ := Int.eq_ofNat_of_zero_le (Int.emod_nonneg x (b := 2 ^ (w + w)) (by positivity))
  apply BitVec.eq_of_toNat_eq
  simp only [BitVec.toNat_ofInt, BitVec.extractLsb'_toNat, Nat.shiftRight_eq_div_pow, Nat.cast_pow, Nat.cast_ofNat, hx, hn]
  norm_cast

/-- The same, unsigned. -/
theorem ofNat_div_eq_high (w x : Nat) : BitVec.ofNat w (x / 2 ^ w) = (BitVec.ofNat (w + w) x).extractLsb' w w := by
  apply BitVec.eq_of_toNat_eq
  simp only [BitVec.toNat_ofNat, BitVec.extractLsb'_toNat, Nat.shiftRight_eq_div_pow, pow_add, Nat.mod_mul_right_div_self,
    Nat.mod_mod]

/-! ### Division and shifts (Tables 8-3, 8-4) -/

section
variable (a b : W64)

/-- Signed overflow needs no case of its own in the model: the exact quotient wraps. -/
theorem divS_eq : divS a b =
    (if b = 0 then 0xFFFFFFFFFFFFFFFF#64
      else if a = 0x8000000000000000#64 ∧ b = 0xFFFFFFFFFFFFFFFF#64 then 0x8000000000000000#64
      else BitVec.ofInt 64 (a.toInt.tdiv b.toInt), if b = 0 then 8 else 0) := by
  unfold divS
  by_cases h0 : b = 0
  · simp only [if_pos h0]
    rfl
  · simp only [if_neg h0]
    by_cases h1 : a = 0x8000000000000000#64 ∧ b = 0xFFFFFFFFFFFFFFFF#64
    · rw [if_pos h1, h1.1, h1.2]
      rfl
    · rw [if_neg h1, sdiv_eq_ofInt]

theorem remS_eq : remS a b =
    (if b = 0 then a
      else if a = 0x8000000000000000#64 ∧ b = 0xFFFFFFFFFFFFFFFF#64 then 0
      else BitVec.ofInt 64 (a.toInt.tmod b.toInt), if b = 0 then 8 else 0) := by
  unfold remS
  by_cases h0 : b = 0
  · simp only [if_pos h0]
    rfl
  · simp only [if_neg h0]
    by_cases h1 : a = 0x8000000000000000#64 ∧ b = 0xFFFFFFFFFFFFFFFF#64
    · rw [if_pos h1, h1.1, h1.2]
      rfl
    · rw [if_neg h1, srem_eq_ofInt]

theorem divU_eq : divU a b =
    (if b = 0 then 0xFFFFFFFFFFFFFFFF#64 else BitVec.ofNat 64 (a.toNat / b.toNat), if b = 0 then 8 else 0) := by
  rw [divU, udiv_eq_ofNat]
  split <;> rfl

theorem remU_eq : remU a b =
    (if b = 0 then a else BitVec.ofNat 64 (a.toNat % b.toNat), if b = 0 then 8 else 0) := by
  rw [remU, umod_eq_ofNat]
  split <;> rfl

theorem shl64_eq : shl64 a b = if b.toNat < 64 then BitVec.ofNat 64 (a.toNat * 2 ^ b.toNat) else 0 := by
  rw [shl64, shiftLeft_eq_ofNat]

theorem shr64_eq : shr64 a b = if b.toNat < 64 then BitVec.ofNat 64 (a.toNat / 2 ^ b.toNat) else 0 := by
  rw [shr64, ushiftRight_eq_ofNat]

theorem sar64_eq : sar64 a b = if b.toNat < 64 then BitVec.ofInt 64 (a.toInt / 2 ^ b.toNat)
    else if a.getLsbD 63 then 0xFFFFFFFFFFFFFFFF#64 else 0 := by
  rw [sar64, sshiftRight_eq_ofInt]
  rfl

theorem rot64_eq : rot64 a b = (a <<< (b.toNat % 64)) ||| (a >>> (64 - b.toNat % 64)) := by
  rw [rot64, BitVec.rotateLeft_def, Nat.mod_mod]

end

/-! ### Counts (R180) -/

theorem lt_two_pow_iff_bitLen (a j : Nat) : a < 2 ^ j ↔ bitLen a ≤ j := by
  unfold bitLen
  split
  · next h => simp [h]
  · next h => rw [← Nat.log2_lt h, Nat.lt_iff_add_one_le]

theorem length_filter_ge (k n : Nat) : ((List.range n).filter (fun j => decide (k ≤ j))).length = n - k := by
  induction n with
  | zero => simp
  | succ n ih =>
    rw [List.range_succ, List.filter_append, List.length_append, ih]
    by_cases h : k ≤ n <;> simp [h] <;> omega

theorem clz64_eq (a : W64) : clz64 a = BitVec.ofNat 64 ((List.range 64).filter (fun j => decide (a.toNat < 2 ^ j))).length := by
  simp only [lt_two_pow_iff_bitLen, length_filter_ge]
  rfl

/-- The numbers below `n` up to which `p` has not held are those below the first one where it holds. -/
theorem length_filter_before (p : Nat → Bool) (n : Nat) :
    ((List.range n).filter (fun j => decide (∀ k ≤ j, p k = false))).length = ((List.range n).find? p).getD n := by
  induction n with
  | zero => rfl
  | succ n ih =>
    rw [List.range_succ, List.filter_append, List.length_append, ih, List.find?_append, List.filter_singleton]
    cases h : (List.range n).find? p with
    | none =>
      have hn : ∀ k < n, p k = false := by simpa using h
      cases hp : p n with
      | false =>
        have hall : ∀ k ≤ n, p k = false := fun k hk => (Nat.lt_or_eq_of_le hk).elim (hn k) (· ▸ hp)
        simp only [decide_eq_true hall, List.find?_singleton, hp]
        rfl
      | true =>
        have hsome : ¬ ∀ k ≤ n, p k = false := fun hall => Bool.false_ne_true ((hall n n.le_refl).symm.trans hp)
        simp only [decide_eq_false hsome, List.find?_singleton, hp]
        rfl
    | some i =>
      have hi : i < n := List.mem_range.1 (List.mem_of_find?_eq_some h)
      have hsome : ¬ ∀ k ≤ n, p k = false := fun hall =>
        Bool.false_ne_true ((hall i hi.le).symm.trans (List.find?_some h))
      rw [decide_eq_false hsome]
      rfl

theorem mod_two_pow_eq_zero_iff (a j : Nat) : a % 2 ^ (j + 1) = 0 ↔ ∀ k ≤ j, a.testBit k = false := by
  constructor
  · intro h k hk
    have hbit := Nat.testBit_mod_two_pow a (j + 1) k
    rw [h] at hbit
    simpa [Nat.lt_succ_of_le hk] using hbit
  · intro h
    apply Nat.eq_of_testBit_eq
    intro k
    rw [Nat.testBit_mod_two_pow, Nat.zero_testBit]
    by_cases hk : k < j + 1
    · rw [h k (by omega), Bool.and_false]
    · simp [hk]

theorem ctz64_eq (a : W64) :
    ctz64 a = BitVec.ofNat 64 ((List.range 64).filter (fun j => decide (a.toNat % 2 ^ (j + 1) = 0))).length := by
  simp only [mod_two_pow_eq_zero_iff, length_filter_before]
  rfl

/-! ### Fields, extensions, comparison (R181, R182, R185) -/

theorem sIntN_eq_bmod (w n : Nat) : sIntN w n = Int.bmod n (2 ^ w) := by
  cases w with
  | zero => simp [sIntN]
  | succ w =>
    have h : (((2 ^ (w + 1) : Nat) : Int) + 1) / 2 = ((2 ^ w : Nat) : Int) := by rw [pow_succ]; omega
    simp only [sIntN, Int.bmod, h, Nat.succ_ne_zero, if_false, Nat.add_sub_cancel]
    rw [← Int.natCast_emod]
    split <;> split <;> omega

theorem sIntN_mod (w n : Nat) : sIntN w (n % 2 ^ w) = sIntN w n := by
  simp only [sIntN, Nat.mod_mod]

theorem fieldOf_eq (a : W64) (pos l : Nat) : fieldOf a pos l = a.toNat / 2 ^ pos % 2 ^ (l + 1) := by
  rw [fieldOf, bitsN, Nat.shiftRight_eq_div_pow, show pos + l + 1 - pos = l + 1 by omega]

/-- A word with `l` bits from `pos` replaced, as what stands above the field, the field, and what stands below it. -/
theorem replaceField_eq (c x pos l : Nat) : c - c / 2 ^ pos % 2 ^ l * 2 ^ pos + x * 2 ^ pos =
    2 ^ pos * (2 ^ l * (c / 2 ^ pos / 2 ^ l) + x) + c % 2 ^ pos := by
  have hlow := Nat.div_add_mod c (2 ^ pos)
  have hfield := Nat.div_add_mod (c / 2 ^ pos) (2 ^ l)
  rw [← hfield, Nat.mul_add] at hlow
  simp only [Nat.mul_add, Nat.mul_comm _ (2 ^ pos)]
  omega

theorem insField_eq (c a : W64) (pos l : Nat) : insField c a pos l =
    BitVec.ofNat 64 (c.toNat - c.toNat / 2 ^ pos % 2 ^ (l + 1) * 2 ^ pos + a.toNat % 2 ^ (l + 1) * 2 ^ pos) := by
  have hlow : c.toNat % 2 ^ pos < 2 ^ pos := Nat.mod_lt _ (by positivity)
  have hfield : a.toNat % 2 ^ (l + 1) < 2 ^ (l + 1) := Nat.mod_lt _ (by positivity)
  rw [replaceField_eq]
  apply BitVec.eq_of_getLsbD_eq
  intro i hi
  simp only [insField, BitVec.getLsbD_or, BitVec.getLsbD_and, BitVec.getLsbD_not, BitVec.getLsbD_ofNat, hi, decide_true,
    Bool.true_and, Nat.testBit_two_pow_mul_add _ hlow, Nat.testBit_two_pow_mul_add _ hfield, Nat.testBit_mod_two_pow,
    Nat.testBit_div_two_pow, BitVec.getLsbD_shiftLeft, Nat.testBit_shiftLeft, Nat.testBit_two_pow_sub_one,
    BitVec.testBit_toNat]
  by_cases h1 : i < pos
  · simp [h1, show ¬ pos ≤ i by omega]
  · by_cases h2 : i - pos < l + 1
    · simp [h1, h2, show pos ≤ i by omega]
    · simp [h1, h2, show i - pos - (l + 1) + (l + 1) + pos = i by omega]

theorem intCond_eq (c : BitVec 3) (x y : Int) : intCond c.toNat x y = condHolds c x y := by
  unfold intCond condHolds
  rcases c.toNat with _ | _ | _ | _ | _ | _
  case zero => exact beq_eq_decide x y
  case succ.zero => exact (congrArg not (beq_eq_decide x y)).trans decide_not.symm
  all_goals rfl

theorem immOf_eq (g : Pass) (im : BitVec 12) : immOf g.st.front.ctx.ext im = immValue g im := by
  unfold immOf immValue
  cases g.st.front.ctx.ext <;> rfl

end Sys2Proof.Machine

open Sys2Proof Sys2Proof.Machine

/-- Settles O17: each form is its row of Table 8-2, the value read as an integer. -/
theorem scalarTwoSource : Obligations.ScalarTwoSource := by
  intro s d a b p q n k x
  refine ⟨?add, ?sub, ?mul, ?mulh, ?mulhu, ?and, ?or, ?xor, ?andn, ?min, ?max, ?minu, ?maxu⟩
  case add => exact scalarOp_two rfl fun g => BitVec.add_def ..
  case sub => exact scalarOp_two rfl fun g => sub_eq_ofInt ..
  case mul => exact scalarOp_two rfl fun g => mul_eq_ofNat ..
  case mulh => exact scalarOp_two rfl fun g => ofInt_div_eq_high 64 _
  case mulhu => exact scalarOp_two rfl fun g => ofNat_div_eq_high 64 _
  case min => exact scalarOp_two rfl fun g => lesser_eq_min ..
  case max => exact scalarOp_two rfl fun g => greater_eq_max ..
  case minu => exact scalarOp_two rfl fun g => lesser_eq_minu ..
  case maxu => exact scalarOp_two rfl fun g => greater_eq_maxu ..
  all_goals exact scalarOp_two rfl fun g => rfl

/-- Settles O18: each form is its row of Table 8-1, with the results of Tables 8-3 and 8-4. -/
theorem scalarDivisionShifts : Obligations.ScalarDivisionShifts := by
  refine ⟨⟨fun d a b p q n k x => ?_, fun s d a b p q n k x => ?_⟩, fun d a b p q n k x => ?_,
    fun s d a b p q n k x => ?_⟩
  · exact ⟨opcodeOf_word (c := 0x06) rfl, opcodeOf_word (c := 0x07) rfl, opcodeOf_word (c := 0x08) rfl,
      opcodeOf_word (c := 0x09) rfl⟩
  · exact ⟨scalarOp_flags rfl fun g => divS_eq .., scalarOp_flags rfl fun g => divU_eq ..,
      scalarOp_flags rfl fun g => remS_eq .., scalarOp_flags rfl fun g => remU_eq ..⟩
  · exact ⟨opcodeOf_word (c := 0x0E) rfl, opcodeOf_word (c := 0x0F) rfl, opcodeOf_word (c := 0x10) rfl,
      opcodeOf_word (c := 0x11) rfl⟩
  · exact ⟨scalarOp_two rfl fun g => shl64_eq .., scalarOp_two rfl fun g => shr64_eq ..,
      scalarOp_two rfl fun g => sar64_eq .., scalarOp_two rfl fun g => rot64_eq ..⟩

/-- Settles O19: the counts as lengths of filters, the extensions by their field checks and the signed reading. -/
theorem scalarCountsExtend : Obligations.ScalarCountsExtend := by
  refine ⟨⟨fun d a p n k x => ?_, fun s d a p n k x => ?_⟩, fun d a m p n k x => ?_, fun d a p n k x => ?_,
    fun s d a m p n k x _ => ?_⟩
  · exact ⟨opcodeOf_word (c := 0x16) rfl, opcodeOf_word (c := 0x17) rfl, opcodeOf_word (c := 0x18) rfl,
      opcodeOf_word (c := 0x1F) rfl⟩
  · exact ⟨scalarOp_one rfl fun g => clz64_eq _, scalarOp_one rfl fun g => ctz64_eq _, scalarOp_one rfl fun g => rfl,
      scalarOp_one rfl fun g => rfl⟩
  · exact ⟨opcodeOf_word (c := 0x1C) rfl, opcodeOf_word (c := 0x1D) rfl⟩
  · exact ⟨⟨1, rfl⟩, 1, rfl⟩
  · have hsext (z : W64) : sIntN m.toNat (z.toNat % 2 ^ m.toNat) = Int.bmod z.toNat (2 ^ m.toNat) :=
      (sIntN_mod ..).trans (sIntN_eq_bmod ..)
    exact ⟨scalarOp_one rfl fun g => congrArg (BitVec.ofInt 64) (hsext _), scalarOp_one rfl fun g => rfl⟩

/-- Settles O20: the fields as quotients and remainders, the immediate in force, the conditions. -/
theorem scalarFieldsAndImmediates : Obligations.ScalarFieldsAndImmediates := by
  refine ⟨fun s d a p v l _ => ⟨?bfx, ?bfxu, ?bfi⟩, fun s d a b p q u im c => ⟨?movi, ?lea, ?cmp⟩⟩
  case bfx =>
    refine scalarOp_one rfl fun g => congrArg (BitVec.ofInt 64) ?_
    rw [sIntN_eq_bmod, fieldOf_eq]
  case bfxu => exact scalarOp_one rfl fun g => congrArg (BitVec.ofNat 64) (fieldOf_eq ..)
  case bfi =>
    exact scalarOp_of_exec (show exec _ s = execBfi d a p v l s from rfl) fun g =>
      congrArg (sOut · (g.sa.t || g.sc.t) 0) (insField_eq ..)
  case movi =>
    exact scalarOp_of_exec (show exec _ s = execMovi d im s from rfl) fun g => congrArg (sOut · false 0) (immOf_eq g im)
  case lea =>
    exact scalarOp_of_exec (show exec _ s = execLea d a p im s from rfl) fun g =>
      congrArg (fun z => sOut (g.sa.v + z) g.sa.t 0) (immOf_eq g im)
  case cmp => exact scalarOp_two rfl fun g => congrArg (fun z : Bool => if z then 1 else 0) (intCond_eq c _ _)

/-- Settles O21, by the operand that the condition selects. -/
theorem scalarSelect : Obligations.ScalarSelect := by
  intro s d a b p q n k x
  refine ⟨opcodeOf_word (c := 0x1E) rfl, rfl, rfl, ?_⟩
  refine scalarOp_of_exec (show exec _ s = execSel d a b p q n k x s from rfl) fun g => ?_
  show (if g.sc.v ≠ 0 then sOut g.sa.v (g.sc.t || g.sa.t) 0 else sOut g.sb.v (g.sc.t || g.sb.t) 0) = _
  split <;> rfl

end

section
/-! Vector integers lane by lane (R186 to R190, R196, R198). -/

namespace Sys2Proof.Machine

theorem ofNat_mod_eq_setWidth (x : W64) : BitVec.ofNat 32 (x.toNat % 2 ^ 32) = x.setWidth 32 :=
  BitVec.eq_of_toNat_eq (by rw [BitVec.toNat_ofNat, Nat.mod_mod, BitVec.toNat_setWidth])

/-! ### Shifts (R187) -/

section
variable (a b : W32)

theorem shl32_eq : shl32 a b = if b.toNat < 32 then BitVec.ofNat 32 (a.toNat * 2 ^ b.toNat) else 0 := by
  rw [shl32, shiftLeft_eq_ofNat]

theorem shr32_eq : shr32 a b = if b.toNat < 32 then BitVec.ofNat 32 (a.toNat / 2 ^ b.toNat) else 0 := by
  rw [shr32, ushiftRight_eq_ofNat]

theorem sar32_eq : sar32 a b = if b.toNat < 32 then BitVec.ofInt 32 (a.toInt / 2 ^ b.toNat)
    else if a.getLsbD 31 then 0xFFFFFFFF#32 else 0 := by
  rw [sar32, sshiftRight_eq_ofInt]
  rfl

end

/-! ### Clamping (R186, R189, R190) -/

/-- A value clamped to a range, with SA (bit 5) when it was outside. -/
def clampTo (lo hi x : Int) : W32 × Nat :=
  if x < lo then (BitVec.ofInt 32 lo, 32) else if hi < x then (BitVec.ofInt 32 hi, 32) else (BitVec.ofInt 32 x, 0)

theorem satI_eq_clampTo (w : Nat) (u : Bool) (x : Int) :
    (BitVec.ofInt 32 (satI w u x).1, if (satI w u x).2 then fSA else 0) = clampTo (intMin w u) (intMax w u) x := by
  unfold satI clampI clampTo
  by_cases hlo : x < intMin w u
  · simp only [if_pos hlo, bne_iff_ne, if_pos hlo.ne']
    rfl
  · by_cases hhi : intMax w u < x
    · simp only [if_neg hlo, if_pos hhi, bne_iff_ne, if_pos hhi.ne]
      rfl
    · simp only [if_neg hlo, if_neg hhi, bne_self_eq_false, Bool.false_eq_true, if_false]

theorem sat32_eq (x : Int) : sat32 x = clamp32 x := by
  have hhi : intMax 32 false < x ↔ 2 ^ 31 ≤ x := Int.add_one_le_iff
  refine (satI_eq_clampTo 32 false x).trans ?_
  simp only [clampTo, clamp32, hhi]
  rfl

theorem satLane_eq (u : Bool) (n : Nat) (a : W32) : satLane u (n + 1) a =
    if u then clampTo 0 (2 ^ (n + 1) - 1) a.toInt else clampTo (-2 ^ n) (2 ^ n - 1) a.toInt := by
  refine (satI_eq_clampTo (n + 1) u a.toInt).trans ?_
  cases u <;> simp [intMin, intMax]

theorem shrr_eq (w : Bool) (v : BitVec 5) (a : W32) : shrr w v.toNat a =
    (let r : Int := (a.toInt + (if v = 0 then 0 else 2 ^ (v.toNat - 1))) / 2 ^ v.toNat
     if w then clampTo (-2 ^ 15) (2 ^ 15 - 1) r else clampTo (-2 ^ 31) (2 ^ 31 - 1) r) := by
  have hv : v.toNat = 0 ↔ v = 0 := BitVec.toNat_inj (y := 0)
  have h32 : intMin 32 false = -2 ^ 31 ∧ intMax 32 false = 2 ^ 31 - 1 := by decide
  have h16 : intMin 16 false = -2 ^ 15 ∧ intMax 16 false = 2 ^ 15 - 1 := by decide
  refine (satI_eq_clampTo _ false _).trans ?_
  cases w
  · simp only [hv, Nat.cast_pow, Nat.cast_ofNat, Bool.false_eq_true, if_false, h32]
  · simp only [hv, Nat.cast_pow, Nat.cast_ofNat, if_true, h16]

theorem abs_eq_if (x : Int) : (if x < 0 then -x else x) = |x| := by
  by_cases h : x < 0
  · rw [if_pos h, abs_of_neg h]
  · rw [if_neg h, abs_of_nonneg (not_lt.1 h)]

end Sys2Proof.Machine

open Sys2Proof Sys2Proof.Machine

/-- A code that the first source of A may not hold is refused at decode (Table 6-7, OPERAND). -/
theorem decodeFault_of_source {i : Instr} {x : Src} {l : List Src} (hf : fieldOk i = true) (ha : (opForm i).a = x :: l)
    (hx : srcCodeOk x.file x.code = false) : decodeFault i = some (.illins 2) := by
  have hop : operandOk i = false := by
    simp [operandOk, ha, hx]
  rw [decodeFault, hf, hop]
  rfl

/-- Settles O22: each form is its row of Table 8-7, lane by lane. -/
theorem vectorTwoSource : Obligations.VectorTwoSource := by
  intro s d a b p q n k x
  refine ⟨?vadd, ?vsub, ?vmul, ?vmulh, ?vmin, ?vmax, ?vand, ?vor, ?vxor, ?vshl, ?vshr, ?vsar⟩
  case vadd => exact laneOp_two rfl BitVec.add_def
  case vsub => exact laneOp_two rfl sub_eq_ofInt
  case vmul => exact laneOp_two rfl mul_eq_ofNat
  case vmulh => exact laneOp_two rfl fun _ _ => ofInt_div_eq_high 32 _
  case vmin => exact laneOp_two rfl lesser_eq_min
  case vmax => exact laneOp_two rfl greater_eq_max
  case vshl => exact laneOp_two rfl shl32_eq
  case vshr => exact laneOp_two rfl shr32_eq
  case vsar => exact laneOp_two rfl sar32_eq
  all_goals exact laneOp_two rfl fun _ _ => rfl

/-- Settles O23: each form lane by lane, the clamped ones by one clamp of the exact value. -/
theorem vectorOneAndThreeSource : Obligations.VectorOneAndThreeSource := by
  intro s d a b p q n w u v k m x
  refine ⟨?vabs, ?vneg, ?vpopc, ?vshrr, ?vsat, ?vmac, ?vmac2, ?vdot4, ?vsel⟩
  case vabs => exact laneOp_one rfl fun z => (sat32_eq _).trans (congrArg clamp32 (abs_eq_if _))
  case vneg => exact laneOp_one rfl fun z => sat32_eq _
  case vpopc => exact laneOp_one rfl fun z => rfl
  case vshrr => exact laneOp_one rfl (shrr_eq w v)
  case vsat => exact laneOp_one rfl (satLane_eq u v.toNat)
  case vmac =>
    refine laneOp_three rfl fun a b c => congrArg (·, 0) ?_
    rw [BitVec.ofNat_add, ← mul_eq_ofNat, BitVec.ofNat_toNat, BitVec.setWidth_eq]
  case vmac2 =>
    refine laneOp_of_exec (show exec _ s = execVmac2 d a m w p n k x s from rfl) (fun g => rfl) fun g j _ => ?_
    refine (laneVal_toNat ..).trans ?_
    rw [sat32_eq]
    rfl
  case vdot4 => exact laneOp_three rfl fun a b c => sat32_eq _
  case vsel =>
    refine laneOp_of_exec (show exec _ s = execVsel d a b p q n k x s from rfl) (fun g => rfl) fun g j _ => ?_
    show El.laneVal (if lane g.vc.v j ≠ 0 then _ else _) = _
    split <;> exact laneVal_toNat ..

/-- Settles O24: the lane that the index names, the low word of A, the operand code that is refused. -/
theorem vectorPermuteBroadcast : Obligations.VectorPermuteBroadcast := by
  refine ⟨fun s d a b p q n k x => ⟨opcodeOf_word (c := 0x53) rfl, ?_⟩,
    fun s d a p n k x => ⟨opcodeOf_word (c := 0x50) rfl, fun hlo hhi _ => ?_, ?_⟩⟩
  · refine laneOp_of_exec (show exec _ s = execVperm d a b p q n k x s from rfl) (fun g => rfl) fun g j _ => ?_
    have hsix : ((lane g.vb.v j).extractLsb' 0 6).toNat = (lane g.vb.v j).toNat % 64 := by
      rw [BitVec.extractLsb'_toNat, Nat.shiftRight_zero]
    show El.laneVal (if (lane g.vb.v j).getLsbD 31 then _ else _) = _
    simp only [hsix]
    split
    · rfl
    · exact laneVal_toNat ..
  · refine decodeFault_of_source rfl rfl ?_
    show srcCodeOk .s a = false
    rw [srcCodeOk, decide_eq_false (by omega), decide_eq_false (by omega)]
    rfl
  · refine laneOp_of_exec (show exec _ s = execVbcast d a p n k x s from rfl) (fun g => rfl) fun g j _ => ?_
    exact congrArg (LaneVal.mk · g.sa.t 0) (ofNat_mod_eq_setWidth _)
end

section
/-! Elements of vectors (R192, R193, R195, R197, R199): which element each lane or element of a result receives. -/

namespace Sys2Proof.Machine

/-! ### Elements within lanes (R30) -/

theorem elemN_eq_div (v : VReg) (w m : Nat) : elemN v w m = v.toNat / 2 ^ (w * m) % 2 ^ w := by
  rw [elemN, Nat.shiftRight_eq_div_pow]

theorem elemN_mod (v : VReg) (w m : Nat) : elemN v w m % 2 ^ w = elemN v w m := Nat.mod_mod _ _

/-- An element whose width divides that of a lane lies in one lane. -/
theorem elemN_eq_lane {w : Nat} (hw : w ∣ 32) (v : VReg) (m : Nat) :
    elemN v w m = (lane v (laneOfElem w m)).toNat >>> (w * m % 32) % 2 ^ w := by
  have hfit : w * m % 32 + w ≤ 32 := by
    obtain ⟨c, hc⟩ := hw
    have hc0 : 0 < c := Nat.pos_of_ne_zero fun h => by simp [h] at hc
    calc w * m % 32 + w = w * (m % c) + w := by rw [hc, Nat.mul_mod_mul_left]
      _ = w * (m % c + 1) := rfl
      _ ≤ w * c := Nat.mul_le_mul_left w (Nat.mod_lt m hc0)
      _ = 32 := hc.symm
  rw [toNat_lane]
  apply Nat.eq_of_testBit_eq
  intro i
  simp only [elemN, laneOfElem, Nat.testBit_mod_two_pow, Nat.testBit_shiftRight]
  by_cases hi : i < w
  · rw [show 32 * (w * m / 32) + (w * m % 32 + i) = w * m + i by omega]
    simp [show w * m % 32 + i < 32 by omega]
  · simp [hi]

theorem elemCount_pos {w : Nat} (hw : w ∣ 32) : 0 < 2048 / w :=
  Nat.div_pos (Nat.le_of_dvd (by decide) (hw.trans (by decide))) (Nat.pos_of_dvd_of_pos hw (by decide))

theorem elem_fits {w m : Nat} (hm : m < 2048 / w) : w * m + w ≤ 2048 :=
  (Nat.mul_le_mul_left w hm).trans (Nat.mul_div_le 2048 w)

theorem elemN_vvOfEls {w m : Nat} (hm : m < 2048 / w) (f : Nat → El) :
    elemN (vvOfEls w ((List.range (2048 / w)).map f)).v w m = (f m).v % 2 ^ w := by
  rw [vvOfEls, elemN_vecOfElems _ (elem_fits hm), List.map_map, getD_map_range _ _ hm]
  rfl

section
variable {w m : Nat} (hw : w ∣ 32) (hm : m < 2048 / w)
include hw hm

theorem laneOfElem_lt : laneOfElem w m < 64 := by
  have hw0 : 0 < w := Nat.pos_of_dvd_of_pos hw (by decide)
  have hfit := elem_fits hm
  unfold laneOfElem
  omega

theorem elemN_finishVec (x : VV) (f : LaneFlags) (pred : PV) (act : W64) (acc : Option VV) :
    elemN (finishVec x f pred act acc).1.v w m =
      if act.getLsbD (laneOfElem w m) then elemN x.v w m else elemN (acc.getD VV.zero).v w m := by
  simp only [elemN_eq_lane hw, finishVec_lane _ _ _ _ _ (laneOfElem_lt hw hm)]
  split <;> rfl

end

/-! ### Patterns of integers (R49, R193) -/

theorem ofNat_truncN (w : Nat) (x : Int) : BitVec.ofNat w (truncN w x) = BitVec.ofInt w x :=
  BitVec.eq_of_toNat_eq (by rw [BitVec.toNat_ofNat, BitVec.toNat_ofInt, truncN, ← BitVec.toNat_ofInt, BitVec.toNat_mod_cancel])

theorem truncN_mod (w : Nat) (x : Int) : truncN w x % 2 ^ w = (BitVec.ofInt w x).toNat := by
  rw [← BitVec.toNat_ofNat, ofNat_truncN]

theorem unpacked_eq (u : Bool) (b n : Nat) (t : Bool) :
    El.laneVal ⟨if u then n else truncN 32 (sIntN b n), t, 0⟩ =
      ⟨if u then BitVec.ofNat 32 n else BitVec.ofInt 32 (Int.bmod n (2 ^ b)), t, 0⟩ := by
  cases u
  · exact congrArg (LaneVal.mk · t 0) ((ofNat_truncN 32 _).trans (congrArg _ (sIntN_eq_bmod b n)))
  · rfl

/-! ### `VPACK` (R192) -/

theorem clampI_eq {lo hi : Int} (h : lo ≤ hi) (x : Int) : clampI lo hi x = max lo (min hi x) := by
  unfold clampI
  split
  · omega
  · split <;> omega

/-- One element of `w` bits narrowed from a lane: truncated, or clamped to `w` bits. -/
def narrow (w : Nat) (sat u : Bool) (z : W32) : Nat :=
  if sat = false then z.toNat % 2 ^ w
  else if u then (if z.toInt < 0 then 0 else if 2 ^ w ≤ z.toInt then 2 ^ w - 1 else z.toNat)
  else (BitVec.ofInt w (max (-2 ^ (w - 1)) (min (2 ^ (w - 1) - 1) z.toInt))).toNat

theorem satI_unsigned_narrow (w : Nat) (z : W32) : truncN w (satI w true z.toInt).1 % 2 ^ w = narrow w true true z := by
  have hp : (0 : Int) < 2 ^ w := by positivity
  have hnat : ∀ n : Nat, n < 2 ^ w → truncN w n % 2 ^ w = n := fun n hn => by
    rw [truncN_mod, BitVec.ofInt_natCast, BitVec.toNat_ofNat, Nat.mod_eq_of_lt hn]
  simp only [satI, clampI, narrow, intMin, intMax, if_true, Bool.true_eq_false, if_false, Nat.cast_pow, Nat.cast_ofNat]
  by_cases h0 : z.toInt < 0
  · rw [if_pos h0, if_pos h0]
    exact hnat 0 (by positivity)
  · by_cases h1 : 2 ^ w ≤ z.toInt
    · rw [if_neg h0, if_neg h0, if_pos (by omega), if_pos h1]
      have hmax := hnat (2 ^ w - 1) (Nat.sub_one_lt (by positivity))
      rwa [Nat.cast_sub (Nat.one_le_two_pow), Nat.cast_pow, Nat.cast_ofNat, Nat.cast_one] at hmax
    · rw [if_neg h0, if_neg h0, if_neg (by omega), if_neg h1]
      have hz : z.toInt = (z.toNat : Int) := by
        have hcond := BitVec.toInt_eq_toNat_cond z
        split at hcond <;> omega
      rw [hz] at h1 ⊢
      exact hnat _ (by exact_mod_cast not_le.1 h1)

theorem satI_signed_narrow (w : Nat) (z : W32) : truncN w (satI w false z.toInt).1 % 2 ^ w = narrow w true false z := by
  have hr : intMin w false ≤ intMax w false := by simp [intMin, intMax]
  rw [truncN_mod, satI, clampI_eq hr]
  simp [narrow, intMin, intMax]

/-- The width of a packed element. -/
def packWidth (w8 : Bool) : Nat := if w8 then 8 else 16

theorem packWidth_dvd (w8 : Bool) : packWidth w8 ∣ 32 := by
  cases w8 <;> decide

theorem packOut_elem (w8 sat u : Bool) (h : Nat) (i : BIn) : ∃ y, (packOut w8 sat u h i).vals = [.v y] ∧
    ∀ m < 2048 / packWidth w8, elemN y.v (packWidth w8) m =
      if i.act.getLsbD (laneOfElem (packWidth w8) m) ∧ 64 * h ≤ m ∧ m < 64 * h + 64 then
        narrow (packWidth w8) sat u (lane i.va.v (m - 64 * h))
      else elemN i.vc.v (packWidth w8) m := by
  refine ⟨_, rfl, fun m hm => (elemN_finishVec (packWidth_dvd w8) hm _ _ _ _ _).trans ?_⟩
  by_cases hact : i.act.getLsbD (laneOfElem (packWidth w8) m)
  · refine (if_pos hact).trans ((elemN_vvOfEls hm _).trans ?_)
    by_cases hin : 64 * h ≤ m ∧ m < 64 * h + 64
    · rw [if_pos hin, if_pos (And.intro hact hin)]
      cases sat
      · exact Nat.mod_mod _ _
      · cases u
        · exact satI_signed_narrow ..
        · exact satI_unsigned_narrow ..
    · have hnot : ¬ (i.act.getLsbD (laneOfElem (packWidth w8) m) = true ∧ 64 * h ≤ m ∧ m < 64 * h + 64) :=
        fun hh => hin hh.2
      rw [if_neg hin, if_neg hnot]
      exact elemN_mod ..
  · rw [if_neg hact, if_neg fun hh => hact hh.1]
    rfl

/-! ### `VSLIDE` (R195) -/

/-- An instruction without a predicate acts in every lane (R128). -/
theorem passes_act {s : State} {slot : Nat} {i : Instr} {g : Pass} (h : Passes s slot i g) (hp : (opForm i).pred = none) :
    g.act = ~~~0#64 := by
  have hk : (s.strand s.cur).regs.kP 0 = ⟨~~~0#64, 0⟩ := rfl
  obtain ⟨st, a, b, c, pred, act, fl, bks⟩ := g
  unfold Passes checkInstr at h
  simp only [hp, Option.map_none, Option.getD_none, Option.isSome_none, Bool.false_and, Bool.false_eq_true, if_false, hk] at h
  repeat' split at h
  all_goals cases h
  all_goals rfl

/-- The element that fills the free place: one of the second vector, or the low bits of the scalar. -/
def slideFill (fv : Bool) (w : Nat) (i : BIn) (m : Nat) : Nat := if fv then elemN i.vb.v w m else i.sb.v.toNat % 2 ^ w

theorem slideOut_elem {w : Nat} (hw : w ∣ 32) (fv dn : Bool) (i : BIn) {m : Nat} (hm : m < 2048 / w) :
    elemN (slideOut fv dn w i).v w m =
      if dn then (if m = 2048 / w - 1 then slideFill fv w i 0 else elemN i.va.v w (m + 1))
      else (if m = 0 then slideFill fv w i (2048 / w - 1) else elemN i.va.v w (m - 1)) := by
  have hw32 : w ≤ 32 := Nat.le_of_dvd (by decide) hw
  have hfill (k : Nat) : (if fv then (⟨elemN i.vb.v w k, i.vb.tag (laneOfElem w k), 0⟩ : El)
      else ⟨i.vb.v.toNat % 2 ^ w, i.sb.t, 0⟩).v % 2 ^ w = slideFill fv w i k := by
    cases fv
    · show i.vb.v.toNat % 2 ^ w % 2 ^ w = (i.vb.v.setWidth 64).toNat % 2 ^ w
      rw [BitVec.toNat_setWidth, Nat.mod_mod, Nat.mod_mod_of_dvd _ (pow_dvd_pow 2 (by omega))]
    · exact elemN_mod ..
  refine (elemN_vvOfEls hm _).trans ?_
  cases dn
  · by_cases h0 : m = 0
    · simp only [h0, if_true, Bool.false_eq_true, if_false]
      exact hfill _
    · simp only [h0, Bool.false_eq_true, if_false]
      exact elemN_mod ..
  · by_cases h0 : m = 2048 / w - 1
    · simp only [← h0, if_true]
      exact hfill _
    · simp only [h0, if_true, if_false]
      exact elemN_mod ..

/-! ### Choosing lanes (R199) -/

theorem selected_eq (b : VV) : selected b = (List.range 64).filter (fun y => decide (lane b.v y ≠ 0)) :=
  List.filter_congr fun y _ => (congrArg not (beq_eq_decide (lane b.v y) 0)).trans decide_not.symm

theorem filter_lt_range {j n : Nat} (h : j ≤ n) : (List.range n).filter (fun y => decide (y < j)) = List.range j := by
  obtain ⟨r, rfl⟩ := Nat.exists_eq_add_of_le h
  rw [List.range_add, List.filter_append, List.filter_eq_self.2, List.filter_eq_nil_iff.2, List.append_nil] <;> simp

theorem selected_before (b : VV) {j : Nat} (h : j < 64) :
    (selected b).filter (fun y => decide (y < j)) = (List.range j).filter (fun y => decide (lane b.v y ≠ 0)) := by
  rw [selected_eq, List.filter_filter, ← filter_lt_range h.le, List.filter_filter]
  exact List.filter_congr fun y _ => Bool.and_comm ..

theorem any_tag (x : VV) : (List.range 64).any (fun z => x.tag z) = (x.t != 0) := by
  rw [Bool.eq_iff_iff, bne_iff_ne, ne_eq, List.any_eq_true]
  constructor
  · rintro ⟨j, -, hj⟩ h0
    simp [VV.tag, h0] at hj
  · intro h
    by_contra hno
    refine h (BitVec.eq_of_getLsbD_eq fun j hj => ?_)
    simp only [not_exists, not_and, List.mem_range] at hno
    simpa [VV.tag] using hno j hj

end Sys2Proof.Machine

open Sys2Proof Sys2Proof.Machine

/-- Settles O25: each lane by the element that its rule names, packed and moved elements one by one. -/
theorem vectorElements : Obligations.VectorElements := by
  refine ⟨fun s d a b p q n w u l h k x => ⟨?_, ?_, ?_, ?_, ?_⟩,
    fun s g d a f p q n w t u h e k x => ⟨fun hg => ?_, fun _ hg => ?_⟩⟩
  · refine laneOp_of_exec (show exec _ s = execVins d a p l s from rfl) (fun g => rfl) fun g j _ => ?_
    show El.laneVal (if j = l.toNat then _ else _) = _
    split
    · exact congrArg (LaneVal.mk · g.sa.t 0) (ofNat_mod_eq_setWidth _)
    · exact laneVal_toNat ..
  · exact scalarOp_of_exec (show exec _ s = execVext d a p u l s from rfl) fun g => rfl
  · refine laneOp_of_exec (show exec _ s = execVunpk d a w u h p n k x s from rfl) (fun g => rfl) fun g j _ => ?_
    exact (unpacked_eq ..).trans (by rw [elemN_eq_div]; rfl)
  · refine laneOp_of_exec (show exec _ s = execVcompr d a b p q n k x s from rfl) (fun g => rfl) fun g j _ => ?_
    show El.laneVal (match ((selected g.vb).drop j).head? with
      | some y => _
      | none => _) = _
    rw [List.head?_drop, selected_eq]
    dsimp only
    cases ((List.range 64).filter fun y => decide (lane g.vb.v y ≠ 0))[j]? with
    | some y => exact laneVal_toNat ..
    | none => exact congrArg (LaneVal.mk 0 · 0) (any_tag g.vb).symm
  · refine laneOp_of_exec (show exec _ s = execVexpd d a b p q n k x s from rfl) (fun g => rfl) fun g j hj => ?_
    have hbefore : (selected g.bin.vb).filter (fun y => decide (y < j)) = _ := selected_before g.vb hj
    show El.laneVal (if lane g.vb.v j ≠ 0 then _ else _) = _
    simp only [hbefore]
    split
    · exact laneVal_toNat ..
    · rfl
  · obtain ⟨y, hy, helem⟩ := packOut_elem w t u h.toNat g.bin
    exact ⟨_, y, givesB_of_exec (show exec _ s = execVpack d a w t u h p n k x s from rfl) g hg, hy, helem⟩
  · have hw : 32 / 2 ^ e.toNat ∣ 32 := Nat.div_dvd_of_dvd (pow_dvd_pow 2 (show e.toNat ≤ 5 by omega))
    have hall : g.bin.act = ~~~0#64 := passes_act hg rfl
    refine ⟨_, _, givesB_of_exec (show exec _ s = execVslide d a f p q t u e s from rfl) g hg, rfl, fun m hm => ?_⟩
    have hm : m < 2048 / (32 / 2 ^ e.toNat) := Nat.lt_of_le_pred (elemCount_pos hw) hm
    have hon : g.bin.act.getLsbD (laneOfElem (32 / 2 ^ e.toNat) m) = true := by
      rw [hall, BitVec.getLsbD_not, decide_eq_true (laneOfElem_lt hw hm), BitVec.getLsbD_zero]
      rfl
    rw [Nat.shiftRight_eq_div_pow]
    refine (elemN_finishVec hw hm _ _ _ _ _).trans ?_
    rw [if_pos hon]
    exact slideOut_elem hw t u g.bin hm
end

section
/-! Comparison, reduction and scan of vectors (R55, R57, R191, R200). -/

namespace Sys2Proof.Machine

/-! ### Predicate results (R191, R372) -/

theorem withPs_eq (t : Bool) (f : Nat) : withPs t f = f ||| if t then 64 else 0 := by
  cases t
  · exact (Nat.or_zero f).symm
  · rfl

theorem predResult_kOut (g : Pass) (f : Nat → Bool × Bool × Nat) : PredResult g (kOut g.bin f) f := by
  refine ⟨rfl, _, rfl, fun j hj => ⟨?_, ?_, ?_⟩⟩
  · rw [getLsbD_maskOfList _ _ hj, List.map_map, getD_map_range _ _ hj]
    rfl
  · rw [BitVec.getLsbD_or, getLsbD_maskOfList _ _ hj, List.map_map, getD_map_range _ _ hj]
    rfl
  · refine (laneFlags_maskFlags _ _ hj).trans (if_congr Iff.rfl ?_ rfl)
    rw [laneFlags_flagsOfList _ _ hj]
    simp only [List.getD_eq_getElem?_getD, List.getElem?_map, List.getElem?_zipIdx, List.getElem?_range hj, Option.map_some,
      Option.getD_some, Nat.zero_add, withPs_eq]

theorem predOp_of_exec {s : State} {lat : Nat} {i : Instr} {f : BIn → Nat → Bool × Bool × Nat}
    {h : Pass → Nat → Bool × Bool × Nat} (hexec : exec i s = s.runB lat i (fun b => kOut b (f b)))
    (hf : ∀ g : Pass, f g.bin = h g) : PredOp s lat i h := fun g hg =>
  ⟨_, givesB_of_exec hexec g hg, hf g ▸ predResult_kOut g (f g.bin)⟩

/-! ### The tree of a sum (R55) -/

section
variable {α : Type} {f : α → α → α × Nat}

theorem treeLevel_length (k : Nat) (l : List α) (h : l.length = 2 * k) : (treeLevel f l).1.length = k := by
  induction k generalizing l with
  | zero =>
    rw [List.eq_nil_of_length_eq_zero h]
    rfl
  | succ k ih =>
    obtain _ | ⟨x, _ | ⟨y, r⟩⟩ := l <;> simp only [List.length_cons, List.length_nil] at h
    · omega
    · omega
    · exact congrArg (· + 1) (ih r (by omega))

theorem treeReduce_length (n : Nat) (l : List α) (fl : Nat) (h : l.length = 2 ^ n) : (treeReduce f n l fl).1.length = 1 := by
  induction n generalizing l fl with
  | zero => exact h
  | succ n ih => exact ih _ _ (treeLevel_length _ l (by rw [h, pow_succ, Nat.mul_comm]))

variable [AddCommMonoid α] (hf : ∀ x y, (f x y).1 = x + y)
include hf

theorem treeLevel_sum (l : List α) : (treeLevel f l).1.sum = l.sum := by
  induction l using treeLevel.induct (f := f) with
  | case1 x y r _ _ _ _ _ _ ih => simp only [treeLevel, List.sum_cons, hf, ih, add_assoc]
  | case2 l h => rw [treeLevel]; exact h

theorem treeReduce_sum (n : Nat) (l : List α) (fl : Nat) : (treeReduce f n l fl).1.sum = l.sum := by
  induction n generalizing l fl with
  | zero => rfl
  | succ n ih => exact (ih _ _).trans (treeLevel_sum hf l)

theorem treeReduce_head (n : Nat) (l : List α) (fl : Nat) (h : l.length = 2 ^ n) (d : α) :
    (treeReduce f n l fl).1.headD d = l.sum := by
  obtain ⟨z, hz⟩ := List.length_eq_one_iff.1 (treeReduce_length (f := f) n l fl h)
  rw [← treeReduce_sum hf n l fl, hz, List.sum_singleton]
  rfl

end

theorem ofNat_sum (w : Nat) (l : List Nat) : BitVec.ofNat w l.sum = (l.map (BitVec.ofNat w)).sum := by
  induction l with
  | nil => rfl
  | cons x r ih => rw [List.sum_cons, BitVec.ofNat_add, ih]; rfl

/-- What lane `j` adds to the sum of the active lanes. -/
def activeLane (a : VV) (act : W64) (j : Nat) : Nat := if act.getLsbD j then (lane a.v j).toNat else 0

theorem redElems_add (a : VV) (act : W64) : (redElems false 0 a act).map (fun x => if x.2 then x.1 else identityI 0) =
    ((List.range 64).map (activeLane a act)).map (BitVec.ofNat 32) := by
  rw [redElems, if_neg Bool.false_ne_true, List.map_map, List.map_map]
  refine List.map_congr_left fun j _ => ?_
  show (if act.getLsbD j then lane a.v j else identityI 0) = BitVec.ofNat 32 (activeLane a act j)
  unfold activeLane
  split
  · rw [BitVec.ofNat_toNat, BitVec.setWidth_eq]
  · rfl

/-- `VRED.ADD` of INT32 lanes (R200): the tree of R55 adds in an order of its own, which does not show modulo 2^32. -/
theorem redOut_add (i : BIn) : (redOut 0 false false i).vals = [.s ⟨BitVec.ofInt 64 (Int.bmod
    (((List.range 64).map (activeLane i.va i.act)).sum : Nat) (2 ^ 32)), (i.va.t &&& i.act ||| i.pred.t) != 0⟩] := by
  have htree := treeReduce_head (f := combine 0 false) (fun _ _ => rfl) 6
    (((List.range 64).map (activeLane i.va i.act)).map (BitVec.ofNat 32)) 0 (by simp) 0
  rw [← ofNat_sum, ← redElems_add] at htree
  rw [← BitVec.toInt_ofNat', ← htree]
  rfl

end Sys2Proof.Machine

open Sys2Proof Sys2Proof.Machine

/-- Settles O26: the comparison bit by bit, the reduction and the scan as the model has them, and the tree of a sum. -/
theorem vectorCompareReduce : Obligations.VectorCompareReduce := by
  intro s y c d a b p q u t v n o k x
  refine ⟨?_, ?_, ?_, ?_⟩
  · refine predOp_of_exec (show exec _ s = execVcmp y c a b p q u k x s from rfl) fun g => funext fun j => ?_
    exact congrArg (·, _, 0) (intCond_eq c _ _)
  · exact givesB_of_exec (show exec _ s = execVred d a o t v p n k x s from rfl)
  · intro g hg
    exact ⟨_, givesB_of_exec (show exec _ s = execVred d a 0 false false p n k x s from rfl) g hg, redOut_add g.bin⟩
  · exact givesB_of_exec (show exec _ s = execVscan d a o t p n k x s from rfl)
end

section
/-! Floating point, conversions and quantisers of slot B (R201 to R216, R219 to R221): each form by the model's function of it. -/

namespace Sys2Proof.Machine

/-! ### The forms of issue with flags (R52, R203) -/

section
variable {s : State} {lat : Nat} {i : Instr}

theorem scalarOp_float_two {op : W32 → W32 → W32 × Nat} (hexec : exec i s = s.runB lat i (fun b => fOut2 b op)) :
    ScalarOp s lat i (fun g => (op g.sa.f g.sb.f).1.zeroExtend 64) tagAB (fun g => (op g.sa.f g.sb.f).2) :=
  scalarOp_of_exec hexec fun _ => rfl

theorem laneOp_two_flags {op : W32 → W32 → W32 × Nat} (hexec : exec i s = s.runB lat i (fun b => vOut2 b op)) :
    LaneOp s lat i noThird (lanes2 op) :=
  laneOp_of_exec (acc := fun _ => none) hexec (fun _ => rfl) fun _ _ _ => laneVal_toNat ..

end

/-! ### The sign bit of a word (R207) -/

theorem sign_append_magnitude (z : W32) : z.extractLsb' 31 1 ++ z.extractLsb' 0 31 = z := by
  refine (BitVec.extractLsb'_append_extractLsb'_eq_extractLsb' (x := z) (start₁ := 0) (len₁ := 31) rfl).trans ?_
  exact BitVec.extractLsb'_eq_self

theorem and_magnitudeMask (z : W32) : z &&& 0x7FFFFFFF#32 = 0#1 ++ z.extractLsb' 0 31 := by
  have hmask : 0x7FFFFFFF#32 = 0#1 ++ BitVec.allOnes 31 := by decide
  conv_lhs => rw [← sign_append_magnitude z, hmask, BitVec.and_append, BitVec.and_zero, BitVec.and_allOnes]

theorem xor_signMask (z : W32) : z ^^^ 0x80000000#32 = (z.extractLsb' 31 1 ^^^ 1#1) ++ z.extractLsb' 0 31 := by
  have hmask : 0x80000000#32 = 1#1 ++ 0#31 := by decide
  conv_lhs => rw [← sign_append_magnitude z, hmask, BitVec.xor_append, BitVec.xor_zero]

end Sys2Proof.Machine

open Sys2Proof Sys2Proof.Machine

/-- Settles O28: the masks of the two forms act on bit 31 alone. -/
theorem floatSignForms : Obligations.FloatSignForms := by
  intro s d a p n k x
  refine ⟨opcodeOf_word (c := 0x67) rfl, opcodeOf_word (c := 0x68) rfl, ?vfabs, ?vfneg⟩
  case vfabs => exact laneOp_one rfl fun z => congrArg (·, 0) (and_magnitudeMask z)
  case vfneg => exact laneOp_one rfl fun z => congrArg (·, 0) (xor_signMask z)

/-- Settles O27: each form issues with the model's operation on its operands, which is the one that the statement names. -/
theorem floatForms : Obligations.FloatForms := by
  refine ⟨fun s d a b p q n c k x => ⟨?fadd, ?fsub, ?fmul, ?fdiv, ?fma, ?fsqrt, ?fmin, ?fmax, ?fcmp⟩,
    fun s d a b y c p q n k x => ⟨?vfadd, ?vfsub, ?vfmul, ?vfdiv, ?vfsqrt, ?vfrcp, ?vfrsq, ?vfexp2, ?vflog2, ?vfma, ?vfnma,
      ?vfmin, ?vfmax, ?vscale, ?vfdot2, ?vfclass, ?vfcmp⟩⟩
  case fadd => exact scalarOp_float_two (op := fAdd) rfl
  case fsub => exact scalarOp_float_two (op := fSub) rfl
  case fmul => exact scalarOp_float_two (op := fMul) rfl
  case fdiv => exact scalarOp_float_two (op := fDiv) rfl
  case fmin => exact scalarOp_float_two (op := fMin) rfl
  case fmax => exact scalarOp_float_two (op := fMax) rfl
  case fma => exact scalarOp_of_exec (show exec _ s = execFma d a b p q n k x s from rfl) fun g => rfl
  case fsqrt => exact scalarOp_of_exec (show exec _ s = execFsqrt d a p n k x s from rfl) fun g => rfl
  case fcmp =>
    refine scalarOp_of_exec (show exec _ s = execFcmp d a b p q n c s from rfl) fun g => ?_
    exact congrArg (sOut · (tagAB g) _) (apply_ite (BitVec.setWidth 64) _ 1#32 0#32)
  case vfma => exact laneOp_three rfl fun _ _ _ => rfl
  case vfnma => exact laneOp_three rfl fun _ _ _ => rfl
  case vfdot2 => exact laneOp_three rfl fun _ _ _ => rfl
  case vfsqrt | vfrcp | vfrsq | vfexp2 | vflog2 | vfclass => exact laneOp_one rfl fun _ => rfl
  case vfcmp => exact predOp_of_exec (show exec _ s = execVfcmp y c a b p q n k x s from rfl) fun g => rfl
  all_goals exact laneOp_two_flags rfl

/-- Settles O30: each form issues with the model's function of its operands; the scale byte of `VQ4N` is bits [39:32] of B. -/
theorem convertQuantise : Obligations.ConvertQuantise := by
  intro s d a b e p q n t u c m r h k o f x
  refine ⟨?vcvt, ?vcvti, ?vcvtf, ?vfred, ?vmxq, ?vq4nS, ?vq4n, ?fcvt⟩
  case vcvt => exact givesB_of_exec (show exec _ s = execVcvt d a p c m r u s from rfl)
  case vcvti => exact givesB_of_exec (show exec _ s = execVcvti d a r t u p n k x s from rfl)
  case vcvtf => exact givesB_of_exec (show exec _ s = execVcvtf d a r u p n k x s from rfl)
  case vfred => exact givesB_of_exec (show exec _ s = execVfred d a o r t p n k x s from rfl)
  case vmxq => exact givesB_of_exec (show exec _ s = execVmxq d a e p n f h s from rfl)
  case vq4nS => exact scalarOp_of_exec (show exec _ s = execVq4nS d a b p q n s from rfl) fun g => rfl
  case vq4n => exact givesB_of_exec (show exec _ s = execVq4n d a b p q n h s from rfl)
  case fcvt =>
    intro g hg
    exact ⟨_, givesB_of_exec (show exec _ s = execFcvt d a p c m r u s from rfl) g hg, rfl, rfl⟩

end

section
/-! Ranges of bytes (R59, R224 to R227): what a reader finds in a range, and what a write of a run of bytes leaves there. -/

namespace Sys2Proof.Machine

/-! ### Reading a range -/

theorem memBytes_one (m : List Host.Cell) (a : Nat) : memBytes m a 1 = [memGet m a] := rfl

theorem mem_linesOf {pa n l : Nat} : l ∈ linesOf pa n ↔ pa / 256 ≤ l ∧ l ≤ (pa + n - 1) / 256 := by
  simp only [linesOf, List.mem_map, List.mem_range]
  constructor
  · rintro ⟨i, hi, rfl⟩
    omega
  · rintro ⟨hlo, hhi⟩
    exact ⟨l - pa / 256, by omega, by omega⟩

theorem linesOf_nodup (pa n : Nat) : (linesOf pa n).Nodup :=
  List.nodup_range.map fun _ _ h => Nat.add_left_cancel h

/-- The line of each byte of a range is among the range's lines. -/
theorem line_mem_linesOf {pa n a : Nat} (hlo : pa ≤ a) (hhi : a < pa + n) : a / 256 ∈ linesOf pa n :=
  mem_linesOf.2 ⟨by omega, by omega⟩

/-- What is held of another line does not show at an address. -/
theorem State.memGet_memMerge_other (s : State) (m : List Host.Cell) {l a : Nat} (h : l ≠ a / 256) :
    memGet (memMerge m (s.ownedBytes l)) a = memGet m a :=
  memGet_memMerge_of_not_mem _ _ _ fun p hp hpa => h (by rw [← State.ownedBytes_line hp, hpa])

/-- Taking in what copies hold of several lines, the address's own among them, shows there what a reader finds. -/
theorem State.memGet_memNow (s : State) {ls : List Nat} (hls : ls.Nodup) {a : Nat} (ha : a / 256 ∈ ls) :
    memGet (s.memNow ls) a = s.view a := by
  unfold State.memNow State.view
  generalize s.mem = m
  induction ls generalizing m with
  | nil => cases ha
  | cons l r ih =>
    obtain ⟨hl, hr⟩ := List.nodup_cons.1 hls
    rw [List.foldl_cons]
    by_cases h : l = a / 256
    · subst h
      refine List.foldlRecOn r _ (motive := fun m' => memGet m' a = memGet (memMerge m (s.ownedBytes (a / 256))) a) rfl
        fun m' hm' k hk => ?_
      rw [s.memGet_memMerge_other m' fun hka => hl (hka ▸ hk), hm']
    · rw [ih hr ((List.mem_cons.1 ha).resolve_left (Ne.symm h))]
      exact memGet_memMerge_congr _ _ (s.memGet_memMerge_other m h)

/-- A read of a range finds at each address what a reader of that one byte finds. -/
theorem State.readBytes_eq_view (s : State) (pa n : Nat) : s.readBytes pa n = (List.range n).map (fun i => s.view (pa + i)) :=
  List.map_congr_left fun i hi =>
    s.memGet_memNow (linesOf_nodup pa n) (line_mem_linesOf (Nat.le_add_right pa i) (Nat.add_lt_add_left (List.mem_range.1 hi) pa))

theorem State.readBytes_congr {s t : State} (h : ∀ a, t.view a = s.view a) (pa n : Nat) :
    t.readBytes pa n = s.readBytes pa n := by
  simp only [State.readBytes_eq_view, h]

/-! ### Writing a run of bytes -/

/-- A run of bytes leaves its own byte at each of its addresses. -/
theorem storeOver_atOffsets (o : Nat) (l : List Byte) (a : Nat) (old : Byte) :
    storeOver (atOffsets o l) a old = if o ≤ a ∧ a < o + l.length then l.getD (a - o) 0 else old := by
  induction l generalizing o old with
  | nil => rw [if_neg (by simp)]; rfl
  | cons b r ih =>
    rw [atOffsets_cons, storeOver_cons, ih, List.length_cons]
    by_cases hb : o = a
    · subst hb
      simp
    · rw [if_neg hb]
      by_cases h : o + 1 ≤ a ∧ a < o + 1 + r.length
      · rw [if_pos h, if_pos (by omega), show a - o = a - (o + 1) + 1 by omega, List.getD_cons_succ]
      · rw [if_neg h, if_neg (by omega)]

theorem storeOver_idem (l : List (Nat × Byte)) (a : Nat) (old : Byte) :
    storeOver l a (storeOver l a old) = storeOver l a old := by
  unfold storeOver
  cases lastStore l a <;> rfl

/-- Of a list of writes, those of one line leave in that line what all of them leave there, and nothing elsewhere. -/
theorem storeOver_filter_line (l : List (Nat × Byte)) (line a : Nat) (old : Byte) :
    storeOver (l.filter (fun b => b.1 / 256 == line)) a old = if a / 256 = line then storeOver l a old else old := by
  induction l generalizing old with
  | nil => simp [storeOver, lastStore]
  | cons p r ih =>
    rw [List.filter_cons]
    by_cases hp : p.1 / 256 = line
    · rw [if_pos (by simpa using hp), storeOver_cons, storeOver_cons, ih]
      by_cases ha : p.1 = a
      · subst ha; simp [hp]
      · simp [ha]
    · rw [if_neg (by simpa using hp), storeOver_cons, ih]
      by_cases ha : p.1 = a
      · subst ha; simp [hp]
      · simp [ha]

/-- Where a run of bytes was stored, a reader finds them, and elsewhere what was there. -/
theorem State.readBytes_of_stored_run {s t : State} {pa : Nat} {data : List Byte}
    (h : ∀ a, t.view a = storeOver (atOffsets pa data) a (s.view a)) (a : Nat) : t.readBytes a 1 =
      if pa ≤ a ∧ a < pa + data.length then (data.drop (a - pa)).take 1 else s.readBytes a 1 := by
  rw [State.readBytes_one, State.readBytes_one, h, storeOver_atOffsets]
  split
  · next hrun =>
    have hi : a - pa < data.length := by omega
    rw [List.getD_eq_getElem _ _ hi, List.drop_eq_getElem_cons hi, List.take_succ_cons, List.take_zero]
  · rfl

end Sys2Proof.Machine

open Sys2Proof Sys2Proof.Machine

/-- Settles O10: a write of bytes is a sequence of writes of one byte, each of which keeps the canonical form. -/
theorem memoryReadsWhatWasWritten : Obligations.MemoryReadsWhatWasWritten := by
  intro m l a hm
  refine ⟨memSetAll_wf l hm, ?_⟩
  rw [memBytes_one, memBytes_one, memGet_memSetAll, storeOver, lastStore]
  cases l.reverse.find? (fun p => p.1 == a) <;> rfl

end

section
/-! The host ports and the clock advance of pts (R230, R232, R235, R246, R247): snoops, host accesses to module memory, the
tick. -/

namespace Sys2Proof.Machine

/-! ### Stores and reads of a port's agent (R230, R231) -/

theorem State.portStore_view (s : State) (port : Nat) (bytes : List (Nat × Byte)) (a : Nat) :
    (s.portStore port bytes).view a = storeOver bytes a (s.view a) := s.store_view _ bytes a

theorem State.portStore_strands (s : State) (port : Nat) (bytes : List (Nat × Byte)) :
    (s.portStore port bytes).strands = s.strands :=
  (congrArg State.strands (s.store_offMemory (mget s.portPts port 0) bytes) :)

theorem State.portStore_fabric (s : State) (port : Nat) (bytes : List (Nat × Byte)) :
    (s.portStore port bytes).fabric = s.fabric :=
  (congrArg State.fabric (s.store_offMemory (mget s.portPts port 0) bytes) :)

theorem State.portStore_portPts_of_ne (s : State) {port p : Nat} (bytes : List (Nat × Byte)) (h : port ≠ p) :
    mget (s.portStore port bytes).portPts p 0 = mget s.portPts p 0 := by
  have hpts : (s.store (mget s.portPts port 0) bytes).1.portPts = s.portPts :=
    (congrArg State.portPts (s.store_offMemory (mget s.portPts port 0) bytes) :)
  rw [State.portStore, mget_mset, if_neg h, hpts]

/-- A read at a line's home changes no value (R225). -/
theorem State.readHome_view (s : State) (pts : W64) (l a : Nat) : (s.readHome pts l).1.view a = s.view a := by
  refine (State.view_congr (s := s.recall l) (t := (s.readHome pts l).1) rfl (fun k => ?_) rfl a).trans (s.recall_view l a)
  unfold State.readHome State.home
  rw [mget_mset]
  split
  · next h => rw [h]
  · rfl

theorem State.readHomes_view (s : State) (pts : W64) (ls : List Nat) (a : Nat) :
    (s.readHomes pts ls).1.view a = s.view a :=
  foldl_same (fun r : State × W64 => r.1.view a) _ _ _ fun _ _ => State.readHome_view _ _ _ _

theorem State.readHomes_offMemory (s : State) (pts : W64) (ls : List Nat) : (s.readHomes pts ls).1.offMemory = s.offMemory :=
  foldl_same (fun r : State × W64 => r.1.offMemory) _ _ _ fun _ _ => State.readHome_offMemory _ _ _

theorem State.recallAll_offMemory (s : State) (ls : List Nat) : (ls.foldl State.recall s).offMemory = s.offMemory :=
  foldl_same State.offMemory _ _ _ State.recall_offMemory

/-! ### Snoops (R246) -/

/-- The part of a snoop write in one line, stored by the agent of the port where the line's home is. -/
def State.snoopLine (bytes : List (Nat × Byte)) (s : State) (l : Nat) : State :=
  s.portStore (hostPort l) (bytes.filter (fun b => b.1 / 256 == l))

/-- Line by line, a snoop write leaves in its lines what all its bytes leave there. -/
theorem State.snoopLines_view (bytes : List (Nat × Byte)) (ls : List Nat) (s : State) (a : Nat) :
    (ls.foldl (State.snoopLine bytes) s).view a = if a / 256 ∈ ls then storeOver bytes a (s.view a) else s.view a := by
  induction ls generalizing s with
  | nil => rfl
  | cons l r ih =>
    rw [List.foldl_cons, ih, State.snoopLine, State.portStore_view, storeOver_filter_line]
    by_cases hl : a / 256 = l
    · simp [hl, storeOver_idem]
    · simp [hl]

theorem State.snoopLines_portPts (bytes : List (Nat × Byte)) (s : State) {ls : List Nat} {p : Nat} (h : p ∉ ls.map hostPort) :
    mget (ls.foldl (State.snoopLine bytes) s).portPts p 0 = mget s.portPts p 0 :=
  List.foldlRecOn ls _ (motive := fun t : State => mget t.portPts p 0 = mget s.portPts p 0) rfl fun t ht l hl =>
    (t.portStore_portPts_of_ne _ fun he => h (List.mem_map.2 ⟨l, hl, he⟩)).trans ht

/-- A snoop write as the stores of its lines. -/
def State.snooped (s : State) (pa : Nat) (data : List Byte) : State :=
  (linesOf pa data.length).foldl (State.snoopLine (atOffsets pa data)) s

theorem State.snooped_view (s : State) (pa : Nat) (data : List Byte) (a : Nat) :
    (s.snooped pa data).view a = storeOver (atOffsets pa data) a (s.view a) := by
  rw [State.snooped, State.snoopLines_view]
  split
  · rfl
  · next h => rw [storeOver_atOffsets, if_neg fun hrun => h (line_mem_linesOf hrun.1 hrun.2)]

theorem State.snooped_strands (s : State) (pa : Nat) (data : List Byte) : (s.snooped pa data).strands = s.strands :=
  foldl_same State.strands _ _ _ fun t _ => t.portStore_strands _ _

section
variable {s : State} {pa len : Nat} {data : List Byte} (port : Nat)

theorem execHostSnoopWrite_refused (hne : data ≠ []) (h : ¬ (paKind pa = .host ∧ paKind (pa + data.length - 1) = .host)) :
    execHostSnoopWrite port pa data s = .fault .reservedAddress := by
  rw [execHostSnoopWrite, if_neg (by simpa using hne), if_pos (not_and_or.1 h)]

theorem execHostSnoopWrite_stores (hne : data ≠ []) (h : paKind pa = .host ∧ paKind (pa + data.length - 1) = .host) :
    execHostSnoopWrite port pa data s = .next (s.snooped pa data) := by
  rw [execHostSnoopWrite, if_neg (by simpa using hne), if_neg fun hno => not_and_or.2 hno h]
  rfl

theorem execHostSnoopRead_refused (hne : len ≠ 0) (h : ¬ (paKind pa = .host ∧ paKind (pa + len - 1) = .host)) :
    execHostSnoopRead port pa len s = .fault .reservedAddress := by
  rw [execHostSnoopRead, if_neg hne, if_pos (not_and_or.1 h)]

theorem execHostSnoopRead_answers (hne : len ≠ 0) (h : paKind pa = .host ∧ paKind (pa + len - 1) = .host) :
    execHostSnoopRead port pa len s =
      .next (((linesOf pa len).foldl State.recall s).out (.hostData port (s.readBytes pa len))) := by
  rw [execHostSnoopRead, if_neg hne, if_neg fun hno => not_and_or.2 hno h,
    ← State.readBytes_congr (s.recallAll_view (linesOf pa len)) pa len]

/-! ### Accesses to module memory (R247, R338) -/

/-- A write touches a page that a `PGPASS` has closed. -/
theorem any_closedAt_atOffsets (s : State) (pa : Nat) (data : List Byte) :
    (atOffsets pa data).any (fun b => s.closedAt b.1) = true ↔
      ∃ a, pa ≤ a ∧ a < pa + data.length ∧ s.closedAt a = true := by
  rw [List.any_eq_true]
  constructor
  · rintro ⟨b, hb, hc⟩
    exact ⟨b.1, (mem_atOffsets_le hb).1, (mem_atOffsets_le hb).2, hc⟩
  · rintro ⟨a, hlo, hhi, hc⟩
    have hi : a - pa < data.length := by omega
    refine ⟨(pa + (a - pa), data[a - pa]), ?_, by rwa [show pa + (a - pa) = a by omega]⟩
    exact List.mem_map.2 ⟨(data[a - pa], a - pa), List.mem_zipIdx_iff_getElem?.2 (List.getElem?_eq_getElem hi), rfl⟩

theorem execHostMemAccess_refused {wr : Bool} (h : 0x018000000000 < pa + if wr then data.length else len) :
    execHostMemAccess port wr pa len data s = .fault .reservedAddress := by
  have hout : inModule pa (if wr then data.length else len) = false := decide_eq_false (Nat.not_le.2 h)
  rw [execHostMemAccess, hout]
  rfl

section
variable (hin : pa + data.length ≤ 0x018000000000)
include hin

theorem execHostMemAccess_waits (h : ∃ a, pa ≤ a ∧ a < pa + data.length ∧ s.closedAt a = true) :
    execHostMemAccess port true pa len data s =
      .next (s.waitOutside (.hostMemAccess port true pa len data) (ofPort port)) := by
  have hmem : inModule pa data.length = true := decide_eq_true hin
  simp only [execHostMemAccess, if_true, hmem, (any_closedAt_atOffsets s pa data).2 h, Bool.not_true, Bool.false_eq_true,
    if_false, Bool.and_self]

theorem execHostMemAccess_stores (h : ¬ ∃ a, pa ≤ a ∧ a < pa + data.length ∧ s.closedAt a = true) :
    execHostMemAccess port true pa len data s = .next ((s.portStore port (atOffsets pa data)).out (.hostDone port)) := by
  have hmem : inModule pa data.length = true := decide_eq_true hin
  have hopen := Bool.eq_false_iff.2 (mt (any_closedAt_atOffsets s pa data).1 h)
  simp only [execHostMemAccess, if_true, hmem, hopen, Bool.not_true, Bool.false_eq_true, if_false, Bool.and_false]

end

/-- The state after a port's agent has read at the homes of lines. -/
def State.portRead (s : State) (port : Nat) (ls : List Nat) : State :=
  { (s.readHomes (mget s.portPts port 0) ls).1 with
    portPts := mset (s.readHomes (mget s.portPts port 0) ls).1.portPts port (s.readHomes (mget s.portPts port 0) ls).2 }

theorem State.portRead_view (s : State) (port : Nat) (ls : List Nat) (a : Nat) : (s.portRead port ls).view a = s.view a :=
  s.readHomes_view _ ls a

theorem State.portRead_strands (s : State) (port : Nat) (ls : List Nat) : (s.portRead port ls).strands = s.strands :=
  (congrArg State.strands (s.readHomes_offMemory (mget s.portPts port 0) ls) :)

theorem State.portRead_fabric (s : State) (port : Nat) (ls : List Nat) : (s.portRead port ls).fabric = s.fabric :=
  (congrArg State.fabric (s.readHomes_offMemory (mget s.portPts port 0) ls) :)

theorem execHostMemAccess_answers (hin : pa + len ≤ 0x018000000000) : execHostMemAccess port false pa len data s =
    .next ((s.portRead port (if len = 0 then [] else linesOf pa len)).out (.hostData port (s.readBytes pa len))) := by
  have hmem : inModule pa len = true := decide_eq_true hin
  rw [← State.readBytes_congr (s.readHomes_view (mget s.portPts port 0) (if len = 0 then [] else linesOf pa len)) pa len]
  simp only [execHostMemAccess, Bool.false_eq_true, if_false, hmem, Bool.not_true, Bool.false_and]
  rfl

end

/-- What waits outside stands in the inbox, with every other input. -/
theorem State.mem_waitOutside_inbox (s : State) (i : Instr) (same : Instr → Bool) {x : Instr} (h : x ∈ i :: s.inbox) :
    x ∈ (s.waitOutside i same).inbox := by
  rw [State.waitOutside, List.mem_append, List.mem_cons, List.mem_filter, List.mem_filter]
  rcases List.mem_cons.1 h with rfl | hx
  · exact .inr (.inl rfl)
  · cases hsame : same x
    · exact .inl ⟨hx, rfl⟩
    · exact .inr (.inr ⟨hx, rfl⟩)

/-! ### The clock advance of pts (R232) -/

/-- A change of dies changes nothing else. -/
theorem State.modDies_frame (s : State) (f : Die → Die) (ls : List Nat) :
    ∃ d, ls.foldl (fun s l => s.modDie l f) s = { s with dies := d } :=
  foldl_keeps (fun t => ∃ d, t = { s with dies := d }) _ _ _ ⟨s.dies, rfl⟩ (by rintro _ l ⟨d, rfl⟩; exact ⟨_, rfl⟩)

/-- A strand after one tick. -/
def Strand.ticked (st : Strand) : Strand := { st with ctl := { st.ctl with pts := st.ctl.pts + 1 } }

theorem execPtsTick_frame (s : State) : ∃ t, execPtsTick s = .next t ∧ t.mem = s.mem ∧ t.homes = s.homes ∧
    t.frontPts = s.frontPts + 1 ∧ t.fabric.commitPts = s.fabric.commitPts + 1 ∧
    t.strands = s.strands.map (fun p => (p.1, p.2.ticked)) := by
  unfold execPtsTick
  generalize hs1 : ({ s with strands := _, tasks := _, frontPts := _, portPts := _, fabric := _ } : State) = s1
  obtain ⟨d, hd⟩ := s1.modDies_frame (fun x => { x with walkPts := x.walkPts + 1 }) (List.range 8)
  subst hs1
  exact ⟨_, congrArg _ hd, rfl, rfl, rfl, rfl, rfl⟩

theorem State.strand_of_ticked {s t : State} (h : t.strands = s.strands.map (fun p => (p.1, p.2.ticked))) {n : Nat}
    (hn : (mget? s.strands n).isSome = true) : t.strand n = (s.strand n).ticked := by
  obtain ⟨st, hst⟩ := Option.isSome_iff_exists.1 hn
  rw [State.strand, State.strand, h, mget_map_snd, mget_eq_mget?, hst]
  rfl

end Sys2Proof.Machine

open Sys2Proof Sys2Proof.Machine

/-- Settles O56: a snoop line by line, an access to module memory as one store or read of the port's agent, the tick by the
strands' map. -/
theorem hostAndClock : Obligations.HostAndClock := by
  intro s port pa len line data hostRange stores keeps
  refine ⟨?snoopWriteEmpty, execHostSnoopWrite_refused port, fun hne h => ?snoopWrite, fun h => if_pos h,
    execHostSnoopRead_refused port, fun hne h => ?snoopRead, fun hin h => ?memWriteWaits, fun hin h => ?memWrite,
    fun hin => ?memRead, execHostMemAccess_refused port (wr := false), execHostMemAccess_refused port (wr := true), ?tick, rfl⟩
  case snoopWriteEmpty => rintro rfl; rfl
  case snoopWrite =>
    exact ⟨_, execHostSnoopWrite_stores port hne h, State.readBytes_of_stored_run (s.snooped_view pa data),
      s.snooped_strands pa data, fun p hp => s.snoopLines_portPts (atOffsets pa data) hp⟩
  case snoopRead =>
    have hoff := s.recallAll_offMemory (linesOf pa len)
    exact ⟨_, execHostSnoopRead_answers port hne h, fun a => State.readBytes_congr (s.recallAll_view (linesOf pa len)) a 1,
      (congrArg State.strands hoff :), (congrArg (fun t : State => t.fabric.sent ++ _) hoff :)⟩
  case memWriteWaits =>
    exact ⟨_, execHostMemAccess_waits port hin h, fun a => rfl, rfl, s.mem_waitOutside_inbox _ _ List.mem_cons_self,
      fun x hx => s.mem_waitOutside_inbox _ _ (List.mem_cons_of_mem _ hx)⟩
  case memWrite =>
    exact ⟨_, execHostMemAccess_stores port hin h, State.readBytes_of_stored_run (s.portStore_view port (atOffsets pa data)),
      s.portStore_strands port _, congrArg (fun f : Fabric => f.sent ++ _) (s.portStore_fabric port (atOffsets pa data))⟩
  case memRead =>
    exact ⟨_, execHostMemAccess_answers port hin, fun a => State.readBytes_congr (s.portRead_view port _) a 1,
      s.portRead_strands port _, congrArg (fun f : Fabric => f.sent ++ _) (s.portRead_fabric port _)⟩
  case tick =>
    obtain ⟨t, ht, hmem, hhomes, hfront, hcommit, hstrands⟩ := execPtsTick_frame s
    refine ⟨t, ht, hmem, hhomes, hfront, hcommit, fun n hn => ?_⟩
    rw [State.pts, State.strand_of_ticked hstrands hn]
    exact ⟨rfl, rfl⟩

end

section
/-! Fences and `STA` (R111, R243, R249, R274, R350): their issue, and what `FENCE_RESOLVE` makes of the oldest one. -/

namespace Sys2Proof.Machine

/-! ### Issue of a fence (R111, R274) -/

/-- An operation without a destination opens with its entry alone. -/
theorem State.openOp_of_no_dest {s : State} {i : Instr} {st : Strand} (n slot : Nat) (c : Cap) (r : Bool) (l : List Rd)
    (hslot : slot ≠ 2) (hd : destsOf st i = []) : s.openOp n slot i st c r l =
      s.newId.2.setStrand n { st with open_ := st.open_ ++ [mkEntry s.newId.2 st slot s.newId.1 i c r l] } := by
  have hdests : (mkEntry s.newId.2 st slot s.newId.1 i c r l).dests = [] := hd
  unfold State.openOp
  dsimp only
  rw [if_neg hslot, hdests]
  rfl

/-- `FENCE.O`, `FENCE.P`, `FENCE.H`, `FENCE.E`. -/
def IsFence (i : Instr) : Prop := (∃ v, i = .fenceO v) ∨ i = .fenceP ∨ i = .fenceH ∨ i = .fenceE

theorem IsFence.exec_eq {i : Instr} (h : IsFence i) (s : State) : exec i s = s.issueFence i := by
  rcases h with ⟨v, rfl⟩ | rfl | rfl | rfl <;> rfl

theorem IsFence.no_dests {i : Instr} (h : IsFence i) (st : Strand) : destsOf st i = [] := by
  rcases h with ⟨v, rfl⟩ | rfl | rfl | rfl <;> rfl

theorem State.issueFence_waits {s : State} {i : Instr} (h : s.me.slipped s.ctxOf.seq = true) :
    s.issueFence i = .next (s.stall s.cur) := by
  rw [State.issueFence, h]
  rfl

theorem State.issueFence_opens {s : State} {i : Instr} (h : s.me.slipped s.ctxOf.seq = false) (ho : s.me.openFull i = false) :
    s.issueFence i = .next (s.openOp s.cur 0 i s.me {} false []) := by
  rw [State.issueFence, h, ho]
  rfl

/-! ### The end of an operation that delivers nothing -/

theorem Strand.remember_open (st : Strand) (e : Entry) (vals : List DVal) (fl : LaneFlags) :
    (st.remember e vals fl).open_ = st.open_ := by
  unfold Strand.remember
  split <;> rfl

theorem Strand.remember_wq (st : Strand) (e : Entry) (vals : List DVal) (fl : LaneFlags) :
    (st.remember e vals fl).wq = st.wq := by
  unfold Strand.remember
  split <;> rfl

/-- An operation that completes with no values is dropped and remembered with its flags. -/
theorem State.completeEntry_nil_strand (s : State) (n : Nat) (e : Entry) (fl : LaneFlags) :
    (s.completeEntry n e [] fl).strand n = ((s.strand n).dropped e.id).remember e [] (fl ||| e.fl) := by
  have hwbs : entryWbs e [] = [] := by rw [entryWbs, List.zip_nil_right]; rfl
  rw [State.completeEntry, hwbs, State.releaseBanks_strand, State.strand_modStrand, if_pos rfl, List.foldl_nil,
    State.dropEntry_strand, if_pos rfl]

theorem State.completeEntry_nil_open (s : State) (n : Nat) (e : Entry) (fl : LaneFlags) :
    ((s.completeEntry n e [] fl).strand n).open_ = (s.strand n).open_.filter (fun x => x.id != e.id) := by
  rw [State.completeEntry_nil_strand, Strand.remember_open]
  rfl

theorem State.completeEntry_nil_wq (s : State) (n : Nat) (e : Entry) (fl : LaneFlags) :
    ((s.completeEntry n e [] fl).strand n).wq = (s.strand n).wq := by
  rw [State.completeEntry_nil_strand, Strand.remember_wq]
  rfl

/-! ### The checks of `STA` (R252, R274) -/

/-- The state but for what a translation may change: the cores' and wings' TLBs and miss tables. -/
def State.offTlbs (s : State) : State := { s with cores := [], wings := [] }

theorem State.xlateMiss_offTlbs (s : State) (sp : Space) (w : Nat) (va : W64) (d : Bool) :
    (s.xlateMiss sp w va d).1.offTlbs = s.offTlbs := by
  unfold State.xlateMiss
  dsimp only
  split <;> rfl

theorem State.xlateUse_offTlbs (s : State) (sp : Space) (w : Nat) (t : Tlb) (va : W64) (acc : Acc) :
    (s.xlateUse sp w t va acc).1.offTlbs = s.offTlbs := by
  unfold State.xlateUse
  split
  · rfl
  · split
    · rfl
    · split
      · exact s.xlateMiss_offTlbs sp w va true
      · rfl

theorem State.xlate_offTlbs (s : State) (n : Nat) (va : W64) (acc : Acc) : (s.xlate n va acc).1.offTlbs = s.offTlbs := by
  unfold State.xlate
  split
  · rfl
  · dsimp only
    split
    · rfl
    · split
      · exact s.xlateUse_offTlbs _ _ _ _ _
      · split
        · exact (State.xlateUse_offTlbs _ _ _ _ _ _).trans rfl
        · exact s.xlateMiss_offTlbs _ _ _ _

theorem Plan.fail_st (p : Plan) (t : Trap) : (p.fail t).st = p.st := by
  unfold Plan.fail
  split
  · rfl
  · split <;> rfl

theorem Plan.poison_st (p : Plan) (tagged : Bool) (k : Nat) (va : W64) : (p.poison tagged k va).st = p.st := by
  unfold Plan.poison
  split
  · exact p.fail_st _
  · rfl

/-- The check of an access translates, and changes nothing else. -/
theorem Plan.access_offTlbs (p : Plan) (n slot : Nat) (acc : Acc) (va : W64) (len : Nat) :
    (p.access n slot acc va len).st.offTlbs = p.st.offTlbs := by
  rw [← p.st.xlate_offTlbs n va acc]
  unfold Plan.access
  dsimp only
  split
  · rfl
  · rw [Plan.fail_st]
  · split
    · rw [Plan.fail_st]
    · rfl

theorem planSta_offTlbs (i : Instr) (n slot : Nat) (x : AIn) (s : State) : (planSta i n slot x s).st.offTlbs = s.offTlbs := by
  rw [planSta, Plan.access_offTlbs, Plan.poison_st, Plan.poison_st]

/-- Asking windows for their allowance changes neither strands nor memory. -/
theorem State.askAll_frame (s : State) (who : Waiter) (ws : List (Nat × Nat)) :
    (s.askAll who ws).1.strands = s.strands ∧ (s.askAll who ws).1.mem = s.mem := by
  refine foldl_keeps (fun r : State × Bool => r.1.strands = s.strands ∧ r.1.mem = s.mem) _ _ _ ⟨rfl, rfl⟩ fun r w hr => ?_
  obtain ⟨q, hq⟩ := r.1.askAllow_frame w.1 who w.2
  dsimp only
  rw [hq]
  exact hr

/-- The bytes of a 64-bit value at consecutive addresses. -/
theorem zipIdx_leBytes (v ea : W64) : (leBytes 8 v.toNat).zipIdx.map (fun b => (ea + BitVec.ofNat 64 b.2, b.1)) =
    (List.range 8).map (fun k => (ea + BitVec.ofNat 64 k, v.extractLsb' (8 * k) 8)) := rfl

/-- The checks that an `STA` makes again once its wait has ended (R274, R339). -/
def State.staPlan (s : State) (n : Nat) (e : Entry) : Plan := planSta e.instr n 0 e.ain (s.clearPosted n e.id)

/-- The pieces of the 8 bytes of an `STA`. -/
def staPieces (e : Entry) (rds : List Rd) : List Piece :=
  piecesOf rds ((List.range 8).map (fun k => (staEa e.instr e.ain + BitVec.ofNat 64 k, e.ain.zv.v.extractLsb' (8 * k) 8)))

/-- What an `STA` asks of the windows it touches once its checks are `c` (R352). -/
def staAsk (c : Plan) (n : Nat) (e : Entry) : State × Bool :=
  c.st.askAll (.op n e.id) (windowsOf ((staPieces e c.rds).map Piece.tgt))

/-- What becomes of an `STA` whose wait has ended and whose checks are `c` (R274). -/
def staGo (c : Plan) (n : Nat) (e : Entry) : Result :=
  match c.verdict with
  | some t => .next (c.st.trapEntry n e t)
  | none =>
    if c.miss then .next c.st
    else if (staAsk c n e).2 then
      .next (((staAsk c n e).1.completeEntry n e [] 0).queueWrite n e.id e.seq e.slot e.pc e.instr e.ain (staEa e.instr e.ain)
        (staPieces e c.rds) 0)
    else .next (staAsk c n e).1

section
variable {c : Plan} {n : Nat} {e : Entry}

theorem staGo_of_verdict {t : Trap} (hv : c.verdict = some t) : staGo c n e = .next (c.st.trapEntry n e t) := by
  simp only [staGo, hv]

variable (hv : c.verdict = none)
include hv

theorem staGo_of_miss (hmiss : c.miss = true) : staGo c n e = .next c.st := by
  simp only [staGo, hv, hmiss, if_true]

theorem staGo_queues (hmiss : c.miss = false) {s2 : State} (hask : staAsk c n e = (s2, true)) : staGo c n e =
    .next ((s2.completeEntry n e [] 0).queueWrite n e.id e.seq e.slot e.pc e.instr e.ain (staEa e.instr e.ain)
      (staPieces e c.rds) 0) := by
  simp only [staGo, hv, hmiss, hask, Bool.false_eq_true, if_false, if_true]

end

/-! ### `FENCE_RESOLVE` (R249, R274, R350) -/

section
variable {s : State} {n : Nat} {e : Entry} (ho : (s.strand n).oldestFence = some e)
include ho

theorem execFenceResolve_early (hm : (s.strand n).mayPerform e = false) : execFenceResolve n s = .next s := by
  simp only [execFenceResolve, ho, hm, Bool.not_false, if_true]

variable (hm : (s.strand n).mayPerform e = true)
include hm

theorem execFenceResolve_fenceO {v : BitVec 3} (hi : e.instr = .fenceO v) :
    execFenceResolve n s = .next (s.completeEntry n e [] 0) := by
  simp only [execFenceResolve, ho, hm, hi, Bool.not_true, Bool.false_eq_true, if_false]

theorem execFenceResolve_fenceH (hi : e.instr = .fenceH) :
    execFenceResolve n s = .next (if (s.strand n).postedSeen e then s.completeEntry n e [] 0 else s) := by
  simp only [execFenceResolve, ho, hm, hi, Bool.not_true, Bool.false_eq_true, if_false]
  split <;> rfl

theorem execFenceResolve_fenceE_waits (hi : e.instr = .fenceE) (ht : s.tasksDone n = false) :
    execFenceResolve n s = .next s := by
  simp only [execFenceResolve, ho, hm, hi, ht, Bool.not_true, Bool.false_eq_true, if_false]

theorem execFenceResolve_fenceE (hi : e.instr = .fenceE) (ht : s.tasksDone n = true) : execFenceResolve n s = .next
    ((s.setPts n ((s.strand n).tcs.foldl (fun p c => wmax p c.2.pts) (s.pts n))).completeEntry n e [] 0) := by
  simp only [execFenceResolve, ho, hm, hi, ht, Bool.not_true, Bool.false_eq_true, if_false, if_true]

section
variable (hi : e.instr = .fenceP)
include hi

theorem execFenceResolve_fenceP_waits (hr : (s.strand n).fencePReady e = false) : execFenceResolve n s = .next s := by
  simp only [execFenceResolve, ho, hm, hi, hr, Bool.not_true, Bool.not_false, Bool.false_eq_true, if_false, if_true]

variable (hr : (s.strand n).fencePReady e = true)
include hr

theorem execFenceResolve_fenceP (hp : (s.strand n).refusedBefore e = none) :
    execFenceResolve n s = .next ((s.clearPosted n e.id).completeEntry n e [] 0) := by
  simp only [execFenceResolve, ho, hm, hi, hr, hp, Bool.not_true, Bool.false_eq_true, if_false]

theorem execFenceResolve_fenceP_refused {q : Posted} (hp : (s.strand n).refusedBefore e = some q) : execFenceResolve n s =
    .next ((s.clearPosted n e.id).trapEntry n e { cause := .peer, sub := peerRefused, eaddr := q.va }) := by
  simp only [execFenceResolve, ho, hm, hi, hr, hp, Bool.not_true, Bool.false_eq_true, if_false]

end

section
variable {d a : BitVec 6} {p : Bool} {im : BitVec 12} (hi : e.instr = .sta d a p im)
include hi

theorem execFenceResolve_sta_waits (h : e.rds = [] ∨ (s.strand n).fencePReady e = false) : execFenceResolve n s = .next s := by
  have hwait : e.rds.isEmpty = true ∨ (!(s.strand n).fencePReady e) = true := by simpa using h
  simp only [execFenceResolve, ho, hm, hi, Bool.not_true, Bool.false_eq_true, if_false, if_pos hwait]

variable (hrds : e.rds ≠ []) (hr : (s.strand n).fencePReady e = true)
include hrds hr

theorem execFenceResolve_sta_refused {q : Posted} (hp : (s.strand n).refusedBefore e = some q) : execFenceResolve n s =
    .next ((s.clearPosted n e.id).trapEntry n e { cause := .peer, sub := peerRefused, eaddr := q.va }) := by
  have hgo : ¬ (e.rds.isEmpty = true ∨ (!(s.strand n).fencePReady e) = true) := by simp [hrds, hr]
  simp only [execFenceResolve, ho, hm, hi, hp, Bool.not_true, Bool.false_eq_true, if_false, if_neg hgo]

theorem execFenceResolve_sta (hp : (s.strand n).refusedBefore e = none) :
    execFenceResolve n s = staGo (s.staPlan n e) n e := by
  have hgo : ¬ (e.rds.isEmpty = true ∨ (!(s.strand n).fencePReady e) = true) := by simp [hrds, hr]
  simp only [execFenceResolve, ho, hm, hi, hp, Bool.not_true, Bool.false_eq_true, if_false, if_neg hgo, staGo, staAsk,
    State.staPlan, staPieces, zipIdx_leBytes] <;> rfl

end

end

/-- The checks of an `STA` leave the strand's write queue as it was, and so does what it asks of windows. -/
theorem State.staAsk_frame (s : State) (n : Nat) (e : Entry) : ((staAsk (s.staPlan n e) n e).1.strand n).wq = (s.strand n).wq ∧
    (staAsk (s.staPlan n e) n e).1.mem = s.mem := by
  have hplan := planSta_offTlbs e.instr n 0 e.ain (s.clearPosted n e.id)
  obtain ⟨hstrands, hmem⟩ := (s.staPlan n e).st.askAll_frame (.op n e.id)
    (windowsOf ((staPieces e (s.staPlan n e).rds).map Piece.tgt))
  have hclear : ((s.clearPosted n e.id).strand n).wq = (s.strand n).wq :=
    s.modStrand_same Strand.wq n n (fun st => { st with posted := st.posted.filter (fun p => !decide (p.id < e.id)) })
      fun _ => rfl
  refine ⟨?_, hmem.trans (congrArg State.mem hplan :)⟩
  rw [← hclear, State.strand, staAsk, hstrands]
  exact (congrArg (fun t : State => (t.strand n).wq) hplan :)

/-- A write enters the queue behind those that wait there, and nothing else of its strand changes. -/
theorem State.queueWrite_strand (s : State) (n id seq slot : Nat) (pc : W64) (i : Instr) (x : AIn) (va : W64)
    (pieces : List Piece) (fl : LaneFlags) : ∃ w, (s.queueWrite n id seq slot pc i x va pieces fl).strand n =
      { s.strand n with wq := (s.strand n).wq ++ [w] } ∧ w.pieces = pieces ∧ w.va = va ∧ w.seq = seq :=
  ⟨_, by rw [State.queueWrite, State.strand_modStrand, if_pos rfl], rfl, rfl, rfl⟩

end Sys2Proof.Machine

open Sys2Proof Sys2Proof.Machine

/-- Settles O38: each fence by the one wait that Table 10-7 gives it, `STA` by its checks after that of `FENCE.P`. -/
theorem fences : Obligations.Fences := by
  refine ⟨fun s i hi => ⟨fun hs => (IsFence.exec_eq hi s).trans (State.issueFence_waits hs), fun hs ho => ?issue⟩,
    fun s n e ho => ⟨execFenceResolve_early ho, fun hm => ⟨?fenceO, execFenceResolve_fenceH ho hm,
      execFenceResolve_fenceE_waits ho hm, fun hi ht => ?fenceE, execFenceResolve_fenceP_waits ho hm,
      execFenceResolve_fenceP ho hm, ?refused, ?sta⟩⟩⟩
  case issue =>
    have hopen := State.openOp_of_no_dest (s := s) s.cur 0 {} false [] (by decide) (IsFence.no_dests hi s.me)
    refine ⟨_, mkEntry s.newId.2 s.me 0 s.newId.1 i {} false [],
      (IsFence.exec_eq hi s).trans ((State.issueFence_opens hs ho).trans (congrArg _ hopen)), ?_, rfl, rfl, rfl, rfl,
      rfl, ?_⟩
    · rw [State.strand_setStrand, if_pos rfl]
    · rw [State.strand_setStrand, if_pos rfl]
  case fenceO =>
    rintro ⟨v, hi⟩
    exact execFenceResolve_fenceO ho hm hi
  case fenceE =>
    refine ⟨_, execFenceResolve_fenceE ho hm hi ht, ?_, State.completeEntry_mem ..⟩
    rw [State.completeEntry_nil_open, State.setPts, State.strand_modStrand, if_pos rfl]
  case refused =>
    rintro q (hi | ⟨⟨d, a, p, im, hi⟩, hrds⟩) hr hp
    · exact execFenceResolve_fenceP_refused ho hm hi hr hp
    · exact execFenceResolve_sta_refused ho hm hi hrds hr hp
  case sta =>
    intro d a p im hi x c ea pieces
    refine ⟨execFenceResolve_sta_waits ho hm hi, fun hrds hr hp => ?_⟩
    have hgo : exec (.fenceResolve n) s = staGo c n e := execFenceResolve_sta ho hm hi hrds hr hp
    have hea : staEa e.instr x = ea := by rw [hi]; rfl
    have hpieces : staPieces e c.rds = pieces := by rw [staPieces, hea]
    refine ⟨fun t hv => hgo.trans (staGo_of_verdict hv), fun hv hmiss => hgo.trans (staGo_of_miss hv hmiss),
      fun s2 hv hmiss hask => ?_⟩
    have hsta : staAsk c n e = (s2, true) := by rw [staAsk, hpieces, hask]
    obtain ⟨hwq, hmem⟩ := s.staAsk_frame n e
    rw [show staAsk (s.staPlan n e) n e = (s2, true) from hsta] at hwq hmem
    obtain ⟨w, hw, hwpieces, hwva, hwseq⟩ := (s2.completeEntry n e [] 0).queueWrite_strand n e.id e.seq e.slot e.pc e.instr x
      (staEa e.instr x) (staPieces e c.rds) 0
    refine ⟨_, w, hgo.trans (staGo_queues hv hmiss hsta), ?_, hwpieces.trans hpieces, hwva.trans hea, hwseq,
      (State.completeEntry_mem ..).trans hmem, ?_⟩
    · rw [hw, State.completeEntry_nil_wq, hwq]
    · rw [State.entry?, hw, State.completeEntry_nil_open]
      exact Strand.find?_dropped (s2.strand n) e.id

end

section
/-! The end of an open operation (R51, R75, R127, R252): what delivering its results and dropping it leave of its strand, and of
everything else. -/

namespace Sys2Proof.Machine

/-! ### Everything but the strands and the cores -/

/-- The state but for its strands and its cores. -/
def State.offUnits (s : State) : State := { s with strands := [], cores := [] }

@[simp] theorem State.modCore_offUnits (s : State) (c : Nat) (f : Core → Core) : (s.modCore c f).offUnits = s.offUnits := rfl

theorem State.view_of_offUnits {s t : State} (h : t.offUnits = s.offUnits) (a : Nat) : t.view a = s.view a :=
  (congrArg (fun u : State => u.view a) h :)

@[simp] theorem State.releaseBanks_offUnits (s : State) (c : Nat) (l : List (Nat × Nat)) :
    (s.releaseBanks c l).offUnits = s.offUnits := foldl_same State.offUnits _ _ _ fun _ _ => rfl

@[simp] theorem State.deliver_offUnits (s : State) (n id seq : Nat) (w : WB) : (s.deliver n id seq w).offUnits = s.offUnits := by
  cases w <;> rfl

/-! ### Delivering results (R127) -/

/-- The state once the results of an entry are delivered. -/
def State.delivered (s : State) (n : Nat) (e : Entry) (vals : List DVal) : State :=
  (entryWbs e vals).foldl (fun s w => s.deliver n e.id e.seq w) s

@[simp] theorem State.delivered_offUnits (s : State) (n : Nat) (e : Entry) (vals : List DVal) :
    (s.delivered n e vals).offUnits = s.offUnits := foldl_same State.offUnits _ _ _ fun _ _ => State.deliver_offUnits ..

/-- What neither the registers nor the pushes through links hold, a delivery leaves as it is. -/
theorem State.delivered_same {β : Type} (p : Strand → β) (s : State) (n m : Nat) (e : Entry) (vals : List DVal)
    (hp : ∀ (st : Strand) r l, p { st with regs := r, linkPend := l } = p st) :
    p ((s.delivered n e vals).strand m) = p (s.strand m) := by
  refine foldl_same (fun t : State => p (t.strand m)) _ _ _ fun t w => ?_
  cases w with
  | lk r q k x => exact t.modStrand_same p n m _ fun st => hp st st.regs _
  | _ => exact t.modRegs_same p n m _ fun st r => hp st r st.linkPend

/-- A scalar result for a plain register is written there. -/
theorem State.delivered_scalar {e : Entry} {d : Nat} (s : State) (n : Nat) (v : SV) (hd : e.dests = [.s d]) (h : 24 ≤ d) :
    s.delivered n e [.s v] = s.modRegs n (fun g => g.setSP d v) := by
  have hwbs : entryWbs e [.s v] = [.s d v] := by rw [entryWbs, hd]; rfl
  rw [State.delivered, hwbs]
  simp only [List.foldl_cons, List.foldl_nil, State.deliver, if_neg (Nat.not_lt.2 h)]

/-- A vector result for a plain register is written there in the active lanes. -/
theorem State.delivered_vector {e : Entry} {d : Nat} (s : State) (n : Nat) (v : VV) (hd : e.dests = [.v d]) (h : 24 ≤ d) :
    s.delivered n e [.v v] = s.modRegs n (fun g => g.setVP d (VV.merge (actOf e.instr e.pred) v (g.vP d))) := by
  have hwbs : entryWbs e [.v v] = [.v d v (actOf e.instr e.pred)] := by rw [entryWbs, hd]; rfl
  rw [State.delivered, hwbs]
  simp only [List.foldl_cons, List.foldl_nil, State.deliver, if_neg (Nat.not_lt.2 h)]

/-! ### Dropping the entry (R51, R54, R364) -/

/-- Recording a completed operation changes what is remembered and the flags alone. -/
theorem Strand.remember_same {β : Type} (p : Strand → β) (hpast : ∀ (st : Strand) l, p { st with past := l } = p st)
    (hctl : ∀ (st : Strand) c, p { st with ctl := c } = p st) (st : Strand) (e : Entry) (vals : List DVal) (fl : LaneFlags) :
    p (st.remember e vals fl) = p st := by
  unfold Strand.remember
  split
  · exact hpast _ _
  · exact hctl _ _

/-- Where no earlier slot is left that could trap or read the flags, they are recorded at once. -/
theorem Strand.remember_of_not_slipped {st : Strand} {e : Entry} (h : st.slipped e.seq = false) (vals : List DVal) (fl : LaneFlags) :
    st.remember e vals fl = { st with ctl := { st.ctl with flags := st.ctl.flags ||| fl } } := by
  rw [Strand.remember, if_neg (by simp [h])]

theorem State.completeEntry_strand (s : State) (n m : Nat) (e : Entry) (vals : List DVal) (fl : LaneFlags) :
    (s.completeEntry n e vals fl).strand m =
      if n = m then (((s.delivered n e vals).strand n).dropped e.id).remember e vals (fl ||| e.fl)
      else (s.delivered n e vals).strand m := by
  rw [State.completeEntry, State.releaseBanks_strand, State.strand_modStrand, State.dropEntry_strand, State.dropEntry_strand,
    if_pos rfl]
  split <;> rfl

@[simp] theorem State.completeEntry_offUnits (s : State) (n : Nat) (e : Entry) (vals : List DVal) (fl : LaneFlags) :
    (s.completeEntry n e vals fl).offUnits = s.offUnits := by
  rw [State.completeEntry, State.releaseBanks_offUnits]
  exact s.delivered_offUnits n e vals

/-- A completed operation is open no more. -/
theorem State.completeEntry_entry? (s : State) (n : Nat) (e : Entry) (vals : List DVal) (fl : LaneFlags) :
    (s.completeEntry n e vals fl).entry? n e.id = none := by
  rw [State.entry?, State.completeEntry_strand, if_pos rfl, Strand.remember_open]
  exact Strand.find?_dropped _ _

theorem State.completeEntry_regs (s : State) (n : Nat) (e : Entry) (vals : List DVal) (fl : LaneFlags) :
    ((s.completeEntry n e vals fl).strand n).regs = ((s.delivered n e vals).strand n).regs := by
  rw [State.completeEntry_strand, if_pos rfl]
  exact Strand.remember_same Strand.regs (fun _ _ => rfl) (fun _ _ => rfl) _ e vals _

theorem State.completeEntry_spill (s : State) (n : Nat) (e : Entry) (vals : List DVal) (fl : LaneFlags) :
    ((s.completeEntry n e vals fl).strand n).spill = (s.strand n).spill := by
  rw [State.completeEntry_strand, if_pos rfl]
  exact (Strand.remember_same Strand.spill (fun _ _ => rfl) (fun _ _ => rfl) _ e vals _).trans
    (s.delivered_same Strand.spill n n e vals fun _ _ _ => rfl)

/-- An operation that completes at slip zero ORs its flags in. -/
theorem State.completeEntry_flags {s : State} {n : Nat} {e : Entry} (h : (s.strand n).slipped e.seq = false) (vals : List DVal)
    (fl : LaneFlags) : ((s.completeEntry n e vals fl).strand n).ctl.flags = (s.strand n).ctl.flags ||| (fl ||| e.fl) := by
  have hslip : (((s.delivered n e vals).strand n).dropped e.id).slipped e.seq = false :=
    (s.delivered_same (fun st => st.slipped e.seq) n n e vals fun _ _ _ => rfl).trans h
  rw [State.completeEntry_strand, if_pos rfl, Strand.remember_of_not_slipped hslip]
  exact congrArg (· ||| (fl ||| e.fl)) (s.delivered_same (fun st => st.ctl.flags) n n e vals fun _ _ _ => rfl)

/-- An entry that may perform stands behind no earlier slot that could still trap. -/
theorem Strand.not_slipped_of_mayPerform {st : Strand} {e : Entry} (h : st.mayPerform e = true) : st.slipped e.seq = false := by
  simp only [Strand.mayPerform, Bool.and_eq_true, Bool.not_eq_true'] at h
  exact h.1

end Sys2Proof.Machine
end

section
/-! Atomics of memory (R236, R272): the word that an atomic writes, and the one access in which it performs. -/

namespace Sys2Proof.Machine

/-! ### The word written (R272) -/

/-- The word that atomic operation `o` writes over `old` with operand `b`; none where `CAS` fails. -/
def atomicWord (o : Nat) (old b expected : W64) : Option W64 :=
  match o with
  | 0 => some (BitVec.ofNat 64 (old.toNat + b.toNat))
  | 1 => some (old &&& b)
  | 2 => some (old ||| b)
  | 3 => some (old ^^^ b)
  | 4 => some (BitVec.ofInt 64 (min old.toInt b.toInt))
  | 5 => some (BitVec.ofInt 64 (max old.toInt b.toInt))
  | 6 => some (BitVec.ofNat 64 (min old.toNat b.toNat))
  | 7 => some (BitVec.ofNat 64 (max old.toNat b.toNat))
  | 8 => some b
  | 9 => some ((fAdd (old.setWidth 32) (b.setWidth 32)).1.setWidth 64)
  | _ => if old = expected then some b else none

theorem amoNew_word (old b expected : W64) : ∀ o, (amoNew o old b expected).1 = atomicWord o old b expected
  | 0 => congrArg some (BitVec.eq_of_toNat_eq (by simp))
  | 1 | 2 | 3 | 8 | 9 | _ + 10 => rfl
  | 4 => congrArg some (lesser_eq_min old b)
  | 5 => congrArg some (greater_eq_max old b)
  | 6 => congrArg some (lesser_eq_minu old b)
  | 7 => congrArg some (greater_eq_maxu old b)

theorem amoNew_flags (o : Nat) (old b expected : W64) :
    (amoNew o old b expected).2 = if o = 9 then (fAdd (old.setWidth 32) (b.setWidth 32)).2 else 0 := by
  unfold amoNew
  split
  case h_10 => rfl
  case h_11 h => exact (if_neg h).symm
  all_goals rfl

/-- Byte `k` of a word. -/
theorem leBytes_byte {w k : Nat} (v : W64) (h : k < w) : ((leBytes w v.toNat).drop k).take 1 = [v.extractLsb' (8 * k) 8] := by
  have hk : k < (leBytes w v.toNat).length := by simpa [leBytes] using h
  rw [List.drop_eq_getElem_cons hk, List.take_succ_cons, List.take_zero]
  simp [leBytes, BitVec.extractLsb']

/-! ### The access (R231, R236) -/

/-- What an atomic at its home makes of memory, and nothing else changes. -/
theorem State.atomicAt_frame (s : State) (pts : W64) (op pa w : Nat) (b expected : W64) :
    (s.atomicAt pts op pa w b expected).1.offMemory = s.offMemory ∧
      ∀ a, (s.atomicAt pts op pa w b expected).1.view a =
        (amoNew op (BitVec.ofNat 64 (leNat (s.readBytes pa w))) b expected).1.elim (s.view a)
          (fun v => storeOver (atOffsets pa (leBytes w v.toNat)) a (s.view a)) := by
  unfold State.atomicAt
  dsimp only
  split
  next v hv =>
    rw [hv]
    exact ⟨s.store_offMemory _ _, fun a => s.store_view _ _ a⟩
  next hv =>
    rw [hv]
    exact ⟨s.readHome_offMemory _ _, fun a => s.readHome_view _ _ a⟩

/-- What an atomic at its home finds, and the flags it raises. -/
theorem State.atomicAt_found (s : State) (pts : W64) (op pa w : Nat) (b expected : W64) :
    (s.atomicAt pts op pa w b expected).2.2 = (BitVec.ofNat 64 (leNat (s.readBytes pa w)), s.marked (pa / 256),
      (amoNew op (BitVec.ofNat 64 (leNat (s.readBytes pa w))) b expected).2) := by
  unfold State.atomicAt
  dsimp only
  split <;> rfl

/-! ### `AMO` and `CAS` at their place (R237, R272) -/

/-- The entry is an atomic of operation `o` with use code `u`: `AMO`, or `CAS` as operation 10. -/
inductive IsAtomic : Instr → Nat → Nat → Prop
  | amo (d a b : BitVec 6) (o : BitVec 4) (u : BitVec 3) : IsAtomic (.amo d a b o u) o.toNat u.toNat
  | cas (d a b : BitVec 6) (u : BitVec 3) : IsAtomic (.cas d a b u) 10 u.toNat

section
variable {i : Instr} {o u : Nat} (h : IsAtomic i o u)
include h

theorem IsAtomic.op : amoOp i = o := by cases h <;> rfl

theorem IsAtomic.use : amoUse i = u := by cases h <;> rfl

/-- `FADD` takes a word of 4 bytes, every other atomic one of 8. -/
theorem IsAtomic.width (x : AIn) : (amoPlace i x).1 = if o = 9 then 4 else 8 := by
  cases h with
  | cas d a b u => rfl
  | amo d a b o u =>
    have ho : o = 9 ↔ o.toNat = 9 := BitVec.toNat_inj.symm
    exact (apply_ite Prod.fst _ _ _).trans (if_congr ho rfl rfl)

end

/-- An open operation goes on when nothing has returned for it from outside. -/
theorem exec_loadReturn_of_entry {s : State} {n : Nat} {e : Entry} (h : s.entry? n e.id = some e) :
    exec (.loadReturn n e.id [] false) s = .next (s.stepA n e) := by
  show execLoadReturn n e.id [] false s = _
  simp only [execLoadReturn, h, List.isEmpty_nil, Bool.not_false, Bool.and_self, if_true]

theorem State.stepA_atomic {s : State} {n o u : Nat} {e : Entry} (h : IsAtomic e.instr o u) (hslip : e.slip = false)
    (hblocked : (s.strand n).blockedEntry e = false) (hmay : (s.strand n).mayPerform e = true) (hclk : e.clk + 4 ≤ s.clk) :
    s.stepA n e = s.amoPerform n e := by
  unfold State.stepA
  generalize e.instr = i at h
  cases h <;> simp [hslip, hblocked, hmay, hclk, isLoadOp]

theorem State.logLine_of_unlogged {s : State} {n : Nat} (h : s.Unlogged n) {b : Bound} (hb : (s.strand n).bound = some b)
    (die line : Nat) : s.logLine b.lid die line = s := by
  unfold State.logLine
  split
  · rfl
  · next l hl => rw [if_pos (by simp [h b l hb hl])]

/-- The one access of an atomic of memory at its place. -/
def State.atomicOf (s : State) (n pa : Nat) (e : Entry) : State × W64 × W64 × Bool × Nat :=
  s.atomicAt (s.pts n) (amoOp e.instr) pa (amoPlace e.instr e.ain).1 e.ain.bv e.ain.zv.v

/-- The value that an atomic of memory delivers, with its tag: that found at the home, or with the use code that needs no order
that of a leased copy (R239). -/
def State.atomicGot (s : State) (n pa : Nat) (e : Entry) : W64 × Bool :=
  (if amoUse e.instr = 3 then s.norCopy n pa (amoPlace e.instr e.ain).1 else none).getD
    ((s.atomicOf n pa e).2.2.1, (s.atomicOf n pa e).2.2.2.1)

theorem State.amoPerform_of_mem {s : State} {n pa : Nat} {e : Entry} {r : Rd} {l : List Rd} (hu : s.Unlogged n)
    (hrds : e.rds = r :: l) (ht : r.tgt = .mem pa) : s.amoPerform n e =
      ((s.atomicOf n pa e).1.setPts n (s.atomicOf n pa e).2.1).completeEntry n e
        [.s ⟨(s.atomicGot n pa e).1, (s.atomicGot n pa e).2⟩]
        (lane0Flags (withPs (s.atomicGot n pa e).2 (s.atomicOf n pa e).2.2.2.2)) := by
  unfold State.amoPerform
  cases hb : (s.strand n).bound with
  | none => simp only [hrds, ht]; rfl
  | some b => simp only [hrds, ht, State.logLine_of_unlogged hu hb]; rfl

end Sys2Proof.Machine

open Sys2Proof Sys2Proof.Machine

/-- Settles O36: the atomic's one access gives the old word and writes the new one, and its end delivers the old. -/
theorem atomicPerforms : Obligations.AtomicPerforms := by
  intro s n pa d o u e ea w0 w1 hatomic he hslip hblocked hmay hclk hd hd24 hcaps w hrds hlog old b sum new got
  have hi : IsAtomic e.instr o u := by
    rcases hatomic with ⟨dd, a, b, oo, uu, hi, rfl, rfl, -⟩ | ⟨dd, a, b, uu, hi, rfl, rfl⟩
    · rw [hi]; exact .amo ..
    · rw [hi]; exact .cas ..
  have hw : (amoPlace e.instr e.ain).1 = w := hi.width e.ain
  have hfound : (s.atomicOf n pa e).2.2 = (old, s.marked (pa / 256), if o = 9 then sum.2 else 0) := by
    rw [State.atomicOf, State.atomicAt_found, hw, hi.op, amoNew_flags]
  have hgot : s.atomicGot n pa e = got := by
    rw [State.atomicGot, hfound, hi.use, hw]
  obtain ⟨hoff, hview⟩ := s.atomicAt_frame (s.pts n) (amoOp e.instr) pa (amoPlace e.instr e.ain).1 e.ain.bv e.ain.zv.v
  have hstrand : (s.atomicOf n pa e).1.strand n = s.strand n := (congrArg (fun t : State => t.strand n) hoff :)
  have hslipped : (((s.atomicOf n pa e).1.setPts n (s.atomicOf n pa e).2.1).strand n).slipped e.seq = false := by
    rw [State.setPts, State.strand_modStrand, if_pos rfl, hstrand]
    exact Strand.not_slipped_of_mayPerform hmay
  have hexec := (exec_loadReturn_of_entry he).trans
    (congrArg _ ((State.stepA_atomic hi hslip hblocked hmay hclk).trans (State.amoPerform_of_mem hlog hrds rfl)))
  rw [hgot, hfound] at hexec
  refine ⟨_, hexec, ?_, State.completeEntry_entry? .., ?_, fun a => ?_⟩
  · rw [State.completeEntry_regs, State.delivered_scalar _ _ _ hd hd24, State.strand_modRegs, if_pos rfl, Regs.sP_setSP, if_pos rfl]
  · rw [State.completeEntry_flags hslipped, State.setPts, State.strand_modStrand, if_pos rfl, hstrand]
  · have hnew : (amoNew (amoOp e.instr) (BitVec.ofNat 64 (leNat (s.readBytes pa (amoPlace e.instr e.ain).1))) e.ain.bv
        e.ain.zv.v).1 = new := by
      rw [hw, hi.op, amoNew_word]
      rfl
    rw [hnew] at hview
    have hend (b : Nat) := (State.view_of_offUnits (State.completeEntry_offUnits
      ((s.atomicOf n pa e).1.setPts n (s.atomicOf n pa e).2.1) n e [.s ⟨got.1, got.2⟩]
      (lane0Flags (withPs got.2 (if o = 9 then sum.2 else 0)))) b).trans (hview b)
    clear_value new
    cases new with
    | none => exact State.readBytes_congr hend a 1
    | some v =>
      refine (State.readBytes_of_stored_run hend a).trans ?_
      rw [hw, show (leBytes w v.toNat).length = w by simp [leBytes]]
      split
      · next ha => exact leBytes_byte v (by omega)
      · rfl

end

section
/-! The spill bank (R253, R276): words put into it and read back, and the write-backs of `SPILL` and `FILL`. -/

namespace Sys2Proof.Machine

/-! ### Words of the bank (R276) -/

/-- What the bank holds at a word once `k` lanes are put into it from word `w` on. -/
theorem mget_spillPut (m : AMap (W32 × Bool)) (w k v : Nat) (x : VV) :
    mget (spillPut m w k x) v ((0 : W32), false) =
      if w ≤ v ∧ v < w + k then (lane x.v (v - w), x.tag (v - w)) else mget m v (0, false) := by
  induction k with
  | zero => rw [if_neg (by omega)]; rfl
  | succ k ih =>
    have hstep : spillPut m w (k + 1) x = if lane x.v k = 0 ∧ !x.tag k then mdel (spillPut m w k x) (w + k)
        else mset (spillPut m w k x) (w + k) (lane x.v k, x.tag k) := by
      rw [spillPut, List.range_succ, List.foldl_append]
      rfl
    have hnew : mget (spillPut m w (k + 1) x) v ((0 : W32), false) =
        if w + k = v then (lane x.v k, x.tag k) else mget (spillPut m w k x) v (0, false) := by
      rw [hstep]
      split
      · next h => rw [mget_mdel, h.1, show x.tag k = false by simpa using h.2]
      · rw [mget_mset]
    rw [hnew, ih]
    by_cases hk : w + k = v
    · subst hk
      simp
    · rw [if_neg hk]
      exact if_congr (by omega) rfl rfl

theorem lane_spillGet (m : AMap (W32 × Bool)) (w : Nat) {k j : Nat} (hj : j < k) (h : j < 64) :
    lane (spillGet m w k).v j = (mget m (w + j) ((0 : W32), false)).1 := by
  rw [spillGet, lane_vecOfList _ _ h, List.map_map, getD_map_range _ _ hj]
  rfl

theorem tag_spillGet (m : AMap (W32 × Bool)) (w : Nat) {k j : Nat} (hj : j < k) (h : j < 64) :
    (spillGet m w k).tag j = (mget m (w + j) ((0 : W32), false)).2 := by
  rw [spillGet, VV.tag, getLsbD_maskOfList _ _ h, List.map_map, getD_map_range _ _ hj]
  rfl

/-! ### Beyond SPLIM (R276, R362) -/

theorem State.spillChecked_over {s : State} {i : Instr} (r : Result) (h : s.me.ctl.spillOver i = true) :
    s.spillChecked i r = .next (s.raise s.cur { cause := .spovf }) := by
  rw [State.spillChecked, h]
  rfl

/-! ### `WRITE_BACK` of an open operation (R176, R253) -/

section
variable {s : State} {n : Nat} {e : Entry} (hf : (s.strand n).flights.find? (fun f => f.id == e.id) = none)
  (he : s.entry? n e.id = some e) (hslip : e.slip = false) (hb : (s.strand n).blockedEntry e = false)
  {d : BitVec 6} {v : Bool} {o : BitVec 16}
include hf he hslip hb

theorem execWriteBack_spill (hi : e.instr = .spill d v o) (hs : (s.strand n).slipped e.seq = false)
    (hbefore : (s.strand n).spillBefore e = false) : execWriteBack n e.id s = .next ((s.modStrand n (fun y => { y with
      spill := spillStore y.spill e.instr (e.z.headD VV.zero) })).completeEntry n e [] 0) := by
  simp only [execWriteBack, hf, he, hslip, hb, hi, State.spillPerform, hs, hbefore, Bool.or_self, Bool.false_eq_true, if_false]

theorem execWriteBack_fill (hi : e.instr = .fill d v o) : execWriteBack n e.id s =
    .next (if s.clk < e.clk + 4 then s else s.completeEntry n e e.recorded 0) := by
  simp only [execWriteBack, hf, he, hslip, hb, hi, State.spillPerform, Bool.false_eq_true, if_false]

end

theorem getLsbD_ones {j : Nat} (h : j < 64) : (~~~0#64).getLsbD j = true := by
  rw [BitVec.getLsbD_not, BitVec.getLsbD_zero, decide_eq_true h]
  rfl

theorem tag_merge (m : W64) (a b : VV) {j : Nat} (h : j < 64) :
    (VV.merge m a b).tag j = if m.getLsbD j then a.tag j else b.tag j := by
  simp only [VV.merge, VV.tag, BitVec.getLsbD_or, BitVec.getLsbD_and, BitVec.getLsbD_not, h, decide_true, Bool.true_and]
  cases m.getLsbD j <;> simp

end Sys2Proof.Machine

open Sys2Proof Sys2Proof.Machine

/-- Settles O39: the bank word by word, and the end of `SPILL` and `FILL` as the end of an open operation. -/
theorem spillBank : Obligations.SpillBank := by
  refine ⟨fun m w k x _ hk => ⟨fun j hj => ?_, fun v hv => ?_⟩, fun s n e d v o =>
    ⟨fun h => ?beyond, fun hf he hslip hb => ⟨fun hi hs hbefore => ?spill, fun hi => ?fill⟩⟩⟩
  · rw [lane_spillGet _ _ hj (by omega), tag_spillGet _ _ hj (by omega), mget_spillPut, if_pos (by omega), Nat.add_sub_cancel_left]
    exact ⟨rfl, rfl⟩
  · rw [mget_spillPut, if_neg (by omega)]
  case beyond =>
    have hover : s.me.ctl.spillOver (.spill d v o) = true := decide_eq_true h
    exact ⟨State.spillChecked_over _ hover, State.spillChecked_over _ hover⟩
  case spill =>
    refine ⟨_, execWriteBack_spill hf he hslip hb hi hs hbefore, State.completeEntry_mem .., State.completeEntry_entry? .., ?_⟩
    rw [State.completeEntry_spill, State.strand_modStrand, if_pos rfl, hi]
    cases v <;> rfl
  case fill =>
    have hexec := execWriteBack_fill hf he hslip hb hi
    refine ⟨fun h => hexec.trans (congrArg _ (if_pos h)), fun h => ⟨_, hexec.trans (congrArg _ (if_neg (Nat.not_lt.2 h))),
      State.completeEntry_mem .., State.completeEntry_entry? .., State.completeEntry_spill .., fun r z hd hr hz => ?_,
      fun r z hd hr hz j hj => ?_⟩⟩
    · have hrec : e.recorded = [.s z.toSV] := by rw [Entry.recorded, hd, hz]; rfl
      rw [State.completeEntry_regs, hrec, State.delivered_scalar _ _ _ hd hr, State.strand_modRegs, if_pos rfl, Regs.sP_setSP,
        if_pos rfl]
    · have hrec : e.recorded = [.v z] := by rw [Entry.recorded, hd, hz]; rfl
      have hact : actOf e.instr e.pred = ~~~0#64 := by rw [hi]; rfl
      rw [State.completeEntry_regs, hrec, State.delivered_vector _ _ _ hd hr, State.strand_modRegs, if_pos rfl, Regs.vP_setVP,
        if_pos rfl, hact]
      rw [lane_merge _ _ _ hj, tag_merge _ _ _ hj, getLsbD_ones hj]
      exact ⟨rfl, rfl⟩

end

section
/-! The checks of slot A (R131, R252, R255, R256): they translate addresses, and change nothing else of the state. -/

namespace Sys2Proof.Machine

/-! ### One access, one page (R252) -/

theorem Plan.lookup_offTlbs (p : Plan) (n slot : Nat) (va : W64) : (p.lookup n slot va).st.offTlbs = p.st.offTlbs := by
  rw [← p.st.xlate_offTlbs n va .attr]
  unfold Plan.lookup
  dsimp only
  split
  · rfl
  · rw [Plan.fail_st]
  · rfl

theorem Plan.lookupFar_offTlbs (p : Plan) (n : Nat) (va : W64) : (p.lookupFar n va).st.offTlbs = p.st.offTlbs := by
  rw [← p.st.xlate_offTlbs n va .attr]
  unfold Plan.lookupFar
  dsimp only
  split <;> rfl

theorem Plan.accesses_offTlbs (p : Plan) (n slot : Nat) (acc : Acc) (l : List (W64 × Nat)) :
    (p.accesses n slot acc l).st.offTlbs = p.st.offTlbs :=
  foldl_same (fun q : Plan => q.st.offTlbs) _ _ _ fun q x => q.access_offTlbs n slot acc x.1 x.2

theorem Plan.element_offTlbs (p : Plan) (n slot : Nat) (acc : Acc) (va : W64) (len : Nat) :
    (p.element n slot acc va len).st.offTlbs = p.st.offTlbs := p.accesses_offTlbs n slot acc _

/-- Failing where a condition of a read holds, read by read, leaves the state alone. -/
theorem Plan.failEach_st (c : Rd → Prop) [DecidablePred c] (t : Rd → Trap) (l : List Rd) (p : Plan) :
    (l.foldl (fun (p : Plan) r => if c r then p.fail (t r) else p) p).st = p.st :=
  foldl_same Plan.st _ _ _ fun q r => by
    split
    · exact q.fail_st _
    · rfl

theorem Plan.samePages_st (p : Plan) (k slot : Nat) (w1 : W64) : (p.samePages k slot w1).st = p.st :=
  Plan.failEach_st _ _ _ _

theorem Plan.banksReady_st (p : Plan) (n : Nat) (raw : Bool) : (p.banksReady n raw).st = p.st := by
  unfold Plan.banksReady
  split <;> rfl

/-! ### Registers and single elements (R255, R256, R260) -/

theorem Plan.readReg_offTlbs (p : Plan) (n slot ty : Nat) (raw : Bool) (act : W64) (mode : Nat → Nat) (ea : W64) :
    (p.readReg n slot ty raw act mode ea).st.offTlbs = p.st.offTlbs := by
  unfold Plan.readReg
  extract_lets rawLines p1 mis full
  have hp1 : p1.st.offTlbs = p.st.offTlbs := p.lookup_offTlbs n slot ea
  split
  · rfl
  split
  · exact p.accesses_offTlbs n slot .load rawLines
  split
  · exact hp1
  extract_lets fmt sck w m k cnt on want p2 p3 p4 vas p5
  have hp3 : p3.st.offTlbs = p.st.offTlbs := by rw [Plan.samePages_st, Plan.accesses_offTlbs, hp1]
  have hp4 : p4.st = p3.st := by
    unfold p4
    split
    · exact p3.fail_st mis
    · rfl
  have hp5 : p5.st.offTlbs = p.st.offTlbs := by rw [Plan.accesses_offTlbs, hp4, hp3]
  split
  · rw [Plan.fail_st, hp1]
  split
  · rw [Plan.samePages_st, Plan.accesses_offTlbs, hp1]
  split
  · rw [hp4, hp3]
  split
  · rw [Plan.accesses_offTlbs, hp5]
  · exact hp5

theorem Plan.writeReg_offTlbs (p : Plan) (n slot ty : Nat) (raw : Bool) (act ea : W64) :
    (p.writeReg n slot ty raw act ea).st.offTlbs = p.st.offTlbs := by
  unfold Plan.writeReg
  dsimp only
  repeat' split
  all_goals simp only [Plan.fail_st, Plan.failEach_st, Plan.accesses_offTlbs, Plan.lookup_offTlbs, Plan.lookupFar_offTlbs]

theorem Plan.readOne_offTlbs (p : Plan) (n slot : Nat) (raw : Bool) (mode : Nat → Nat) (ea : W64) :
    (p.readOne n slot raw mode ea).st.offTlbs = p.st.offTlbs := by
  unfold Plan.readOne
  dsimp only
  repeat' split
  all_goals simp only [Plan.fail_st, Plan.samePages_st, Plan.access_offTlbs, Plan.element_offTlbs, Plan.lookup_offTlbs]

theorem Plan.writeOne_offTlbs (p : Plan) (n slot : Nat) (raw : Bool) (ea : W64) :
    (p.writeOne n slot raw ea).st.offTlbs = p.st.offTlbs := by
  unfold Plan.writeOne
  dsimp only
  repeat' split
  all_goals simp only [Plan.fail_st, Plan.failEach_st, Plan.access_offTlbs, Plan.element_offTlbs, Plan.lookup_offTlbs]

theorem Plan.laneAddrPoison_st (p : Plan) (i : Instr) (x : AIn) : (p.laneAddrPoison i x).st = p.st := by
  unfold Plan.laneAddrPoison
  dsimp only
  split
  · rw [foldl_same Plan.st _ _ _ fun q l => q.poison_st _ _ _, Plan.poison_st]
  · rw [Plan.poison_st, Plan.poison_st]

/-! ### Loads and stores -/

theorem planRead_offTlbs (i : Instr) (n slot : Nat) (x : AIn) (s : State) : (planRead i n slot x s).st.offTlbs = s.offTlbs := by
  have hvld : (planVld i n slot x s).st.offTlbs = s.offTlbs := by
    unfold planVld
    dsimp only
    split <;> split <;> simp only [Plan.banksReady_st, Plan.lookup_offTlbs, Plan.poison_st,
      foldl_same (fun q : Plan => q.st.offTlbs) _ _ _ fun (q : Plan) (j : Nat) => q.readReg_offTlbs _ _ _ _ _ _ _]
  have hvldl : (planVldl i n slot x s).st.offTlbs = s.offTlbs := by
    unfold planVldl
    dsimp only
    rw [Plan.banksReady_st, foldl_same (fun q : Plan => q.st.offTlbs) _ _ _ fun q l => q.readOne_offTlbs _ _ _ _ _,
      Plan.laneAddrPoison_st]
  unfold planRead
  split
  · exact hvld
  · exact hvld
  · exact hvldl
  · exact hvldl
  · exact (Plan.accesses_offTlbs _ n slot .load _).trans (by rw [Plan.poison_st])

theorem planWrite_offTlbs (i : Instr) (n slot : Nat) (x : AIn) (s : State) : (planWrite i n slot x s).st.offTlbs = s.offTlbs := by
  have hvst : (planVst i n slot x s).st.offTlbs = s.offTlbs := by
    have hread (l : List (VV × Nat)) (va : VV × Nat → W64) (act : W64) (p : Plan) :
        (l.foldl (fun (p : Plan) v => p.poison (v.1.t &&& act != 0) 2 (va v)) p).st = p.st :=
      foldl_same Plan.st _ _ _ fun q v => q.poison_st _ _ _
    unfold planVst
    generalize vecShape i = shape
    obtain ⟨ty, raw, k⟩ := shape
    dsimp -zeta only
    extract_lets p0 p1 f known p2 p3
    have hp1 : p1.st.offTlbs = s.offTlbs := by
      unfold p1 p0
      split
      · rw [Plan.poison_st]
      · rw [Plan.lookup_offTlbs, Plan.poison_st]
    have hp3 : p3.st = p1.st := by
      unfold p3
      split
      · exact hread ..
      · exact (p2.poison_st _ _ _).trans (hread ..)
    split
    · rw [hp3, hp1]
    · rw [foldl_same (fun q : Plan => q.st.offTlbs) _ _ _ fun q j => q.writeReg_offTlbs _ _ _ _ _ _, hp3, hp1]
  have hvstl : (planVstl i n slot x s).st.offTlbs = s.offTlbs := by
    unfold planVstl
    dsimp only
    rw [foldl_same (fun q : Plan => q.st.offTlbs) _ _ _ fun q l => q.writeOne_offTlbs _ _ _ _, Plan.poison_st,
      foldl_same Plan.st _ _ _ fun q l => q.poison_st _ _ _, Plan.laneAddrPoison_st]
  unfold planWrite
  split
  · exact hvst
  · exact hvst
  · exact hvstl
  · exact hvstl
  · exact (Plan.accesses_offTlbs _ n slot .store _).trans (by rw [Plan.poison_st, Plan.poison_st])

/-! ### Every check of slot A -/

/-- The checks of a slot-A instruction translate addresses and leave all else of the state as it is. -/
theorem planOf_offTlbs (i : Instr) (n : Nat) (x : AIn) (s : State) : (planOf i n x s).st.offTlbs = s.offTlbs := by
  have hamo (j : Instr) : (planAmo j n 0 x s).st.offTlbs = s.offTlbs := by
    rw [planAmo, Plan.access_offTlbs, Plan.poison_st, Plan.poison_st]
  have hwaitv (j : Instr) : (planWaitv j n 0 x s).st.offTlbs = s.offTlbs := by
    rw [planWaitv, Plan.access_offTlbs, Plan.poison_st]
  have hmcst : (planMcst n 0 x s).st.offTlbs = s.offTlbs := by
    rw [planMcst, Plan.access_offTlbs, Plan.poison_st, Plan.poison_st, Plan.poison_st]
  have hcb (j : Instr) (acc : Acc) : (planCb j acc n 0 x s).st.offTlbs = s.offTlbs := by
    rw [planCb, Plan.accesses_offTlbs, Plan.poison_st]
  have hcbw (j : Instr) : (planCbw j x s).st = s := by
    unfold planCbw
    split
    · exact Plan.poison_st _ _ _ _
    · rfl
  have htile : (planTile x s).st = s := by rw [planTile, Plan.poison_st, Plan.poison_st]
  have hsbind : (planSbind n 0 x s).st.offTlbs = s.offTlbs := by
    rw [planSbind, Plan.access_offTlbs, Plan.poison_st]
  have hspill (j : Instr) : (if (s.strand n).ctl.spillOver j then (({ st := s } : Plan)).fail { cause := .spovf }
      else { st := s }).st = s := by
    split
    · exact Plan.fail_st _ _
    · rfl
  unfold planOf
  split
  case h_1 | h_2 => exact hamo _
  case h_3 => exact planSta_offTlbs ..
  case h_4 => exact hwaitv _
  case h_5 => exact hmcst
  case h_6 | h_7 => exact hcb _ _
  case h_8 | h_9 => rw [hcbw]
  case h_10 => exact hsbind
  case h_11 | h_12 | h_13 | h_14 => rw [htile]
  case h_15 | h_16 => rw [hspill]
  case h_17 =>
    split
    · exact planRead_offTlbs ..
    split
    · exact planWrite_offTlbs ..
    · rfl

end Sys2Proof.Machine
end

section
/-! Stores at their issue (R256, R258): the windows they touch are asked for their allowance, and the bytes enter the write queue. -/

namespace Sys2Proof.Machine

/-- The checks of slot A leave memory, the current strand and every strand as they are. -/
theorem passesA_frame {s : State} {i : Instr} {g : Pass} {p : Plan} (h : PassesA s i g p) :
    p.st.mem = s.mem ∧ p.st.cur = s.cur ∧ p.st.strands = s.strands := by
  obtain ⟨-, hp, -⟩ := h
  have hoff : p.st.offTlbs = s.offTlbs := by rw [← hp]; exact planOf_offTlbs i s.cur g.ain s
  exact ⟨(congrArg State.mem hoff :), (congrArg State.cur hoff :), (congrArg State.strands hoff :)⟩

/-- What a store does on the state `t` that its checks leave: its pieces enter the write queue once their windows allow it. -/
def State.issuePieces (t : State) (i : Instr) (g : Pass) (va : W64) (pieces : List Piece) (fl sfl : LaneFlags) : State :=
  let r := t.askAll (.op t.cur g.st.front.ctx.seq) (windowsOf (pieces.map Piece.tgt))
  if !r.2 then r.1.stall t.cur
  else (r.1.newId.2.setStrand t.cur g.st).queueWrite t.cur r.1.newId.1 g.st.front.ctx.seq 0 g.st.front.ctx.pc i g.ain va pieces fl sfl

theorem State.issuePieces_denied {t s0 : State} {g : Pass} {pieces : List Piece} (i : Instr) (va : W64) (fl sfl : LaneFlags)
    (h : t.askAll (.op t.cur g.st.front.ctx.seq) (windowsOf (pieces.map Piece.tgt)) = (s0, false)) :
    t.issuePieces i g va pieces fl sfl = s0.stall t.cur := by
  simp [State.issuePieces, h]

theorem State.issuePieces_allowed {t s0 : State} {g : Pass} {pieces : List Piece} (i : Instr) (va : W64) (fl sfl : LaneFlags)
    (h : t.askAll (.op t.cur g.st.front.ctx.seq) (windowsOf (pieces.map Piece.tgt)) = (s0, true)) :
    (t.issuePieces i g va pieces fl sfl).mem = t.mem ∧ ∃ q, (t.issuePieces i g va pieces fl sfl).strand t.cur =
      { g.st with wq := g.st.wq ++ [q] } ∧ q.instr = i ∧ q.pieces = pieces ∧ q.pc = g.st.front.ctx.pc ∧
      q.seq = g.st.front.ctx.seq ∧ q.slot = 0 ∧ q.va = va := by
  have hmem : s0.mem = t.mem := by
    rw [← (t.askAll_frame (.op t.cur g.st.front.ctx.seq) (windowsOf (pieces.map Piece.tgt))).2, h]
  simp only [State.issuePieces, h, Bool.not_true, Bool.false_eq_true, if_false, State.queueWrite, State.strand_modStrand, if_pos,
    State.strand_setStrand]
  exact ⟨hmem, _, rfl, rfl, rfl, rfl, rfl, rfl, rfl⟩

/-- A store, once its checks pass, hands its bytes to the write queue. -/
theorem exec_store {s : State} {i : Instr} {g : Pass} {p : Plan} (hi : isStoreOp i = true) (h : PassesA s i g p)
    (hcb : ∀ b a q im, i ≠ .cbst b a q im) : exec i s = .next (p.st.issuePieces i g g.sa.v
      (piecesOf p.rds (writeBytes i g.ain p.rds).1) (writeBytes i g.ain p.rds).2 (flagsA i g)) := by
  obtain ⟨hpass, hp, ht, hm, ho⟩ := h
  have hsame (hplan : planWrite i s.cur 0 g.ain s = p) : s.issueStore i = .next (p.st.issuePieces i g g.sa.v
      (piecesOf p.rds (writeBytes i g.ain p.rds).1) (writeBytes i g.ain p.rds).2 (flagsA i g)) := by
    unfold State.issueStore
    exact runA_of_passesA _ _ hpass hplan ht hm ho
  unfold isStoreOp at hi
  split at hi
  case h_9 => exact absurd rfl (hcb _ _ _ _)
  case h_10 => cases hi
  all_goals exact hsame hp

theorem exec_cbst {s : State} {b : BitVec 3} {a : BitVec 6} {q : Bool} {im : BitVec 12} {g : Pass} {p : Plan}
    (h : PassesA s (.cbst b a q im) g p) : exec (.cbst b a q im) s = .next (p.st.issuePieces (.cbst b a q im) g
      (cbEa (.cbst b a q im) g.ain) (cbstPieces (.cbst b a q im) g.ain ((p.st.core (coreOf p.st.cur)).bank b.toNat).current p.rds)
      0 0) := by
  obtain ⟨hpass, hp, ht, hm, ho⟩ := h
  change execCbst b a q im s = _
  unfold execCbst
  exact runA_of_passesA _ _ hpass hp ht hm ho

/-- The bytes of a scalar store: the low ones of its value, least first, from its address on. -/
theorem writeBytes_scalar {i : Instr} (g : Pass) (rds : List Rd) {d a : BitVec 6} {q : Bool} {im : BitVec 12}
    (hi : i = .stB d a q im ∨ i = .stH d a q im ∨ i = .stW d a q im ∨ i = .stD d a q im) :
    (writeBytes i g.ain rds).1 = (List.range (stSize i)).map (fun k =>
      (g.sa.v + immValue g im + BitVec.ofNat 64 k, g.sc.v.extractLsb' (8 * k) 8)) := by
  rw [← immOf_eq]
  rcases hi with rfl | rfl | rfl | rfl <;> rfl

end Sys2Proof.Machine

open Sys2Proof Sys2Proof.Machine

/-- Settles O33: every store form is the check of slot A followed by the queueing of its pieces. -/
theorem storesIssue : Obligations.StoresIssue := by
  unfold Obligations.StoresIssue
  intro s s0 i g p hi h
  obtain ⟨hmem, hcur, -⟩ := passesA_frame h
  have settle (pieces : List Piece) (va : W64) (fl sfl : LaneFlags)
      (hexec : exec i s = .next (p.st.issuePieces i g va pieces fl sfl)) :
      (p.st.askAll (.op s.cur g.st.front.ctx.seq) (windowsOf (pieces.map Piece.tgt)) = (s0, true) →
        ∃ t q, exec i s = .next t ∧ (t.strand s.cur).wq = g.st.wq ++ [q] ∧ q.instr = i ∧ q.pieces = pieces ∧
          q.pc = g.st.front.ctx.pc ∧ q.seq = g.st.front.ctx.seq ∧ q.slot = 0 ∧ q.va = va ∧
          t.mem = s.mem ∧ (t.strand s.cur).regs = g.st.regs ∧ (t.strand s.cur).ctl = g.st.ctl ∧
          (t.strand s.cur).front.pc = g.st.front.pc ∧ (t.strand s.cur).open_ = g.st.open_) ∧
      (p.st.askAll (.op s.cur g.st.front.ctx.seq) (windowsOf (pieces.map Piece.tgt)) = (s0, false) →
        exec i s = .next (s0.stall s.cur)) := by
    rw [hexec, ← hcur, ← hmem]
    refine ⟨fun ha => ?_, fun ha => by rw [State.issuePieces_denied i va fl sfl ha]⟩
    obtain ⟨hm, q, hst, hinstr, hpieces, hpc, hseq, hslot, hva⟩ := State.issuePieces_allowed i va fl sfl ha
    refine ⟨_, q, rfl, ?_, hinstr, hpieces, hpc, hseq, hslot, hva, hm, ?_⟩ <;> rw [hst]
    exact ⟨rfl, rfl, rfl, rfl⟩
  have hscalar : ∀ d a q im, (i = .stB d a q im ∨ i = .stH d a q im ∨ i = .stW d a q im ∨ i = .stD d a q im) →
      (writeBytes i g.ain p.rds).1 = (List.range (stSize i)).map (fun k =>
        (g.sa.v + immValue g im + BitVec.ofNat 64 k, g.sc.v.extractLsb' (8 * k) 8)) :=
    fun d a q im hi => writeBytes_scalar g p.rds hi
  by_cases hcb : ∃ b a q im, i = .cbst b a q im
  · obtain ⟨b, a, q, im, rfl⟩ := hcb
    have hexec := exec_cbst h
    rw [hcur] at hexec
    obtain ⟨hyes, hno⟩ := settle _ _ _ _ hexec
    exact ⟨hyes, hno, hscalar⟩
  · have hne : ∀ b a q im, i ≠ .cbst b a q im := fun b a q im e => hcb ⟨b, a, q, im, e⟩
    obtain ⟨hyes, hno⟩ := settle _ _ _ _ (exec_store hi h hne)
    cases i
    case cbst b a q im => exact absurd rfl (hne b a q im)
    all_goals exact ⟨hyes, hno, hscalar⟩

end

section
/-! An operation of slot A opens (R129, R131, R252, R369): its entry is appended, its queue destinations are reserved, and
nothing else changes. -/

namespace Sys2Proof.Machine

/-! ### A reservation -/

/-- The strand as it is but for the contents of its queues. -/
def Strand.withQueues (st : Strand) (sq : AMap (List (QCell SV))) (vq : AMap (List (QCell VV))) : Strand :=
  { st with regs := { st.regs with sq := sq, vq := vq } }

theorem State.reserve_offUnits (s : State) (n id : Nat) (d : Dest) : (s.reserve n id d).offUnits = s.offUnits := by
  unfold State.reserve
  split
  · split <;> rfl
  · split <;> rfl
  · rfl
  · rfl

theorem State.reserve_withQueues (s : State) (n id : Nat) (d : Dest) (m : Nat) :
    ∃ sq vq, (s.reserve n id d).strand m = (s.strand m).withQueues sq vq := by
  have hmod (k : Nat) (f : Regs → Regs) (hf : ∀ g, ∃ sq vq, f g = { g with sq := sq, vq := vq }) :
      ∃ sq vq, (s.modRegs k f).strand m = (s.strand m).withQueues sq vq := by
    rw [State.strand_modRegs]
    split
    case isTrue h =>
      subst h
      obtain ⟨sq, vq, hq⟩ := hf (s.strand k).regs
      exact ⟨sq, vq, by rw [hq]; rfl⟩
    case isFalse => exact ⟨_, _, rfl⟩
  unfold State.reserve
  split
  · split
    · exact hmod _ _ fun g => ⟨_, _, rfl⟩
    · exact ⟨_, _, rfl⟩
  · split
    · exact hmod _ _ fun g => ⟨_, _, rfl⟩
    · exact ⟨_, _, rfl⟩
  · exact hmod _ _ fun g => ⟨_, _, rfl⟩
  · exact ⟨_, _, rfl⟩

/-- A reservation of strand `n` reaches another strand through a link alone. -/
theorem State.reserve_other (s : State) (n id : Nat) (d : Dest) {m : Nat} (hm : m ≠ n) (hd : ∀ r q, d ≠ .lk r m q) :
    (s.reserve n id d).strand m = s.strand m := by
  cases d with
  | k r => rfl
  | lk r k q =>
    have hk : k ≠ m := fun h => hd r q (h ▸ rfl)
    exact (s.strand_modRegs k m _).trans (if_neg hk)
  | s r =>
    simp only [State.reserve]
    split
    · rw [State.strand_modRegs, if_neg (Ne.symm hm)]
    · rfl
  | v r =>
    simp only [State.reserve]
    split
    · rw [State.strand_modRegs, if_neg (Ne.symm hm)]
    · rfl

theorem State.reserve_hole (s : State) (n id : Nat) {r : Nat} (hr : r < 24) :
    QCell.hole id ∈ ((s.reserve n id (.s r)).strand n).regs.sQ r := by
  simp [State.reserve, hr]

/-- A reservation appends to a scalar queue at most. -/
theorem State.mem_reserve_sQ {s : State} {n r : Nat} {x : QCell SV} (id : Nat) (d : Dest) (h : x ∈ (s.strand n).regs.sQ r) :
    x ∈ ((s.reserve n id d).strand n).regs.sQ r := by
  have hv (k q : Nat) (l : Regs → List (QCell VV)) : x ∈ ((s.modRegs k (fun g => g.setVQ q (l g))).strand n).regs.sQ r := by
    rw [State.strand_modRegs]
    split
    case isTrue hk => subst hk; exact h
    case isFalse => exact h
  cases d with
  | k _ => exact h
  | lk _ k q => exact hv k q _
  | v q =>
    simp only [State.reserve]
    split
    · exact hv n q _
    · exact h
  | s q =>
    simp only [State.reserve]
    split
    · rw [State.strand_modRegs, if_pos rfl, Regs.sQ_setSQ]
      split
      case isTrue hq => subst hq; exact List.mem_append_left _ h
      case isFalse => exact h
    · exact h

/-! ### The reservations of all destinations -/

def State.reserveAll (s : State) (n id : Nat) (ds : List Dest) : State := ds.foldl (fun s d => s.reserve n id d) s

theorem State.reserveAll_offUnits (s : State) (n id : Nat) (ds : List Dest) : (s.reserveAll n id ds).offUnits = s.offUnits :=
  foldl_same State.offUnits _ _ _ fun t d => t.reserve_offUnits n id d

theorem State.reserveAll_withQueues (s : State) (n id : Nat) (ds : List Dest) (m : Nat) :
    ∃ sq vq, (s.reserveAll n id ds).strand m = (s.strand m).withQueues sq vq := by
  refine foldl_keeps (fun t : State => ∃ sq vq, t.strand m = (s.strand m).withQueues sq vq) _ _ _ ⟨_, _, rfl⟩ ?_
  rintro t d ⟨sq, vq, ht⟩
  obtain ⟨sq', vq', hr⟩ := t.reserve_withQueues n id d m
  exact ⟨sq', vq', by rw [hr, ht]; rfl⟩

theorem State.reserveAll_other (s : State) (n id : Nat) {ds : List Dest} {m : Nat} (hm : m ≠ n) (hd : ∀ r q, Dest.lk r m q ∉ ds) :
    (s.reserveAll n id ds).strand m = s.strand m := by
  induction ds generalizing s with
  | nil => rfl
  | cons d ds ih =>
    refine (ih (s.reserve n id d) fun r q h => hd r q (List.mem_cons_of_mem _ h)).trans ?_
    exact s.reserve_other n id d hm fun r q h => hd r q (h ▸ List.mem_cons_self)

theorem State.reserveAll_hole (s : State) (n id : Nat) {ds : List Dest} {r : Nat} (hr : r < 24) (hd : Dest.s r ∈ ds) :
    QCell.hole id ∈ ((s.reserveAll n id ds).strand n).regs.sQ r := by
  induction ds generalizing s with
  | nil => cases hd
  | cons d ds ih =>
    rcases List.mem_cons.mp hd with rfl | hd
    · change QCell.hole id ∈ (((s.reserve n id (.s r)).reserveAll n id ds).strand n).regs.sQ r
      exact foldl_keeps (fun t : State => QCell.hole id ∈ (t.strand n).regs.sQ r) _ _ _ (s.reserve_hole n id hr)
        fun t d ht => State.mem_reserve_sQ id d ht
    · exact ih _ hd

/-! ### The opening -/

theorem State.openOp_eq (s : State) (n : Nat) (i : Instr) (st : Strand) (c : Cap) (r : Bool) (l : List Rd) :
    s.openOp n 0 i st c r l = (s.newId.2.setStrand n { st with
      open_ := st.open_ ++ [mkEntry s.newId.2 st 0 s.opId i c r l] }).reserveAll n s.opId (destsOf st i) := rfl

theorem State.openOp_offUnits (s : State) (n : Nat) (i : Instr) (st : Strand) (c : Cap) (r : Bool) (l : List Rd) :
    (s.openOp n 0 i st c r l).offUnits = s.newId.2.offUnits := by
  rw [State.openOp_eq, State.reserveAll_offUnits]
  rfl

/-- The strand of an operation that opens: the entry stands last, and no more than the queues changes beside it. -/
theorem State.openOp_strand (s : State) (n : Nat) (i : Instr) (st : Strand) (c : Cap) (r : Bool) (l : List Rd) :
    ∃ sq vq, (s.openOp n 0 i st c r l).strand n = ({ st with
      open_ := st.open_ ++ [mkEntry s.newId.2 st 0 s.opId i c r l] } : Strand).withQueues sq vq := by
  rw [State.openOp_eq]
  obtain ⟨sq, vq, h⟩ := (s.newId.2.setStrand n { st with
    open_ := st.open_ ++ [mkEntry s.newId.2 st 0 s.opId i c r l] }).reserveAll_withQueues n s.opId (destsOf st i) n
  exact ⟨sq, vq, by rw [h, State.strand_setStrand, if_pos rfl]⟩

theorem State.mkEntry_mem_openOp (s : State) (n : Nat) (i : Instr) (st : Strand) (c : Cap) (r : Bool) (l : List Rd) :
    mkEntry s.newId.2 st 0 s.opId i c r l ∈ ((s.openOp n 0 i st c r l).strand n).open_ := by
  obtain ⟨sq, vq, hst⟩ := s.openOp_strand n i st c r l
  rw [hst]
  exact List.mem_append_right _ List.mem_cons_self

theorem State.openOp_other {s : State} {n m : Nat} {i : Instr} {st : Strand} (c : Cap) (r : Bool) (l : List Rd) (hm : m ≠ n)
    (hd : ∀ r q, Dest.lk r m q ∉ destsOf st i) : (s.openOp n 0 i st c r l).strand m = s.strand m := by
  rw [State.openOp_eq, State.reserveAll_other _ _ _ hm hd, State.strand_setStrand, if_neg (Ne.symm hm)]
  rfl

theorem State.openOp_hole {s : State} {n r : Nat} {i : Instr} {st : Strand} (c : Cap) (b : Bool) (l : List Rd) (hr : r < 24)
    (hd : Dest.s r ∈ destsOf st i) : QCell.hole s.opId ∈ ((s.openOp n 0 i st c b l).strand n).regs.sQ r := by
  rw [State.openOp_eq]
  exact State.reserveAll_hole _ _ _ hr hd

/-! ### An opened operation, and changes of its entry -/

/-- Whether the operation is resolved as it opens (R244, R252). -/
def resolvedAtIssue (i : Instr) (rds : List Rd) : Bool :=
  match i with
  | .cbwr .. | .cbinv .. => true
  | _ => resolvedByPlan i && memOnly rds

/-- The third operands that the entry holds: of an `SCHAIN` the strand's predicates (R269). -/
def heldThird (i : Instr) (g : Pass) : List VV :=
  match i with
  | .schain .. => g.st.predVecs
  | _ => g.c

/-- What the entry holds of operands, or of the value that it took at issue. -/
def HoldsAtIssue (s : State) (i : Instr) (g : Pass) (p : Plan) (e : Entry) : Prop :=
  match takenAtIssue s i with
  | some v => e.done = true ∧ e.z = [v.toVV]
  | none => e.done = false ∧ e.x = g.va ∧ e.y = g.vb ∧ e.pred = g.pred ∧ e.rds = p.rds ∧ e.z = heldThird i g

/-- The entry of instruction `i` as it stands after its issue. -/
def OpenedEntry (s : State) (i : Instr) (g : Pass) (p : Plan) (e : Entry) : Prop :=
  e.id = p.st.opId ∧ e.instr = i ∧ e.slot = 0 ∧ e.seq = g.st.front.ctx.seq ∧ e.pc = g.st.front.ctx.pc ∧ e.clk = p.st.clk ∧
    e.slip = false ∧ e.dests = destsOf g.st i ∧ (stallsOpen p.st i g = true → e.step = writerStalled ∧ e.resolved = false) ∧
    (stallsOpen p.st i g = false → e.step = 0 ∧ e.resolved = resolvedAtIssue i p.rds) ∧ HoldsAtIssue s i g p e

/-- What an opening leaves beside the entry. -/
def OpenedAround (s : State) (i : Instr) (g : Pass) (p : Plan) (t : State) : Prop :=
  t.opId = p.st.opId + 1 ∧ t.mem = s.mem ∧ t.marks = p.st.marks ∧ t.clk = p.st.clk ∧
  (t.strand s.cur).wq = g.st.wq ∧ (t.strand s.cur).front.pc = g.st.front.pc ∧ (t.strand s.cur).ctl = g.st.ctl ∧
  (t.strand s.cur).regs.sp = g.st.regs.sp ∧ (t.strand s.cur).regs.vp = g.st.regs.vp ∧
  (t.strand s.cur).regs.kp = g.st.regs.kp ∧
  (∀ r, Dest.s r ∈ destsOf g.st i → r < 24 → QCell.hole p.st.opId ∈ (t.strand s.cur).regs.sQ r) ∧
  ∀ m, m ≠ s.cur → (∀ r q, Dest.lk r m q ∉ destsOf g.st i) → t.strand m = p.st.strand m

theorem opened_of_entry {s : State} {i : Instr} {g : Pass} {p : Plan} {t : State} {e : Entry}
    (hmem : e ∈ (t.strand s.cur).open_) (he : OpenedEntry s i g p e) (ht : OpenedAround s i g p t) : Opened s i g p t := by
  obtain ⟨hid, hi, hslot, hseq, hpc, hclk, hslip, hdests, hstall, hgo, hholds⟩ := he
  exact ⟨⟨e, hmem, hid, hi, hslot, hseq, hpc, hclk, hslip, hdests, hstall, hgo, hholds⟩, ht⟩

section
variable {s : State} {i : Instr} {g : Pass} {p : Plan} {t : State}

theorem openedAround_openOp (c : Cap) (r : Bool) (l : List Rd) (hmem : p.st.mem = s.mem) :
    OpenedAround s i g p (p.st.openOp s.cur 0 i g.st c r l) := by
  have hoff := p.st.openOp_offUnits s.cur i g.st c r l
  obtain ⟨sq, vq, hst⟩ := p.st.openOp_strand s.cur i g.st c r l
  refine ⟨(congrArg State.opId hoff :), (congrArg State.mem hoff :).trans hmem, (congrArg State.marks hoff :),
    (congrArg State.clk hoff :), ?_, ?_, ?_, ?_, ?_, ?_, fun r hd hr => State.openOp_hole c _ l hr hd,
    fun m hm hd => State.openOp_other c r l hm hd⟩ <;> rw [hst] <;> rfl

theorem openedAround_modEntry (id : Nat) (f : Entry → Entry) (h : OpenedAround s i g p t) :
    OpenedAround s i g p (t.modEntry s.cur id f) := by
  obtain ⟨hid, hmem, hmarks, hclk, hwq, hpc, hctl, hsp, hvp, hkp, hholes, hother⟩ := h
  refine ⟨hid, hmem, hmarks, hclk, ?_, ?_, ?_, ?_, ?_, ?_, fun r hd hr => ?holes, fun m hm hd => ?others⟩ <;>
    rw [State.modEntry, State.strand_modStrand]
  case others => rw [if_neg (Ne.symm hm)]; exact hother m hm hd
  case holes => rw [if_pos rfl]; exact hholes r hd hr
  all_goals rw [if_pos rfl]; assumption

theorem mem_modEntry {n : Nat} {e : Entry} (id : Nat) (f : Entry → Entry) (h : e ∈ (t.strand n).open_) :
    (if e.id = id then f e else e) ∈ ((t.modEntry n id f).strand n).open_ := by
  rw [State.modEntry, State.strand_modStrand, if_pos rfl]
  exact List.mem_map_of_mem h

/-- A change of entries that leaves of an opened one what its issue says of it. -/
theorem opened_modEntry (id : Nat) {f : Entry → Entry} (hf : ∀ e, OpenedEntry s i g p e → OpenedEntry s i g p (f e))
    (h : Opened s i g p t) : Opened s i g p (t.modEntry s.cur id f) := by
  obtain ⟨⟨e, hmem, he⟩, ht⟩ := h
  refine opened_of_entry (mem_modEntry id f hmem) ?_ (openedAround_modEntry id f ht)
  split
  · exact hf e he
  · exact he

theorem opened_modCore (c : Nat) (f : Core → Core) (h : Opened s i g p t) : Opened s i g p (t.modCore c f) := h

theorem opened_openOp {c : Cap} {r : Bool} {l : List Rd} (hmem : p.st.mem = s.mem)
    (he : OpenedEntry s i g p (mkEntry p.st.newId.2 g.st 0 p.st.opId i c r l)) :
    Opened s i g p (p.st.openOp s.cur 0 i g.st c r l) := by
  exact opened_of_entry (p.st.mkEntry_mem_openOp s.cur i g.st c r l) he (openedAround_openOp c r l hmem)

/-- The entry that opens, changed before anything else is done. -/
theorem opened_openOp_modEntry {c : Cap} {r : Bool} {l : List Rd} {f : Entry → Entry} (hmem : p.st.mem = s.mem)
    (he : OpenedEntry s i g p (f (mkEntry p.st.newId.2 g.st 0 p.st.opId i c r l))) :
    Opened s i g p ((p.st.openOp s.cur 0 i g.st c r l).modEntry s.cur p.st.opId f) := by
  have hnew := mem_modEntry p.st.opId f (p.st.mkEntry_mem_openOp s.cur i g.st c r l)
  rw [if_pos (show (mkEntry p.st.newId.2 g.st 0 p.st.opId i c r l).id = p.st.opId from rfl)] at hnew
  exact opened_of_entry hnew he (openedAround_modEntry _ _ (openedAround_openOp c r l hmem))

end

end Sys2Proof.Machine
end

section
/-! The operations of slot A that stay open (R252, R265 to R283): each opens as its form says. -/

namespace Sys2Proof.Machine

section
variable {s : State} {i : Instr} {g : Pass} {p : Plan}

/-- The new entry of a form that takes no value at issue and writes no codebook bank. -/
theorem openedEntry_mkEntry {z : List VV} {r : Bool} {rds : List Rd} (ht : takenAtIssue s i = none) (hb : bankWritten i = none)
    (hr : resolvedAtIssue i p.rds = r) (hz : heldThird i g = z) (hrds : p.rds = rds) :
    OpenedEntry s i g p (mkEntry p.st.newId.2 g.st 0 p.st.opId i ⟨g.va, g.vb, z, g.pred⟩ r rds) := by
  have hstall : stallsOpen p.st i g = false := by simp only [stallsOpen, hb]
  refine ⟨rfl, rfl, rfl, rfl, rfl, rfl, rfl, rfl, fun h => ?_, fun _ => ⟨rfl, hr.symm⟩, ?_⟩
  · rw [hstall] at h
    cases h
  · simp only [HoldsAtIssue, ht]
    exact ⟨rfl, rfl, rfl, rfl, hrds.symm, hz.symm⟩

theorem openedEntry_aux (v : W64) {e : Entry} (h : OpenedEntry s i g p e) : OpenedEntry s i g p { e with aux := v } := h

/-! ### Loads -/

theorem issuesLoad_of_isLoadOp (s : State) (g : Pass) (rds : List Rd) (hi : isLoadOp i = true) : exec i s = s.issueLoad i ∧
    takenAtIssue s i = none ∧ bankWritten i = none ∧ resolvedAtIssue i rds = memOnly rds ∧ heldThird i g = g.c ∧
    (∀ x, planOf i s.cur x s = planRead i s.cur 0 x s) := by
  unfold isLoadOp at hi
  split at hi
  case h_13 => cases hi
  all_goals exact ⟨rfl, rfl, rfl, rfl, rfl, fun _ => rfl⟩

theorem exec_load_opens (hi : isLoadOp i = true) (h : PassesA s i g p) : ∃ t, exec i s = .next t ∧ Opened s i g p t := by
  obtain ⟨hmem, hcur, -⟩ := passesA_frame h
  obtain ⟨hpass, hp, ht, hm, ho⟩ := h
  obtain ⟨hexec, htaken, hbank, hres, hthird, hplan⟩ := issuesLoad_of_isLoadOp s g p.rds hi
  refine ⟨_, hexec.trans (runA_of_passesA _ _ hpass ((hplan g.ain).symm.trans hp) ht hm ho), ?_⟩
  dsimp only
  rw [hcur]
  refine foldl_keeps (Opened s i g p) _ _ _ ?_ fun t c ht => opened_modCore _ _ ht
  exact opened_openOp_modEntry hmem (openedEntry_mkEntry htaken hbank hres hthird rfl)

/-! ### Writers of a codebook bank -/

theorem opened_openWriter {b : Nat} {r : Bool} (hmem : p.st.mem = s.mem) (hcur : p.st.cur = s.cur)
    (hb : bankWritten i = some b) (ht : takenAtIssue s i = none)
    (hr : resolvedAtIssue i p.rds = r) (hz : heldThird i g = g.c) :
    Opened s i g p (p.st.openWriter i b g.st g.ain.cap r p.rds) := by
  have hholds (e : Entry) (hdone : e.done = false) (hx : e.x = g.va) (hy : e.y = g.vb) (hpred : e.pred = g.pred)
      (hrds : e.rds = p.rds) (hz' : e.z = g.c) : HoldsAtIssue s i g p e := by
    simp only [HoldsAtIssue, ht]
    exact ⟨hdone, hx, hy, hpred, hrds, hz'.trans hz.symm⟩
  have hstalls : stallsOpen p.st i g = p.st.writerStalls s.cur g.st.front.ctx.seq b := by simp only [stallsOpen, hb, hcur]
  unfold State.openWriter
  dsimp only
  rw [hcur, ← hstalls]
  split
  case isTrue hw =>
    exact opened_openOp_modEntry hmem ⟨rfl, rfl, rfl, rfl, rfl, rfl, rfl, rfl, fun _ => ⟨rfl, rfl⟩,
      fun hn => absurd (hw.symm.trans hn) (by decide), hholds _ rfl rfl rfl rfl rfl rfl⟩
  case isFalse hw =>
    exact opened_openOp hmem ⟨rfl, rfl, rfl, rfl, rfl, rfl, rfl, rfl, fun hn => absurd hn hw, fun _ => ⟨rfl, hr.symm⟩,
      hholds _ rfl rfl rfl rfl rfl rfl⟩

/-! ### Operations whose result is known at issue (R276, R277) -/

theorem opened_openKnown {v : DVal} (hmem : p.st.mem = s.mem) (hb : bankWritten i = none) (ht : takenAtIssue s i = some v)
    (hr : resolvedAtIssue i p.rds = true) : Opened s i g p (p.st.openKnown s.cur i g.st v) := by
  have hstall : stallsOpen p.st i g = false := by simp only [stallsOpen, hb]
  refine opened_openOp_modEntry hmem ⟨rfl, rfl, rfl, rfl, rfl, rfl, rfl, rfl, fun h => ?_, fun _ => ⟨rfl, hr.symm⟩, ?_⟩
  · rw [hstall] at h
    cases h
  · unfold HoldsAtIssue
    rw [ht]
    exact ⟨rfl, rfl⟩

/-- What a form that stays open says of its issue: held by `heldA` it stalls, and else it opens. -/
def OpensUnlessHeld (s : State) (i : Instr) (g : Pass) (p : Plan) : Prop :=
  (heldA p.st i g = false → ∃ t, exec i s = .next t ∧ Opened s i g p t) ∧
    (heldA p.st i g = true → exec i s = .next (p.st.stall s.cur))

theorem opensUnlessHeld_of_never {t : State} (hh : heldA p.st i g = false) (he : exec i s = .next t) (ho : Opened s i g p t) :
    OpensUnlessHeld s i g p :=
  ⟨fun _ => ⟨t, he, ho⟩, fun h => absurd (hh.symm.trans h) (by decide)⟩

/-- A form that opens with its operands and the reads of its plan. -/
theorem opens_of_runA {plan : AIn → State → Plan} {r : Plan → Bool} {l : Plan → List Rd} (h : PassesA s i g p)
    (hexec : exec i s = s.runA i plan (fun x st q _ t => t.openOp t.cur 0 i st x.cap (r q) (l q)))
    (hplan : plan g.ain s = planOf i s.cur g.ain s) (hh : heldA p.st i g = false) (ht : takenAtIssue s i = none)
    (hb : bankWritten i = none) (hr : resolvedAtIssue i p.rds = r p) (hz : heldThird i g = g.c) (hl : p.rds = l p) :
    OpensUnlessHeld s i g p := by
  obtain ⟨hmem, hcur, -⟩ := passesA_frame h
  obtain ⟨hpass, hp, htrap, hmiss, hfull⟩ := h
  refine opensUnlessHeld_of_never hh (hexec.trans (runA_of_passesA _ _ hpass (hplan.trans hp) htrap hmiss hfull)) ?_
  rw [hcur]
  exact opened_openOp hmem (openedEntry_mkEntry ht hb hr hz hl)

theorem opens_amo (h : PassesA s i g p) (hexec : exec i s = s.issueAmo i) (hplan : planOf i s.cur g.ain s = planAmo i s.cur 0 g.ain s)
    (hh : heldA p.st i g = false) (ht : takenAtIssue s i = none) (hb : bankWritten i = none)
    (hr : resolvedAtIssue i p.rds = memOnly p.rds) (hz : heldThird i g = g.c) : OpensUnlessHeld s i g p := by
  obtain ⟨hmem, hcur, -⟩ := passesA_frame h
  obtain ⟨hpass, hp, htrap, hmiss, hfull⟩ := h
  refine opensUnlessHeld_of_never hh (hexec.trans (runA_of_passesA _ _ hpass (hplan.symm.trans hp) htrap hmiss hfull)) ?_
  rw [hcur]
  exact opened_openOp_modEntry hmem (openedEntry_mkEntry ht hb hr hz rfl)

theorem opens_writer {b : Nat} {r : Bool} {plan : AIn → State → Plan} (h : PassesA s i g p)
    (hexec : exec i s = s.runA i plan (fun x st q _ t => t.openWriter i b st x.cap r q.rds))
    (hplan : plan g.ain s = planOf i s.cur g.ain s) (hh : heldA p.st i g = false) (ht : takenAtIssue s i = none)
    (hb : bankWritten i = some b) (hr : resolvedAtIssue i p.rds = r) (hz : heldThird i g = g.c) : OpensUnlessHeld s i g p := by
  obtain ⟨hmem, hcur, -⟩ := passesA_frame h
  obtain ⟨hpass, hp, htrap, hmiss, hfull⟩ := h
  exact opensUnlessHeld_of_never hh (hexec.trans (runA_of_passesA _ _ hpass (hplan.trans hp) htrap hmiss hfull))
    (opened_openWriter hmem hcur hb ht hr hz)

/-! ### Single forms -/

theorem opens_mcst {d a b : BitVec 6} {q r : Bool} (h : PassesA s (.mcst d a b q r) g p) : OpensUnlessHeld s (.mcst d a b q r) g p := by
  obtain ⟨hmem, hcur, hstrands⟩ := passesA_frame h
  obtain ⟨hpass, hp, htrap, hmiss, hfull⟩ := h
  have hrun := runA_of_passesA (fun x t => planMcst t.cur 0 x t) (fun x st pl fl t =>
    if 16 ≤ t.me.mcstOut then t.stall t.cur
    else (t.openOp t.cur 0 (.mcst d a b q r) st x.cap false pl.rds).modEntry t.cur t.opId (fun e => { e with fl := fl }))
    hpass hp htrap hmiss hfull
  rw [hcur] at hrun
  constructor
  · intro hh
    refine ⟨_, hrun.trans (congrArg _ (if_neg (of_decide_eq_false hh))), ?_⟩
    exact opened_openOp_modEntry hmem (openedEntry_mkEntry (s := s) rfl rfl rfl rfl rfl)
  · intro hh
    exact hrun.trans (congrArg _ (if_pos (of_decide_eq_true hh)))

theorem opens_schain {d a b : BitVec 6} {q r : Bool} {n : BitVec 4} (h : PassesA s (.schain d a b q r n) g p) :
    OpensUnlessHeld s (.schain d a b q r n) g p := by
  obtain ⟨hpass, hp, htrap, hmiss, hfull⟩ := h
  obtain rfl : ({ st := s } : Plan) = p := hp
  have hrun := runA_of_passesA (fun _ t => { st := t }) (fun x st _ _ t =>
    if st.maskWait x.av then t.stall t.cur
    else t.openOp t.cur 0 (.schain d a b q r n) st { x.cap with z := st.predVecs } true [])
    hpass rfl htrap hmiss hfull
  constructor
  · intro hh
    refine ⟨_, hrun.trans (congrArg _ (if_neg (ne_true_of_eq_false hh))), ?_⟩
    exact opened_openOp rfl (openedEntry_mkEntry rfl rfl rfl rfl rfl)
  · intro hh
    exact hrun.trans (congrArg _ (if_pos hh))

theorem spillOver_of_passesA {n : Nat} (hp : planOf i n g.ain s = p) (htrap : p.trap = none)
    (hi : planOf i n g.ain s = if (s.strand n).ctl.spillOver i then (({ st := s } : Plan)).fail { cause := .spovf } else { st := s }) :
    (s.strand n).ctl.spillOver i = false ∧ p = { st := s } := by
  rw [hi] at hp
  split at hp
  · rw [← hp] at htrap
    cases htrap
  case isFalse hn => exact ⟨eq_false_of_ne_true hn, hp.symm⟩

theorem opens_spill {d : BitVec 6} {v : Bool} {o : BitVec 16} (h : PassesA s (.spill d v o) g p) :
    OpensUnlessHeld s (.spill d v o) g p := by
  obtain ⟨hpass, hp, htrap, hmiss, hfull⟩ := h
  obtain ⟨hover, rfl⟩ := spillOver_of_passesA hp htrap rfl
  have hrun := runA_of_passesA (fun _ t => { st := t }) (fun x st _ _ t =>
    t.openOp t.cur 0 (.spill d v o) st x.cap true []) hpass rfl htrap hmiss hfull
  exact opensUnlessHeld_of_never rfl ((if_neg (ne_true_of_eq_false hover)).trans hrun)
    (opened_openOp rfl (openedEntry_mkEntry rfl rfl rfl rfl rfl))

theorem opens_fill {d : BitVec 6} {v : Bool} {o : BitVec 16} (h : PassesA s (.fill d v o) g p) :
    OpensUnlessHeld s (.fill d v o) g p := by
  obtain ⟨hpass, hp, htrap, hmiss, hfull⟩ := h
  obtain ⟨hover, rfl⟩ := spillOver_of_passesA hp htrap rfl
  have hrun := runA_of_passesA (fun _ t => { st := t }) (fun _ st _ _ t =>
    t.openKnown t.cur (.fill d v o) st (fillValue t.me.spillView v o.toNat)) hpass rfl htrap hmiss hfull
  exact opensUnlessHeld_of_never rfl ((if_neg (ne_true_of_eq_false hover)).trans hrun) (opened_openKnown rfl rfl rfl rfl)

theorem opens_unpark {d : BitVec 6} {k : BitVec 9} (h : PassesA s (.unpark d k) g p) : OpensUnlessHeld s (.unpark d k) g p := by
  obtain ⟨hpass, hp, htrap, hmiss, hfull⟩ := h
  obtain rfl : ({ st := s } : Plan) = p := hp
  have hknown {v : DVal} (ht : takenAtIssue s (.unpark d k) = some v) :
      Opened s (.unpark d k) g { st := s } (s.openKnown s.cur (.unpark d k) g.st v) :=
    opened_openKnown (p := { st := s }) rfl rfl ht rfl
  have hexec : exec (.unpark d k) s = execUnpark d k s := rfl
  unfold execUnpark at hexec
  have hrun := hexec.trans (runA_of_passesA _ _ hpass rfl htrap hmiss hfull)
  dsimp only at hrun
  cases hheld : s.me.parkHeld k.toNat with
  | some y =>
    rw [hheld] at hrun
    refine opensUnlessHeld_of_never rfl hrun (opened_modCore _ _ (opened_modEntry _ (fun e => openedEntry_aux _) (hknown ?_)))
    simp only [takenAtIssue, hheld]
  | none =>
    rw [hheld] at hrun
    refine opensUnlessHeld_of_never rfl hrun (opened_modCore _ _ (hknown ?_))
    simp only [takenAtIssue, hheld]

/-! ### Every form that stays open -/

theorem Plan.poison_rds (p : Plan) (tagged : Bool) (k : Nat) (va : W64) : (p.poison tagged k va).rds = p.rds := by
  unfold Plan.poison Plan.fail
  repeat' split
  all_goals rfl

theorem rds_of_planTile (h : PassesA s i g p) (hplan : planOf i s.cur g.ain s = planTile g.ain s) : p.rds = [] := by
  obtain ⟨-, hp, -⟩ := h
  rw [← hp, hplan, planTile, Plan.poison_rds, Plan.poison_rds]

theorem rds_of_noPlan (h : PassesA s i g p) (hplan : planOf i s.cur g.ain s = { st := s }) : p.rds = [] := by
  obtain ⟨-, hp, -⟩ := h
  rw [← hp, hplan]

theorem resolved_of_noPlan (h : PassesA s i g p) (hplan : planOf i s.cur g.ain s = { st := s })
    (hi : resolvedAtIssue i [] = true) : resolvedAtIssue i p.rds = true := by
  rw [rds_of_noPlan h hplan, hi]

theorem opens_of_staysOpen (hi : staysOpen i = true) (h : PassesA s i g p) : OpensUnlessHeld s i g p := by
  cases i
  case amo d a b o u => exact opens_amo h rfl rfl rfl rfl rfl rfl rfl
  case cas d a b u => exact opens_amo h rfl rfl rfl rfl rfl rfl rfl
  case sta d a q im =>
    exact opens_of_runA (plan := fun x t => planSta (.sta d a q im) t.cur 0 x t) (r := fun _ => false) (l := Plan.rds) h
      rfl rfl rfl rfl rfl rfl rfl rfl
  case waitv d a b q r c w =>
    exact opens_of_runA (plan := fun x t => planWaitv (.waitv d a b q r c w) t.cur 0 x t) (r := fun _ => false) (l := Plan.rds) h
      rfl rfl rfl rfl rfl rfl rfl rfl
  case mcst d a b q r => exact opens_mcst h
  case cbld b a q im =>
    exact opens_writer (b := b.toNat) (r := false) (plan := fun x t => planCb (.cbld b a q im) .load t.cur 0 x t) h
      rfl rfl rfl rfl rfl rfl rfl
  case cbwr k a b q r =>
    exact opens_writer (b := k.toNat) (r := true) (plan := fun x t => planCbw (.cbwr k a b q r) x t) h rfl rfl rfl rfl rfl rfl rfl
  case cbinv k b q l =>
    exact opens_writer (b := k.toNat) (r := true) (plan := fun x t => planCbw (.cbinv k b q l) x t) h rfl rfl rfl rfl rfl rfl rfl
  case tflush a b q r =>
    exact opens_of_runA (plan := fun x t => planTile x t) (r := fun _ => false) (l := fun _ => []) h
      rfl rfl rfl rfl rfl rfl rfl (rds_of_planTile h rfl)
  case tinv a b q r =>
    exact opens_of_runA (plan := fun x t => planTile x t) (r := fun _ => false) (l := fun _ => []) h
      rfl rfl rfl rfl rfl rfl rfl (rds_of_planTile h rfl)
  case schain d a b q r n => exact opens_schain h
  case spos d a q n v =>
    exact opens_of_runA (plan := fun _ t => { st := t }) (r := fun _ => true) (l := fun _ => []) h
      rfl rfl rfl rfl rfl (resolved_of_noPlan h rfl rfl) rfl (rds_of_noPlan h rfl)
  case sunbind n =>
    exact opens_of_runA (plan := fun _ t => { st := t }) (r := fun _ => true) (l := fun _ => []) h
      rfl rfl rfl rfl rfl (resolved_of_noPlan h rfl rfl) rfl (rds_of_noPlan h rfl)
  case spill d v o => exact opens_spill h
  case fill d v o => exact opens_fill h
  case unpark d k => exact opens_unpark h
  all_goals cases hi

end

end Sys2Proof.Machine
end

section
/-! `PARK` at its issue (R277): held while an earlier slot could undo it, and else written at once. -/

namespace Sys2Proof.Machine

/-! ### The entry of an operation -/

/-- A change of an entry that keeps its number is what the entry then shows. -/
theorem State.entry?_modEntry {f : Entry → Entry} (hf : ∀ e, (f e).id = e.id) (s : State) (n id : Nat) :
    (s.modEntry n id f).entry? n id = (s.entry? n id).map f := by
  have hkey : ((fun e : Entry => e.id == id) ∘ fun e => if e.id = id then f e else e) = fun e => e.id == id := by
    funext e
    dsimp only [Function.comp]
    split
    · rw [hf]
    · rfl
  rw [State.entry?, State.modEntry, State.strand_modStrand, if_pos rfl, List.find?_map, hkey]
  refine Option.map_congr fun e he => if_pos ?_
  exact eq_of_beq (List.find?_some (p := fun e : Entry => e.id == id) he)

theorem State.entry?_changed {s : State} {n id : Nat} {e : Entry} {f : Entry → Entry} (he : s.entry? n id = some e)
    (hf : ∀ x, (f x).id = x.id) : (s.modEntry n id f).entry? n id = some (f e) := by
  rw [State.entry?_modEntry hf, he]
  rfl

/-- An operation whose number no open one has is found as it opened. -/
theorem State.entry?_openOp {s : State} {n : Nat} {i : Instr} {st : Strand} (c : Cap) (r : Bool) (l : List Rd)
    (hfresh : ∀ x ∈ st.open_, x.id ≠ s.opId) :
    (s.openOp n 0 i st c r l).entry? n s.opId = some (mkEntry s.newId.2 st 0 s.opId i c r l) := by
  obtain ⟨sq, vq, hst⟩ := s.openOp_strand n i st c r l
  have hold : st.open_.find? (fun e => e.id == s.opId) = none :=
    List.find?_eq_none.mpr fun x hx => by simpa using hfresh x hx
  rw [State.entry?, hst]
  simp [Strand.withQueues, List.find?_append, hold, mkEntry]

/-! ### `PARK` -/

section
variable {s s1 : State} {d : BitVec 6} {k : BitVec 9} {g : Pass} {ok : Bool}

/-- The entry of a `PARK` that issues in state `s1`, with the flags of its operands. -/
def parkEntry (s1 : State) (g : Pass) (d : BitVec 6) (k : BitVec 9) : Entry :=
  { mkEntry s1.newId.2 g.st 0 s1.opId (.park d k) g.ain.cap true [] with fl := flagsA (.park d k) g }

theorem State.modEntry_cur (s : State) (n id : Nat) (f : Entry → Entry) : (s.modEntry n id f).cur = s.cur := rfl

/-- A `PARK` whose area is granted, open with its value. -/
def State.parked (s1 : State) (n : Nat) (g : Pass) (d : BitVec 6) (k : BitVec 9) : State :=
  (s1.openOp n 0 (.park d k) g.st g.ain.cap true []).modEntry n s1.opId (fun e => { e with fl := flagsA (.park d k) g })

theorem State.parked_cur (s1 : State) (n : Nat) (g : Pass) (d : BitVec 6) (k : BitVec 9) : (s1.parked n g d k).cur = s1.cur := by
  rw [State.parked, State.modEntry_cur, State.openOp_cur]

theorem State.parked_offUnits (s1 : State) (n : Nat) (g : Pass) (d : BitVec 6) (k : BitVec 9) :
    (s1.parked n g d k).offUnits = s1.newId.2.offUnits := s1.openOp_offUnits n _ _ _ _ _

theorem State.parked_entry? {s1 : State} (n : Nat) (hfresh : ∀ x ∈ g.st.open_, x.id ≠ s1.opId) :
    (s1.parked n g d k).entry? n s1.opId = some (parkEntry s1 g d k) := by
  rw [State.parked, State.entry?_modEntry, State.entry?_openOp _ _ _ hfresh]
  · rfl
  · exact fun _ => rfl

theorem State.parkEntry_mem_parked (s1 : State) (n : Nat) (g : Pass) (d : BitVec 6) (k : BitVec 9) :
    parkEntry s1 g d k ∈ ((s1.parked n g d k).strand n).open_ := by
  have h := mem_modEntry s1.opId (fun e => { e with fl := flagsA (.park d k) g })
    (s1.mkEntry_mem_openOp n (.park d k) g.st g.ain.cap true [])
  rwa [if_pos (show (mkEntry s1.newId.2 g.st 0 s1.opId (.park d k) g.ain.cap true []).id = s1.opId from rfl)] at h

theorem grantPark_cur (h : s.grantPark (coreOf s.cur) = (s1, ok)) : s1.cur = s.cur := by
  have hl := s.grantPark_ledger (coreOf s.cur)
  rw [h] at hl
  exact (congrArg State.cur hl :)

theorem exec_park_stalls (h : Passes s 0 (.park d k) g) (hfull : g.st.openFull (.park d k) = false)
    (hgrant : s.grantPark (coreOf s.cur) = (s1, false)) : exec (.park d k) s = .next (s1.stall s.cur) := by
  have hexec : exec (.park d k) s = execPark d k s := rfl
  unfold execPark at hexec
  have hrun := hexec.trans (runA_of_passesA _ _ h rfl rfl rfl hfull)
  rw [hgrant] at hrun
  rw [hrun, ← grantPark_cur hgrant]

theorem exec_park_granted (h : Passes s 0 (.park d k) g) (hfull : g.st.openFull (.park d k) = false)
    (hgrant : s.grantPark (coreOf s.cur) = (s1, true)) :
    exec (.park d k) s = .next (if g.st.slipped g.st.front.ctx.seq || g.st.parks then s1.parked s.cur g d k
      else ((s1.parked s.cur g d k).entry? s.cur s1.opId).elim (s1.parked s.cur g d k)
        fun e => (s1.parked s.cur g d k).parkWrite s.cur e k.toNat) := by
  have hcur := grantPark_cur hgrant
  have hexec : exec (.park d k) s = execPark d k s := rfl
  unfold execPark at hexec
  have hrun := hexec.trans (runA_of_passesA _ _ h rfl rfl rfl hfull)
  rw [hgrant] at hrun
  dsimp only at hrun
  rw [hcur] at hrun
  rw [hrun, ← State.parked, State.parked_cur, hcur]
  cases (s1.parked s.cur g d k).entry? s.cur s1.opId <;> rfl

theorem State.parked_strand {s1 : State} (n : Nat) (hfresh : ∀ x ∈ g.st.open_, x.id ≠ s1.opId) :
    (s1.parked n g d k).strand n = { g.st with open_ := g.st.open_ ++ [parkEntry s1 g d k] } := by
  have hold : g.st.open_.map (fun e => if e.id = s1.opId then { e with fl := flagsA (.park d k) g } else e) = g.st.open_ := by
    refine (List.map_congr_left fun x hx => ?_).trans (List.map_id _)
    exact if_neg (hfresh x hx)
  rw [State.parked, State.openOp_of_no_dest _ _ _ _ _ (by decide) rfl, State.modEntry, State.strand_modStrand, if_pos rfl,
    State.strand_setStrand, if_pos rfl]
  dsimp only
  rw [List.map_append, hold, List.map_singleton,
    if_pos (show (mkEntry s1.newId.2 g.st 0 s1.newId.1 (.park d k) g.ain.cap true []).id = s1.opId from rfl)]
  rfl

theorem State.parked_core (s1 : State) (n c : Nat) (g : Pass) (d : BitVec 6) (k : BitVec 9) :
    (s1.parked n g d k).core c = s1.core c := by
  rw [State.parked, State.openOp_of_no_dest _ _ _ _ _ (by decide) rfl]
  rfl

/-- An operation that completes without a value and holds no bank leaves the cores as they are. -/
theorem State.completeEntry_nil_core {e : Entry} (hcaps : e.caps = []) (t : State) (n c : Nat) (fl : LaneFlags) :
    (t.completeEntry n e [] fl).core c = t.core c := by
  have hwbs : entryWbs e [] = [] := by rw [entryWbs, List.zip_nil_right]; rfl
  rw [State.completeEntry, hwbs, hcaps]
  rfl

/-- The value stands in its entry of the park area, and the operation is over. -/
theorem State.parkWrite_parked {s1 : State} (n : Nat) (hfresh : ∀ x ∈ g.st.open_, x.id ≠ s1.opId) {u : State}
    (hu : (s1.parked n g d k).parkWrite n (parkEntry s1 g d k) k.toNat = u) :
    u.mem = s1.mem ∧ (u.strand n).open_ = g.st.open_ ∧ (u.strand n).regs = g.st.regs ∧
      ∀ j, mget? (u.core (coreOf n)).park j = if j = k.toNat then some g.vc else mget? (s1.core (coreOf n)).park j := by
  have hwrite : u = ((s1.parked n g d k).modCore (coreOf n) (fun x => { x with
      park := mset x.park k.toNat g.vc })).completeEntry n (parkEntry s1 g d k) [] 0 := by
    have hheld : (parkEntry s1 g d k).aux ≠ parkTaken := (by decide : (0 : W64) ≠ parkTaken)
    rw [← hu, State.parkWrite, if_neg hheld]
    rfl
  have hst := State.parked_strand (d := d) (k := k) n hfresh
  refine ⟨?_, ?_, ?_, fun j => ?_⟩ <;> rw [hwrite]
  · have hoff : (((s1.parked n g d k).modCore (coreOf n) (fun x => { x with
        park := mset x.park k.toNat g.vc })).completeEntry n (parkEntry s1 g d k) [] 0).offUnits = s1.newId.2.offUnits := by
      rw [State.completeEntry_offUnits, State.modCore_offUnits, State.parked_offUnits]
    exact (congrArg State.mem hoff :)
  · rw [State.completeEntry_nil_open, State.strand_modCore, hst]
    dsimp only
    rw [List.filter_append, show (parkEntry s1 g d k).id = s1.opId from rfl,
      List.filter_eq_self.mpr fun x hx => bne_iff_ne.mpr (hfresh x hx)]
    simp [parkEntry, mkEntry]
  · rw [State.completeEntry_nil_strand, State.strand_modCore, hst]
    exact Strand.remember_same Strand.regs (fun _ _ => rfl) (fun _ _ => rfl) _ _ _ _
  · rw [State.completeEntry_nil_core rfl, State.core_modCore, if_pos rfl, State.parked_core]
    simp [mget?_mset, eq_comm]

end

end Sys2Proof.Machine
end

section
/-! `SBIND` at its issue (R266, R267): its descriptor, in memory, is read at once, and its status waits for the write-back. -/

namespace Sys2Proof.Machine

/-- An `SBIND` whose status `v` is known, before its write-back. -/
def State.sbindStatus (s : State) (n id : Nat) (v : W64) : State :=
  s.modEntry n id (fun y => { y with resolved := true, step := 1, aux := v })

/-- Reading on changes of an entry its reads alone. -/
theorem readStep_entry {s s1 : State} {n : Nat} {e e1 : Entry} {acq ok : Bool} (h : s.readStep n e acq = (s1, e1, ok)) :
    e1.ain = e.ain := by
  unfold State.readStep at h
  cases h
  rfl

/-- An `SBIND` that has just read its descriptor, `y`, from memory. -/
structure SbindRead (s : State) (n : Nat) (e : Entry) (s1 : State) (e1 : Entry) (bs : List Byte) (y : Stream) : Prop where
  bound : (s.strand n).bound ≠ none
  step : e.step = 0
  performed : (s.strand n).performedBefore e.seq e.slot = true
  read : s.readStep n e false = (s1, e1, true)
  clk : s1.clk < e.clk + 2
  bytes : bytesAt e1.rds (sbindEa e.ain) 64 = (bs, false)
  desc : Stream.bindTo ((List.range 8).map (word64 bs)) 1 = y

theorem SbindRead.malformed {s s1 : State} {n : Nat} {e e1 : Entry} {bs : List Byte} {y : Stream} (h : SbindRead s n e s1 e1 bs y)
    (hy : y.malformed = true) : s.sbindStep n e = s1.sbindStatus n e.id 1 := by
  obtain ⟨bd, hbd⟩ := Option.ne_none_iff_exists'.mp h.bound
  simp only [State.sbindStep, hbd, h.step, h.performed, h.read, h.bytes, h.desc, hy, if_pos h.clk, Bool.not_true, Bool.false_eq_true,
    if_false, if_true, Nat.zero_ne_one]
  rfl

/-- A pattern that needs no tensor: refused when it is too long, and else bound from its start. -/
theorem SbindRead.plain {s s1 : State} {n : Nat} {e e1 : Entry} {bs : List Byte} {y : Stream} (h : SbindRead s n e s1 e1 bs y)
    (hy : y.malformed = false) (hparts : y.isTile = false ∨ y.isRaw = true) (hrow : y.isTile = true → y.cnt0 ≤ 64) :
    s.sbindStep n e = if 2 ^ 48 ≤ y.total then s1.sbindStatus n e.id 2
      else (s1.setStream n e.streamOf (some { y with parts := 1, length := y.total })).sbindStatus n e.id 0 := by
  obtain ⟨bd, hbd⟩ := Option.ne_none_iff_exists'.mp h.bound
  have hone : s1.partsOf n bd y e.aux = (s1, .ok 1) := by
    rw [State.partsOf, if_pos]
    rcases hparts with ht | hr
    · exact .inl (by rw [ht]; rfl)
    · exact .inr hr
  have hcnt : ¬ (y.isTile = true ∧ 64 * 1 < y.cnt0) := fun hc => absurd hc.2 (by have := hrow hc.1; omega)
  have hclk : (s1.setStream n e.streamOf (some { y with parts := 1, length := y.total })).clk < e.clk + 2 := h.clk
  simp only [State.sbindStep, hbd, h.step, h.performed, h.read, h.bytes, h.desc, hy, hone, if_neg hcnt, if_pos h.clk, if_pos hclk,
    Bool.not_true, Bool.false_eq_true, if_false, Nat.zero_ne_one]
  rfl

/-! ### Its issue -/

section
variable {s : State} {g : Pass} {p : Plan} {d a : BitVec 6} {q : Bool} {r : BitVec 4}

/-- The operation of an `SBIND` open, with the bank modes of its issue. -/
def State.sbindOpen (t : State) (n : Nat) (g : Pass) (rds : List Rd) (i : Instr) : State :=
  (t.openOp n 0 i g.st g.ain.cap false rds).modEntry n t.opId (fun e => { e with aux := t.modesNow n })

theorem exec_sbind_waits (h : PassesA s (.sbind d a q r) g p)
    (hw : (g.st.slipped g.st.front.ctx.seq || !g.st.performedBefore g.st.front.ctx.seq 0) = true) :
    exec (.sbind d a q r) s = .next (p.st.stall s.cur) := by
  obtain ⟨-, hcur, -⟩ := passesA_frame h
  obtain ⟨hpass, hp, htrap, hmiss, hfull⟩ := h
  have hexec : exec (.sbind d a q r) s = execSbind d a q r s := rfl
  unfold execSbind at hexec
  have hrun := hexec.trans (runA_of_passesA (fun x t => planSbind t.cur 0 x t) _ hpass hp htrap hmiss hfull)
  rw [hrun, if_pos hw, hcur]

theorem exec_sbind_opens (h : PassesA s (.sbind d a q r) g p)
    (hw : (g.st.slipped g.st.front.ctx.seq || !g.st.performedBefore g.st.front.ctx.seq 0) = false) :
    (memOnly p.rds = false → exec (.sbind d a q r) s = .next (p.st.sbindOpen s.cur g p.rds (.sbind d a q r))) ∧
    ∀ e, memOnly p.rds = true → (p.st.sbindOpen s.cur g p.rds (.sbind d a q r)).entry? s.cur p.st.opId = some e →
      exec (.sbind d a q r) s = .next
        (if (((p.st.sbindOpen s.cur g p.rds (.sbind d a q r)).sbindStep s.cur e).entry? s.cur p.st.opId).any (fun y => y.step == 0)
        then (p.st.keepMisses ((p.st.sbindOpen s.cur g p.rds (.sbind d a q r)).sbindStep s.cur e)).stall s.cur
        else (p.st.sbindOpen s.cur g p.rds (.sbind d a q r)).sbindStep s.cur e) := by
  obtain ⟨-, hcur, -⟩ := passesA_frame h
  obtain ⟨hpass, hp, htrap, hmiss, hfull⟩ := h
  have hexec : exec (.sbind d a q r) s = execSbind d a q r s := rfl
  unfold execSbind at hexec
  have hrun := hexec.trans (runA_of_passesA (fun x t => planSbind t.cur 0 x t) _ hpass hp htrap hmiss hfull)
  dsimp only at hrun
  rw [hcur, if_neg (ne_true_of_eq_false hw), ← State.sbindOpen] at hrun
  refine ⟨fun hm => ?_, fun e hm he => ?_⟩
  · rw [hrun, hm]
    rfl
  · rw [hrun, hm, he]
    rfl

/-- A status that is known is no step 0. -/
theorem State.sbindStatus_entry? (u : State) (n id : Nat) (v : W64) :
    ((u.sbindStatus n id v).entry? n id).any (fun y => y.step == 0) = false := by
  rw [State.sbindStatus, State.entry?_modEntry]
  · cases u.entry? n id <;> rfl
  · exact fun _ => rfl

theorem exec_sbind_status {e : Entry} {u : State} {v : W64} (h : PassesA s (.sbind d a q r) g p)
    (hw : (g.st.slipped g.st.front.ctx.seq || !g.st.performedBefore g.st.front.ctx.seq 0) = false) (hm : memOnly p.rds = true)
    (he : (p.st.sbindOpen s.cur g p.rds (.sbind d a q r)).entry? s.cur p.st.opId = some e)
    (hstep : (p.st.sbindOpen s.cur g p.rds (.sbind d a q r)).sbindStep s.cur e = u.sbindStatus s.cur e.id v) :
    exec (.sbind d a q r) s = .next (u.sbindStatus s.cur e.id v) := by
  have hid : e.id = p.st.opId := eq_of_beq (List.find?_some (p := fun x : Entry => x.id == p.st.opId) he)
  have hdone := u.sbindStatus_entry? s.cur e.id v
  rw [(exec_sbind_opens h hw).2 e hm he, hstep, ← hid, hdone]
  rfl

end

end Sys2Proof.Machine

open Sys2Proof Sys2Proof.Machine

/-- Settles O32: each form opens as its own function says; `PARK` and `SBIND` by what they do beside. -/
theorem slotAOpens : Obligations.SlotAOpens := by
  unfold Obligations.SlotAOpens
  refine ⟨fun s i g p hi h => exec_load_opens hi h, fun s i g p hi h => opens_of_staysOpen hi h, ?park, ?sbind⟩
  case park =>
    intro s s1 d k g ok h hfull hgrant c waits
    refine ⟨fun hok => ?_, fun hok hw => ?_, fun hok hw hfresh => ?_⟩ <;> subst hok
    · exact exec_park_stalls h hfull hgrant
    · have hoff := s1.parked_offUnits s.cur g d k
      refine ⟨_, (exec_park_granted h hfull hgrant).trans (congrArg _ (if_pos hw)), (congrArg State.mem hoff :), ?_,
        parkEntry s1 g d k, s1.parkEntry_mem_parked s.cur g d k, rfl, rfl, rfl, rfl, rfl, rfl⟩
      rw [State.parked_core]
    · have hentry := State.parked_entry? (d := d) (k := k) s.cur hfresh
      have hrun := (exec_park_granted h hfull hgrant).trans (congrArg _ (if_neg (ne_true_of_eq_false hw)))
      rw [hentry] at hrun
      exact ⟨_, hrun, State.parkWrite_parked s.cur hfresh rfl⟩
  case sbind =>
    intro s d a q r g p h i n waits t1
    refine ⟨fun hw => exec_sbind_waits h hw, fun hw => (exec_sbind_opens h hw).1, ?_⟩
    intro hw hm s2 e e1 bs he hi hstep _ hslot hclk hbound hperf hread hclk2 _ hbytes y status
    rw [readStep_entry hread] at hbytes
    have hsb : SbindRead t1 n e s2 e1 bs y :=
      ⟨hbound, hstep, by rw [hslot]; exact hperf, hread, by omega, hbytes, rfl⟩
    have hstream : e.streamOf = r.toNat := by rw [Entry.streamOf, hi]; rfl
    refine ⟨fun hy => exec_sbind_status h hw hm he (hsb.malformed hy), fun hy hparts hrow => ?_⟩
    have hplain := hsb.plain hy hparts hrow
    rw [hstream] at hplain
    exact ⟨fun hlong => exec_sbind_status h hw hm he (hplain.trans (if_pos hlong)),
      fun hshort => exec_sbind_status h hw hm he (hplain.trans (if_neg (Nat.not_le.mpr hshort)))⟩

end

section
/-! Tile loads, tile stores and prefetches at their issue (R261 to R264, R279, R290). -/

namespace Sys2Proof.Machine

/-! ### A tile request changes no strand -/

theorem State.park_strands (s : State) (w : Nat) (who : Waiter) (g : Tag) (minv : Nat) : (s.park w who g minv).1.strands = s.strands := by
  unfold State.park
  split
  · rfl
  · dsimp only
    split
    · rfl
    · split <;> rfl

theorem State.startFill_strands (s : State) (w : Nat) (b : Bound) (g : Tag) (minv hint : Nat) (who : Waiter) :
    (s.startFill w b g minv hint who).strands = s.strands := by
  have hclear (t : State) (k : Nat) : (((t.writeBackLazy w k).releaseOwn w k).freeSlot w k).strands = t.strands := by
    have hl : (((t.writeBackLazy w k).releaseOwn w k).freeSlot w k).ledger = t.ledger := by
      rw [State.freeSlot_ledger, State.releaseOwn_ledger, State.writeBackLazy_ledger]
    exact (congrArg State.strands hl :)
  unfold State.startFill
  dsimp only
  split
  · rfl
  · split
    · rfl
    · rw [State.modWing_strands, State.setSlot, State.modWing_strands, hclear]
      rfl

theorem State.leaseLines_strands (s : State) (own : List (Nat × Nat)) (pts : W64) (lines : List Nat) :
    (s.leaseLines own pts lines).1.strands = s.strands := by
  refine foldl_same (fun a : State × W64 × W64 => a.1.strands) _ _ _ fun a l => ?_
  dsimp only
  split
  · rfl
  · exact (congrArg State.strands (a.1.recall_offMemory l) :)

theorem State.tileReq_strands (s : State) (w : Nat) (b : Bound) (g : Tag) (minv hint : Nat) (who : Waiter) (pts : W64) :
    (s.tileReq w b g minv hint who pts).1.strands = s.strands := by
  unfold State.tileReq
  extract_lets parkWait miss hit
  have hwait (t : State) : (parkWait t).1.strands = t.strands := t.park_strands w who g minv
  have hhit (t : State) (k : Nat) : (hit t k).1.strands = t.strands := rfl
  have hmiss (t : State) : (miss t).1.strands = t.strands := by
    unfold miss
    split
    · dsimp only
      split
      · exact t.park_strands w who g minv
      · exact t.park_strands w who g minv
    · split
      · exact hwait t
      · dsimp only
        split
        · exact t.park_strands w who g minv
        · exact (State.startFill_strands _ _ _ _ _ _ _).trans (t.park_strands w who g minv)
  split
  · exact hmiss s
  split
  · split
    · exact hhit s _
    · exact hmiss s
  split
  · split
    · exact hmiss s
    · exact hwait s
  split
  · exact hhit s _
  dsimp only
  split
  · rw [hhit]
    exact s.leaseLines_strands _ _ _
  · exact hmiss s

/-! ### `LDT` and `STT` -/

/-- An operation on a tile open, its request still to be made. -/
def State.tileOpen (t : State) (n : Nat) (i : Instr) (g : Pass) : State :=
  (t.openOp n 0 i g.st g.ain.cap false []).modEntry n t.opId (fun e => { e with fl := flagsA i g })

/-- The least version that the request asks for. -/
def tileMinv (i : Instr) (b : W64) : Nat :=
  match i with
  | .ldt .. => refMinv b
  | _ => 0

def TileAns.isFull (r : TileAns) : Bool :=
  match r with
  | .full => true
  | _ => false

/-- The request of an `LDT` or `STT` on the state `t` that the checks leave. -/
def State.tileAsked (t : State) (i : Instr) (g : Pass) (bd : Bound) : State × TileAns :=
  (t.tileOpen t.cur i g).tileReq (wingOf t.cur) bd (tagOf bd.asid (refTid g.sb.v) g.sa.v) (tileMinv i g.sb.v) (refHint g.sb.v)
    (.op t.cur t.opId) (t.pts t.cur)

theorem exec_tile {s : State} {i : Instr} {g : Pass} {p : Plan} {bd : Bound} (hexec : exec i s = s.issueTile i)
    (hplan : planOf i s.cur g.ain s = planTile g.ain s) (h : PassesA s i g p) (hbound : g.st.bound = some bd) :
    exec i s = .next (if (p.st.tileAsked i g bd).2.isFull then p.st.stall p.st.cur else (p.st.tileAsked i g bd).1) := by
  obtain ⟨hpass, hp, htrap, hmiss, hfull⟩ := h
  unfold State.issueTile at hexec
  rw [hexec, runA_of_passesA _ _ hpass (hplan.symm.trans hp) htrap hmiss hfull, hbound]
  change Host.Outcome.next (match p.st.tileAsked i g bd with
    | (_, .full) => p.st.stall p.st.cur
    | (t1, _) => t1) = _
  obtain ⟨t1, r⟩ := p.st.tileAsked i g bd
  cases r <;> rfl

/-! ### `PREFL` -/

/-- A load whose translation is held finds the state as it was. -/
theorem State.xlateUse_load_ok {s t : State} {sp : Space} {w pa : Nat} {e y : Tlb} {va : W64}
    (h : s.xlateUse sp w e va .load = (t, .ok pa y)) : t = s := by
  have hload (c : Bool) : ¬ (Acc.load = Acc.store ∧ c = true) := fun hc => Acc.noConfusion hc.1
  unfold State.xlateUse at h
  rw [if_neg (hload _)] at h
  split at h
  · cases h
  · rw [if_neg (hload _)] at h
    cases h
    rfl

/-- A translation found for a load changes the core's TLB at most. -/
theorem State.xlate_load_ok {s t : State} {n pa : Nat} {y : Tlb} {va : W64} (h : s.xlate n va .load = (t, .ok pa y)) :
    t = s ∨ ∃ f, t = s.modCore (coreOf n) f := by
  unfold State.xlate at h
  split at h
  · cases h
  dsimp only at h
  split at h
  · cases h
  split at h
  · exact .inl (State.xlateUse_load_ok h)
  split at h
  · exact .inr ⟨_, State.xlateUse_load_ok h⟩
  · unfold State.xlateMiss at h
    dsimp only at h
    split at h <;> cases h

theorem State.xlate_load_ok_view {s t : State} {n pa : Nat} {y : Tlb} {va : W64} (h : s.xlate n va .load = (t, .ok pa y))
    (b : Nat) : t.view b = s.view b := by
  rcases State.xlate_load_ok h with rfl | ⟨f, rfl⟩ <;> rfl

theorem immEa_prefl (g : Pass) (l : BitVec 2) (a : BitVec 6) (q : Bool) (im : BitVec 12) :
    immEa (.prefl l a q im) g.ain = g.sa.v + immValue g im := by
  rw [← immOf_eq]
  rfl

/-- A prefetch that its checks let through: what it does with its address, translated or not. -/
theorem exec_prefl {s : State} {l : BitVec 2} {a : BitVec 6} {q : Bool} {im : BitVec 12} {g : Pass} (h : Passes s 0 (.prefl l a q im) g)
    (hfull : g.st.openFull (.prefl l a q im) = false) :
    (g.sa.t = true → exec (.prefl l a q im) s = .next (s.setStrand s.cur g.st)) ∧
    ∀ t r, g.sa.t = false → s.xlate s.cur (g.sa.v + immValue g im) .load = (t, r) →
      (r = .miss → exec (.prefl l a q im) s = .next (t.stall s.cur)) ∧
      ((∃ y z, r = .fault y z) → exec (.prefl l a q im) s = .next (t.setStrand s.cur g.st)) ∧
      ∀ pa y, r = .ok pa y → exec (.prefl l a q im) s = .next (if !paHome pa then t.setStrand s.cur g.st
        else (t.loadLine (if l = 0 then some (coreOf s.cur) else none) (dieOf s.cur) (t.asidOf s.cur) (t.pts s.cur) (pa / 256)
          false).st.setStrand s.cur g.st) := by
  have hexec : exec (.prefl l a q im) s = execPrefl l a q im s := rfl
  unfold execPrefl at hexec
  have hrun := hexec.trans (runA_of_passesA _ _ h rfl rfl rfl hfull)
  dsimp only at hrun
  rw [immEa_prefl] at hrun
  have htag : g.ain.cap.x.tag 0 = g.sa.t := rfl
  rw [htag] at hrun
  refine ⟨fun ht => hrun.trans (by rw [ht]; rfl), fun t r ht hx => ?_⟩
  rw [ht, hx] at hrun
  refine ⟨?_, ?_, ?_⟩
  · rintro rfl
    exact hrun
  · rintro ⟨y, z, rfl⟩
    exact hrun
  · rintro pa y rfl
    exact hrun

end Sys2Proof.Machine

open Sys2Proof Sys2Proof.Machine

/-- Settles O37: a tile request changes no strand; a prefetch reads a line, which leaves every byte as it reads. -/
theorem tilesIssue : Obligations.TilesIssue := by
  unfold Obligations.TilesIssue
  refine ⟨?tiles, ?prefetch⟩
  case tiles =>
    intro s t1 i g p bd r hi h hbound minv t0 hreq
    obtain ⟨-, hcur, -⟩ := passesA_frame h
    have hasked : p.st.tileAsked i g bd = (t1, r) := by
      rw [← hreq, State.tileAsked, hcur]
      rcases hi with ⟨d, a, b, c, q, raw, ty, rfl⟩ | ⟨d, a, b, c, q, raw, ty, rfl⟩ <;> rfl
    have hrun : exec i s = .next (if r.isFull then p.st.stall s.cur else t1) := by
      rcases hi with ⟨d, a, b, c, q, raw, ty, rfl⟩ | ⟨d, a, b, c, q, raw, ty, rfl⟩
      all_goals
        have := exec_tile rfl rfl h hbound
        rwa [hasked, hcur] at this
    have hstrands : t1.strands = t0.strands := by
      rw [← State.tileReq_strands t0, hreq]
    refine ⟨fun hr => ?_, fun hr => ⟨?_, hstrands⟩⟩
    · rw [hrun, hr]
      rfl
    · cases r
      case full => exact absurd rfl hr
      all_goals exact hrun
  case prefetch =>
    intro s l a q im g i h hfull
    obtain ⟨htagged, hrest⟩ := exec_prefl h hfull
    refine ⟨htagged, fun ht t hx => (hrest t _ ht hx).1 rfl, fun ht t hx => ?_, fun ht t pa y hx => ?_⟩
    · obtain ⟨y, z, hyz⟩ := hx
      exact (hrest t _ ht hyz).2.1 ⟨y, z, rfl⟩
    · have hrun := (hrest t _ ht hx).2.2 pa y rfl
      have hview := State.xlate_load_ok_view hx
      refine ⟨_, hrun, ?_, fun b => ?_⟩
      · split <;> rw [State.strand_setStrand, if_pos rfl]
      · rw [State.readBytes_one, State.readBytes_one, ← hview b]
        split
        · rfl
        · exact congrArg (fun x => [x]) ((State.loadLine_view _ _ _ _ _ _).2 b)

end

section
/-! `WAITV_REREAD` (R275, R337): what becomes of a value read, and when the word is read. -/

namespace Sys2Proof.Machine

/-! ### A load leaves the open operations -/

theorem State.loadLine_strands (s : State) (core : Option Nat) (die asid : Nat) (pts : W64) (line : Nat) (acq : Bool) :
    (s.loadLine core die asid pts line acq).st.strands = s.strands := by
  have hrecall : (s.recall line).strands = s.strands := (congrArg State.strands (s.recall_offMemory line) :)
  unfold State.loadLine
  extract_lets l1 l2 s0 h grant cp s1 s2 s3 fromHome
  have hhome : fromHome.st.strands = s.strands := by
    unfold fromHome s3
    split
    · exact hrecall
    · exact hrecall
  clear_value l1 l2 fromHome
  split
  · exact hhome
  split
  · split
    · rfl
    · split
      · split
        · dsimp only
          split <;> rfl
        · exact hhome
      · exact hhome
  · split
    · split
      · dsimp only
        split <;> rfl
      · exact hhome
    · exact hhome

theorem State.setPts_open (s : State) (n : Nat) (p : W64) (m : Nat) : ((s.setPts n p).strand m).open_ = (s.strand m).open_ :=
  s.modStrand_same Strand.open_ n m (fun st => { st with ctl := { st.ctl with pts := p } }) fun _ => rfl

theorem State.load_open (s : State) (n pa len : Nat) (acq : Bool) (m : Nat) :
    ((s.load n pa len acq).1.strand m).open_ = (s.strand m).open_ := by
  refine (State.setPts_open _ n _ m).trans ?_
  rw [State.strand, State.loadLine_strands]
  rfl

theorem State.load_entry? (s : State) (n pa len : Nat) (acq : Bool) (m id : Nat) :
    (s.load n pa len acq).1.entry? m id = s.entry? m id := by
  rw [State.entry?, State.load_open]
  rfl

/-! ### The value read (Table 11-13) -/

theorem waitvHolds_iff (c : BitVec 3) (word : Bool) (v b : Nat) :
    waitvHolds c.toNat (if word then 4 else 8) v b = true ↔ waitvCond c word v b := by
  have hm : 2 ^ (8 * (if word then 4 else 8)) = if word then 2 ^ 32 else 2 ^ 64 := by cases word <;> rfl
  unfold waitvHolds waitvCond
  simp only [sIntN_mod]
  simp only [sIntN_eq_bmod, hm]
  generalize c.toNat = k
  match k with
  | 0 => simp
  | 1 => simp
  | 2 => simp
  | 3 => simp
  | 4 => simp
  | k + 5 => simp

/-! ### What becomes of it -/

/-- An entry put in the place of one of its number is found there. -/
theorem State.entry?_replaced {s : State} {n id : Nat} {e e' : Entry} (hid : e'.id = id) (he : s.entry? n id = some e) :
    (s.modEntry n id (fun _ => e')).entry? n id = some e' := by
  have hsame : s.modEntry n id (fun _ => e') = s.modEntry n id (fun x => if x.id = id then e' else x) := by
    unfold State.modEntry
    congr 1
    funext st
    congr 1
    refine List.map_congr_left fun x _ => ?_
    split
    case isTrue h => exact (if_pos h).symm
    case isFalse => rfl
  have hkeep (x : Entry) : (if x.id = id then e' else x).id = x.id := by
    split
    case isTrue h => exact hid.trans h.symm
    case isFalse => rfl
  rw [hsame, State.entry?_changed he hkeep]
  exact congrArg some (if_pos (eq_of_beq (List.find?_some (p := fun x : Entry => x.id == id) he)))

section
variable {s : State} {n : Nat} {e : Entry} {d a b : BitVec 6} {p q : Bool} {c : BitVec 3} {w : Bool}

theorem waitvPlace_eq (hi : e.instr = .waitv d a b p q c w) :
    waitvPlace e.instr e.ain = (if w then 4 else 8, e.ain.av &&& ~~~(if w then 3#64 else 7#64)) := by
  rw [hi]
  cases w <;> rfl

theorem waitvMeets_iff (hi : e.instr = .waitv d a b p q c w) (v : Nat) :
    e.waitvMeets v = true ↔ waitvCond c w v e.ain.bv.toNat := by
  have hmeets : e.waitvMeets v = waitvHolds c.toNat (waitvPlace e.instr e.ain).1 v e.ain.bv.toNat := by
    simp only [Entry.waitvMeets, hi]
  rw [hmeets, waitvPlace_eq hi]
  exact waitvHolds_iff c w v _

/-- A change of entries alone: memory, registers and the other strands stand. -/
theorem State.modEntry_frame (t : State) (n id : Nat) (f : Entry → Entry) : (t.modEntry n id f).mem = t.mem ∧
    ((t.modEntry n id f).strand n).regs = (t.strand n).regs ∧ ∀ m, m ≠ n → (t.modEntry n id f).strand m = t.strand m := by
  refine ⟨rfl, ?_, fun m hm => ?_⟩ <;> rw [State.modEntry, State.strand_modStrand]
  · rw [if_pos rfl]
  · rw [if_neg (Ne.symm hm)]

theorem waitvJudge_outcome {t : State} (hi : e.instr = .waitv d a b p q c w) (he : t.entry? n e.id = some e) (v : Nat) (m : Bool)
    (wts : W64) : WaitvOutcome t n e c w v m wts (t.waitvJudge n e v m wts) := by
  unfold WaitvOutcome State.waitvJudge
  refine ⟨fun hm => by rw [if_pos hm, waitvPlace_eq hi], fun hm => ?_⟩
  rw [if_neg (ne_true_of_eq_false hm)]
  by_cases hmeets : e.waitvMeets v = true
  · rw [if_pos hmeets]
    obtain ⟨hmem, hregs, hother⟩ := t.modEntry_frame n e.id (fun y => { y with
      resolved := true, step := waitvMet, aux := BitVec.ofNat 64 v, clk := t.clk + 1 })
    refine ⟨hmem, hregs, hother, _, State.entry?_changed he fun _ => rfl, ?_⟩
    exact ⟨fun _ => ⟨rfl, rfl, rfl, rfl⟩, fun hn => absurd ((waitvMeets_iff hi v).mp hmeets) hn⟩
  · rw [if_neg hmeets]
    obtain ⟨hmem, hregs, hother⟩ := t.modEntry_frame n e.id (fun y => { y with
      step := waitvWatching, aux := wts, clk := t.clk, rds := y.rds.map (fun r => { r with got := some ([], false) }) })
    refine ⟨hmem, hregs, hother, _, State.entry?_changed he fun _ => rfl, ?_⟩
    exact ⟨fun hc => absurd ((waitvMeets_iff hi v).mpr hc) hmeets, fun _ => ⟨rfl, rfl, rfl, rfl⟩⟩

/-! ### When the word is read -/

theorem State.waitvRead_mem {t s1 : State} {rd : Rd} {l : List Rd} {pa : Nat} {bs : List Byte} {m : Bool} (hrds : e.rds = rd :: l)
    (htgt : rd.tgt = .mem pa) (hload : t.load n pa rd.len true = (s1, bs, m)) :
    t.waitvRead n e = s1.waitvJudge n e (leNat bs) m (s1.home (pa / 256)).wts := by
  simp only [State.waitvRead, hrds, htgt, hload]

theorem State.waitvRead_window {t : State} {rd : Rd} {l : List Rd} {win dst pa : Nat} (hrds : e.rds = rd :: l)
    (htgt : rd.tgt = .window win dst pa) : (∀ bs m, rd.got = some (bs, m) → t.waitvRead n e = t.waitvJudge n e (leNat bs) m 0) ∧
    (rd.got = none → t.waitvRead n e = if (t.strand n).requested e.id then t else t.sendReq n e.id dst (.load rd.len) pa []) := by
  constructor
  · intro bs m hgot
    simp only [State.waitvRead, hrds, htgt, hgot]
  · intro hgot
    simp only [State.waitvRead, hrds, htgt, hgot]

theorem execWaitvReread_idle (he : s.entry? n e.id = some e) (hmet : e.step ≠ 2)
    (h : (s.strand n).mayPerform e = false ∨ (e.step ≠ 0 ∧ ¬ (e.step = 3 ∨ e.clk + 4096 ≤ s.clk))) :
    exec (.waitvReread n e.id) s = .next s := by
  have hidle : (!(s.strand n).mayPerform e || !s.waitvDue e) = true := by
    rcases h with h | ⟨h0, hdue⟩
    · rw [h]
      rfl
    · have hnot : s.waitvDue e = false := by
        simp only [State.waitvDue, waitvReading, waitvSeen, Bool.or_eq_false_iff, beq_eq_false_iff_ne, decide_eq_false_iff_not]
        omega
      rw [hnot, Bool.not_false, Bool.or_true]
  change execWaitvReread n e.id s = _
  simp only [execWaitvReread, he, if_neg (show ¬ e.step = waitvMet from hmet), hidle, if_true]

theorem execWaitvReread_reading (he : s.entry? n e.id = some e) (hp : (s.strand n).mayPerform e = true) (h0 : e.step = 0) :
    exec (.waitvReread n e.id) s = .next (s.waitvRead n e) := by
  have hbusy : (!(s.strand n).mayPerform e || !s.waitvDue e) = false := by
    rw [hp, State.waitvDue, h0]
    rfl
  change execWaitvReread n e.id s = _
  simp only [execWaitvReread, he, if_neg (show ¬ e.step = waitvMet by rw [h0]; decide), hbusy, Bool.false_eq_true, if_false,
    if_pos (show e.step = waitvReading from h0)]

/-- The checks that a `WAITV` makes again before a read (R78, R337). -/
def waitvPlan (s : State) (n : Nat) (e : Entry) (w : Bool) : Plan :=
  ((({ st := s } : Plan)).poison (e.ain.cap.x.tag 0) 0 (e.ain.av &&& ~~~(if w then 3#64 else 7#64))).access n 0 .load
    (e.ain.av &&& ~~~(if w then 3#64 else 7#64)) (if w then 4 else 8)

theorem planWaitv_eq (hi : e.instr = .waitv d a b p q c w) : planWaitv e.instr n 0 e.ain s = waitvPlan s n e w := by
  rw [planWaitv, waitvPlace_eq hi]
  rfl

theorem waitvPlan_strands (s : State) (n : Nat) (e : Entry) (w : Bool) : (waitvPlan s n e w).st.strands = s.strands := by
  have hoff : (waitvPlan s n e w).st.offTlbs = s.offTlbs := by rw [waitvPlan, Plan.access_offTlbs, Plan.poison_st]
  exact (congrArg State.strands hoff :)

theorem execWaitvReread_due (hi : e.instr = .waitv d a b p q c w) (he : s.entry? n e.id = some e) (hmet : e.step ≠ 2)
    (hp : (s.strand n).mayPerform e = true) (h0 : e.step ≠ 0) (hdue : e.step = 3 ∨ e.clk + 4096 ≤ s.clk) :
    (∀ t, (waitvPlan s n e w).verdict = some t → exec (.waitvReread n e.id) s = .next ((waitvPlan s n e w).st.trapEntry n e t)) ∧
    ((waitvPlan s n e w).verdict = none → exec (.waitvReread n e.id) s = .next (if (waitvPlan s n e w).miss then (waitvPlan s n e w).st
      else ((waitvPlan s n e w).st.modEntry n e.id (fun _ => { e with rds := (waitvPlan s n e w).rds, step := 0 })).waitvRead n
        { e with rds := (waitvPlan s n e w).rds, step := 0 })) := by
  have hready : s.waitvDue e = true := by
    simp only [State.waitvDue, waitvReading, waitvSeen, Bool.or_eq_true, beq_iff_eq, decide_eq_true_eq]
    omega
  have hbusy : (!(s.strand n).mayPerform e || !s.waitvDue e) = false := by rw [hp, hready]; rfl
  have hexec : exec (.waitvReread n e.id) s = execWaitvReread n e.id s := rfl
  simp only [execWaitvReread, he, if_neg (show ¬ e.step = waitvMet from hmet), hbusy, Bool.false_eq_true, if_false,
    if_neg (show ¬ e.step = waitvReading from h0), planWaitv_eq hi] at hexec
  refine ⟨fun t ht => ?_, fun hv => ?_⟩
  · rw [hexec, ht]
  · rw [hexec, hv]
    dsimp only
    split <;> rfl

/-- The read that follows the checks finds the operation as they left it. -/
theorem waitvPlan_entry? (he : s.entry? n e.id = some e) : ((waitvPlan s n e w).st.modEntry n e.id
    (fun _ => { e with rds := (waitvPlan s n e w).rds, step := 0 })).entry? n e.id =
      some { e with rds := (waitvPlan s n e w).rds, step := 0 } := by
  refine State.entry?_replaced rfl (e := e) ?_
  rw [State.entry?, State.strand, waitvPlan_strands]
  exact he

/-! ### Writes of the line (R337) -/

theorem State.writeSeen_of_line {rd : Rd} {pa : Nat} (hi : e.instr = .waitv d a b p q c w) (hstep : e.step = 1) (hrd : rd ∈ e.rds)
    (htgt : rd.tgt = .mem pa) (hwts : (s.home (pa / 256)).wts ≠ e.aux) : s.writeSeen e = true := by
  have hany : e.rds.any (fun r => match r.tgt with
      | .mem pa => decide ((s.home (pa / 256)).wts ≠ e.aux)
      | .window _ _ _ => false) = true := by
    refine List.any_eq_true.mpr ⟨rd, hrd, ?_⟩
    rw [htgt]
    exact decide_eq_true hwts
  unfold State.writeSeen
  rw [hi, hstep]
  exact hany

/-- A clock that begins shows a write of its line to a `WAITV` that watches. -/
theorem State.startClock_entry? (he : s.entry? n e.id = some e) (hseen : s.writeSeen e = true) :
    s.startClock.entry? n e.id = some { e with step := 3 } := by
  have hst : s.startClock.strand n = s.withWritesSeen (s.strand n) := s.strand_noteWrites n
  have hany : (s.strand n).open_.any s.writeSeen = true :=
    List.any_eq_true.mpr ⟨e, List.mem_of_find?_eq_some he, hseen⟩
  have hkey : ((fun x : Entry => x.id == e.id) ∘ fun x => if s.writeSeen x then { x with step := waitvSeen } else x) =
      fun x => x.id == e.id := by
    funext x
    dsimp only [Function.comp]
    split <;> rfl
  rw [State.entry?, hst, State.withWritesSeen, if_pos hany]
  dsimp only
  rw [List.find?_map, hkey]
  refine (congrArg _ he).trans ?_
  rw [Option.map_some, if_pos hseen]
  rfl

end

end Sys2Proof.Machine
end

section
/-! `STREAM_PATTERN_READ` (R266, R270): what a stream keeps of a pattern vector, and the reads that give it. -/

namespace Sys2Proof.Machine

/-! ### Keeping a vector -/

theorem mget?_filter_le {α : Type} (lo : Nat) (m : AMap α) (i : Nat) :
    mget? (m.filter (fun p => decide (lo ≤ p.1))) i = if lo ≤ i then mget? m i else none := by
  induction m with
  | nil => simp [mget?]
  | cons x r ih =>
    obtain ⟨j, v⟩ := x
    by_cases hj : lo ≤ j
    · rw [List.filter_cons_of_pos (by simpa using hj)]
      by_cases hji : j = i
      · subst hji
        simp [mget?, hj]
      · simp [mget?, hji, ih]
    · rw [List.filter_cons_of_neg (by simpa using hj), ih]
      by_cases hi : lo ≤ i
      · have hji : j ≠ i := fun h => hj (h ▸ hi)
        simp [mget?, hi, hji]
      · rw [if_neg hi, if_neg hi]

/-- A stream register that is set holds what it was set to. -/
theorem State.setStream_get (u : State) (n q : Nat) (y : Stream) :
    mget? ((u.setStream n q (some y)).strand n).streams q = some y := by
  rw [State.setStream, State.strand_modStrand, if_pos rfl]
  exact (mget?_mset ..).trans (if_pos rfl)

theorem gotVector_keep (u : State) (n q lo j : Nat) (y : Stream) (v : VV) (f : LaneFlags) :
    GotVector (u.setStream n q (some (y.keep lo j v f))) n q lo j y v f := by
  refine ⟨_, u.setStream_get n q _, (mget?_mset ..).trans (if_pos rfl), (mget?_mset ..).trans (if_pos rfl), rfl, rfl, rfl, rfl, rfl,
    fun i hi => ?_⟩
  exact ((mget?_mset ..).trans (if_neg (Ne.symm hi))).trans (mget?_filter_le lo y.raw i)

/-! ### The step -/

section
variable {s : State} {n q lo hi j : Nat} {y : Stream}

theorem execStreamPatternRead_unbound (h : mget? (s.strand n).streams q = none) : exec (.streamPatternRead n q) s = .next s := by
  change execStreamPatternRead n q s = _
  simp only [execStreamPatternRead, h]

theorem execStreamPatternRead_idle (h : mget? (s.strand n).streams q = some y)
    (hidle : (s.strand n).streamPending q = true ∨ y.missing (s.core (coreOf n)) = none) :
    exec (.streamPatternRead n q) s = .next s := by
  change execStreamPatternRead n q s = _
  rcases hidle with hp | hm
  · simp only [execStreamPatternRead, h, hp, if_true]
  · simp only [execStreamPatternRead, h, hm]
    split <;> rfl

theorem execStreamPatternRead_reads (h : mget? (s.strand n).streams q = some y) (hp : (s.strand n).streamPending q = false)
    (hm : y.missing (s.core (coreOf n)) = some j) (hn : y.needs (s.core (coreOf n)) = some (lo, hi)) :
    exec (.streamPatternRead n q) s = .next (if y.isTile then s.patternTile n q lo j y else s.patternMem n q lo j y) := by
  change execStreamPatternRead n q s = _
  simp only [execStreamPatternRead, h, hp, hm, hn, Bool.false_eq_true, if_false]

/-! ### A pattern in memory -/

/-- The checks of pattern vector `j` in memory. -/
def patternPlan (s : State) (n : Nat) (y : Stream) (j : Nat) : Plan :=
  (({ st := s } : Plan)).readReg n 1 y.tyField y.isRaw (~~~0#64) (s.modeOf n) (y.va j)

theorem patternMem_fault {t : Trap} (hr : y.rds = []) (ht : (patternPlan s n y j).verdict = some t) : s.patternMem n q lo j y =
    (patternPlan s n y j).st.setStream n q (some { y with fault := some (j, t), rds := [] }) := by
  rw [patternPlan] at ht
  simp only [State.patternMem, hr, List.isEmpty_nil, true_or, if_true, ht]
  rfl

theorem patternMem_waits (hr : y.rds = []) (ht : (patternPlan s n y j).verdict = none) (hw : (patternPlan s n y j).miss = true ∨
    (rdBanks y.isRaw (patternPlan s n y j).rds).any (fun b => (s.strand n).bankPending b) = true) :
    s.patternMem n q lo j y = (patternPlan s n y j).st := by
  have hwaits : ((patternPlan s n y j).miss || (rdBanks y.isRaw (patternPlan s n y j).rds).any
      (fun b => (s.strand n).bankPending b)) = true := by simpa using hw
  rw [patternPlan] at ht hwaits
  simp only [State.patternMem, hr, List.isEmpty_nil, true_or, if_true, ht, hwaits]
  rfl

theorem patternMem_reads {s1 : State} {l : List Rd} (hr : y.rds = []) (ht : (patternPlan s n y j).verdict = none)
    (hmiss : (patternPlan s n y j).miss = false)
    (hb : (rdBanks y.isRaw (patternPlan s n y j).rds).any (fun b => (s.strand n).bankPending b) = false)
    (hreads : (patternPlan s n y j).st.patternReads n q (patternPlan s n y j).rds [] = (s1, l, true)) :
    s.patternMem n q lo j y = s1.setStream n q (some (y.keep lo j
      (decodeReg l y.tyField y.isRaw (~~~0#64) (s1.copyOf n []) (y.va j)).1
      (decodeReg l y.tyField y.isRaw (~~~0#64) (s1.copyOf n []) (y.va j)).2)) := by
  rw [patternPlan] at ht hmiss hb hreads
  simp only [State.patternMem, hr, List.isEmpty_nil, true_or, if_true, ht, hmiss, hb, hreads, Bool.or_false, Bool.false_eq_true,
    if_false, Bool.not_true]

end

/-! ### A raw vector of one read -/

/-- The one read of a raw vector that lies in one line. -/
def rawRead (va : W64) (tgt : Target) (w0 w1 : W64) (bs : List Byte) (m : Bool) : Rd := ⟨va, tgt, 256, w0, w1, some (bs, m), false⟩

theorem byteAt_rawRead (va : W64) (tgt : Target) (w0 w1 : W64) (bs : List Byte) (m : Bool) {i : Nat} (h : i < 256) :
    byteAt [rawRead va tgt w0 w1 bs m] (va + BitVec.ofNat 64 i) = ((bs.drop i).headD 0, m) := by
  have hoff : (va + BitVec.ofNat 64 i - va).toNat = i := by
    rw [BitVec.add_comm, BitVec.add_sub_cancel, BitVec.toNat_ofNat]
    omega
  simp only [byteAt, rawRead, List.find?_cons, hoff, decide_eq_true h]

theorem take_four {bs : List Byte} {i : Nat} (h : i + 4 ≤ bs.length) :
    (List.range 4).map (fun j => (bs.drop (i + j)).headD 0) = (bs.drop i).take 4 := by
  refine List.ext_getElem (by simp; omega) fun j h1 h2 => ?_
  simp at h1
  have hj : i + j < bs.length := by omega
  simp [List.getElem_take, List.getElem_drop, List.headD_eq_head?_getD, List.head?_drop, hj]

theorem natAt_rawRead (va : W64) (tgt : Target) (w0 w1 : W64) {bs : List Byte} (m : Bool) (hbs : bs.length = 256) {k : Nat} (h : k < 64) :
    natAt [rawRead va tgt w0 w1 bs m] (va + BitVec.ofNat 64 (4 * k)) 4 = (leNat ((bs.drop (4 * k)).take 4), m) := by
  have hbytes : (List.range 4).map (fun i => byteAt [rawRead va tgt w0 w1 bs m] (va + BitVec.ofNat 64 (4 * k) + BitVec.ofNat 64 i)) =
      (List.range 4).map (fun i => ((bs.drop (4 * k + i)).headD 0, m)) := by
    refine List.map_congr_left fun i hi => ?_
    have hi4 : i < 4 := List.mem_range.mp hi
    rw [BitVec.add_assoc, ← BitVec.ofNat_add, byteAt_rawRead _ _ _ _ _ _ (by omega)]
  rw [natAt, bytesAt, hbytes, ← take_four (show 4 * k + 4 ≤ bs.length by omega)]
  simp only [List.map_map, Function.comp_def, List.any_map]
  cases m <;> rfl

/-! ### Its lanes -/

theorem laneFlags_flagsOfEls (f : Nat → El) {j : Nat} (h : j < 64) :
    (laneFlags (flagsOfEls 32 ((List.range 64).map f)) j).toNat = ((if (f j).t then fPS else 0) ||| (f j).f) % 128 := by
  have hd : List.take 1 (List.drop j (List.range 64)) = [j] := by
    rw [List.drop_eq_getElem_cons (by simpa using h)]
    simp
  rw [flagsOfEls, laneFlags_flagsOfList _ _ h]
  simp [groupElems, h, ← List.map_drop, ← List.map_take, hd]

/-- PS of a lane, as its seven flag bits. -/
theorem eq_psFlags {x : BitVec 7} {m : Bool} (h : x.toNat = (if m then fPS else 0) % 128) : x = if m then 64#7 else 0#7 := by
  refine BitVec.eq_of_toNat_eq (h.trans ?_)
  cases m <;> rfl

/-- A raw register of one read: the bytes as they lie, tagged when their line is marked. -/
theorem decodeReg_rawRead (va : W64) (tgt : Target) (w0 w1 : W64) {bs : List Byte} (m : Bool) (hbs : bs.length = 256) (ty : Nat)
    (copy : Nat → BankCopy) {k : Nat} (h : k < 64) :
    lane (decodeReg [rawRead va tgt w0 w1 bs m] ty true (~~~0#64) copy va).1.v k =
        BitVec.ofNat 32 (leNat ((bs.drop (4 * k)).take 4)) ∧
      (decodeReg [rawRead va tgt w0 w1 bs m] ty true (~~~0#64) copy va).1.tag k = m ∧
      laneFlags (decodeReg [rawRead va tgt w0 w1 bs m] ty true (~~~0#64) copy va).2 k = if m then 64#7 else 0#7 := by
  have hel : (if (~~~0#64).getLsbD k then (⟨(natAt [rawRead va tgt w0 w1 bs m] (va + BitVec.ofNat 64 (4 * k)) 4).1,
      (natAt [rawRead va tgt w0 w1 bs m] (va + BitVec.ofNat 64 (4 * k)) 4).2, 0⟩ : El) else ⟨0, false, 0⟩) =
      ⟨leNat ((bs.drop (4 * k)).take 4), m, 0⟩ := by
    rw [if_pos (getLsbD_ones h), natAt_rawRead _ _ _ _ _ hbs h]
  unfold decodeReg
  dsimp only
  rw [if_pos (.inl rfl)]
  refine ⟨(lane_vvOfEls _ h).trans ?_, (tag_vvOfEls _ h).trans ?_, eq_psFlags ((laneFlags_flagsOfEls _ h).trans ?_)⟩
  · rw [hel]
    rfl
  · rw [hel]
    rfl
  · rw [hel, Nat.or_zero]

theorem patternReads_one {s s1 : State} {n q pa : Nat} {va w0 w1 : W64} {bs : List Byte} {m : Bool}
    (h : s.load n pa 256 false = (s1, bs, m)) :
    s.patternReads n q [⟨va, .mem pa, 256, w0, w1, none, false⟩] [] = (s1, [rawRead va (.mem pa) w0 w1 bs m], true) := by
  simp [State.patternReads, h, rawRead]

/-! ### A row of a tile (R266) -/

section
variable {s s1 : State} {n q lo j k : Nat} {y : Stream} {bd : Bound}

/-- The request for the tile that pattern vector `j` reads. -/
def patternReq (s : State) (n q : Nat) (y : Stream) (j : Nat) (bd : Bound) : State × TileAns :=
  s.tileReq (wingOf n) bd (tagOf bd.asid (bitsN (y.word 6).toNat 31 20) (y.coords j)) (bitsN (y.word 6).toNat 63 48)
    (bitsN (y.word 6).toNat 19 17) (.stream n q) (s.pts n)

theorem patternTile_waits {r : TileAns} (hb : (s.strand n).bound = some bd) (hreq : patternReq s n q y j bd = (s1, r))
    (hr : ∀ k, r ≠ .hit k) : s.patternTile n q lo j y = s1 := by
  rw [patternReq] at hreq
  cases r with
  | hit k => exact absurd rfl (hr k)
  | wait => simp only [State.patternTile, hb, hreq]
  | full => simp only [State.patternTile, hb, hreq]

/-- The fault of a raw row: a part that it does not have, and else a pin too many. -/
def rawRowFault (part : Nat) (pin : Bool) : Option Trap :=
  if part ≠ 0 then some (tileTrap xTilerange) else if pin then some pinTrap else none

theorem firstTrap_rawRow (part : Nat) (pin : Bool) :
    firstTrap ((if part != 0 then [tileTrap xTilerange] else []) ++ [] ++ (if pin then [pinTrap] else [])) = rawRowFault part pin := by
  cases part with
  | zero => cases pin <;> rfl
  | succ part => cases pin <;> rfl

theorem patternTile_raw (hb : (s.strand n).bound = some bd) (hreq : patternReq s n q y j bd = (s1, .hit k)) (hraw : y.isRaw = true) :
    s.patternTile n q lo j y = (rawRowFault (y.rowPart j).2
      (s1.pinOver (coreOf n) (s1.slotOf (wingOf n) k) (bitsN (y.word 6).toNat 19 17))).elim
        ((((s1.setPts n (wmax (s1.pts n) (s1.slotOf (wingOf n) k).wts)).useCopy (coreOf n) (wingOf n) k
            (bitsN (y.word 6).toNat 19 17) false).onceRead (wingOf n) k (.stream n q)).setStream n q (some (y.keep lo j
          ((s1.slotOf (wingOf n) k).readPart (y.rowPart j).1 (y.rowPart j).2 y.tyField true BankCopy.reset).1
          ((s1.slotOf (wingOf n) k).readPart (y.rowPart j).1 (y.rowPart j).2 y.tyField true BankCopy.reset).2)))
        (fun f => s1.setStream n q (some { y with fault := some (j, f) })) := by
  rw [patternReq] at hreq
  simp only [State.patternTile, hb, hreq, hraw, Bool.not_true, Bool.and_false, Bool.false_and, Bool.false_eq_true, if_false, if_true,
    firstTrap_rawRow]
  cases rawRowFault (y.rowPart j).2 (s1.pinOver (coreOf n) (s1.slotOf (wingOf n) k) (bitsN (y.word 6).toNat 19 17)) <;> rfl

/-- A raw row is delivered whole, tagged in every lane when the row is. -/
theorem readPart_raw (x : Slot) (r part ty : Nat) (cp : BankCopy) :
    (x.readPart r part ty true cp).1 = ⟨mget x.rows r 0, if x.prow.getLsbD r then ~~~0#64 else 0⟩ ∧
      ∀ k < 64, laneFlags (x.readPart r part ty true cp).2 k = if x.prow.getLsbD r then 64#7 else 0#7 := by
  have hall : lanesBelow 8 256 = ~~~0#64 := by
    refine BitVec.eq_of_getLsbD_eq fun i hi => ?_
    rw [getLsbD_ones hi, lanesBelow, getLsbD_maskOf _ _ hi]
    refine List.any_eq_true.mpr ⟨0, by simp, decide_eq_true ?_⟩
    omega
  have hval : x.readPart r part ty true cp = (⟨mget x.rows r 0, if x.prow.getLsbD r then ~~~0#64 else 0⟩,
      (DVal.v ⟨mget x.rows r 0, if x.prow.getLsbD r then ~~~0#64 else 0⟩).ps) := by
    simp only [Slot.readPart, true_or, if_true, Nat.zero_div, Nat.sub_zero, hall, BitVec.ushiftRight_zero]
  rw [hval]
  refine ⟨rfl, fun k hk => eq_psFlags ?_⟩
  rw [DVal.ps, laneFlags_flagsOfMap _ hk]
  cases x.prow.getLsbD r
  · simp
  · simp only [if_true, getLsbD_ones hk]

end

end Sys2Proof.Machine

open Sys2Proof Sys2Proof.Machine

/-- Settles O41: what each reread and each pattern read does, case by case of their conditions. -/
theorem waitAndStreamReads : Obligations.WaitAndStreamReads := by
  unfold Obligations.WaitAndStreamReads
  refine ⟨?waitv, ?met, ?streams⟩
  case waitv =>
    intro s n e d a b p q c w he hi hmet due
    refine ⟨execWaitvReread_idle he hmet, ?reading, ?again, ?seen⟩
    case reading =>
      intro hp h0 rd l pa hrds
      have hexec := execWaitvReread_reading he hp h0
      refine ⟨fun htgt s1 bs m hload => ?_, fun win dst htgt => ⟨fun bs m hgot => ?_, fun hgot => ?_⟩⟩
      · have he1 : s1.entry? n e.id = some e := by
          have hentry := s.load_entry? n pa rd.len true n e.id
          rw [hload] at hentry
          exact hentry.trans he
        exact ⟨_, hexec.trans (congrArg _ (State.waitvRead_mem hrds htgt hload)), waitvJudge_outcome hi he1 _ _ _⟩
      · exact ⟨_, hexec.trans (congrArg _ ((State.waitvRead_window hrds htgt).1 bs m hgot)), waitvJudge_outcome hi he _ _ _⟩
      · exact hexec.trans (congrArg _ ((State.waitvRead_window hrds htgt).2 hgot))
    case again =>
      intro hp h0 hdue ea pl
      obtain ⟨htrap, hgo⟩ := execWaitvReread_due hi he hmet hp h0 hdue
      refine ⟨htrap, fun hv hm => (hgo hv).trans (congrArg _ (if_pos hm)), ?_⟩
      intro hv hm rd l pa hrds htgt e1 s1 bs m hload _
      have he1 : s1.entry? n e1.id = some e1 := by
        have hentry := (pl.st.modEntry n e.id (fun _ => e1)).load_entry? n pa rd.len true n e.id
        rw [hload] at hentry
        exact hentry.trans (waitvPlan_entry? he)
      exact ⟨_, (hgo hv).trans (congrArg _ ((if_neg (ne_true_of_eq_false hm)).trans (State.waitvRead_mem hrds htgt hload))),
        waitvJudge_outcome (e := e1) hi he1 _ _ _⟩
    case seen =>
      intro hstep hag hth rd pa hrd htgt hwts
      exact ⟨_, _, step_of_no_agenda hth hag, State.startClock_entry? he (State.writeSeen_of_line hi hstep hrd htgt hwts), rfl⟩
  case met =>
    intro s n e he hstep hclk hb
    change execWaitvReread n e.id s = _
    simp only [execWaitvReread, he, if_pos (show e.step = waitvMet from hstep), hb, Bool.not_false, and_true, if_pos hclk]
  case streams =>
    intro s n q core
    refine ⟨execStreamPatternRead_unbound, fun y h hidle => execStreamPatternRead_idle h hidle, ?_⟩
    intro y j lo hi h hp hm hn
    have hexec := execStreamPatternRead_reads h hp hm hn
    refine ⟨?memory, ?tile⟩
    case memory =>
      intro ht hr pl pends
      rw [ht] at hexec
      refine ⟨fun t hv => hexec.trans (congrArg _ (patternMem_fault hr hv)),
        fun hv hw => hexec.trans (congrArg _ (patternMem_waits hr hv hw)),
        fun hv hmiss hpends s1 l hreads => ?_, fun hv hmiss hraw pa w0 w1 s1 bs m hrds hload hbs => ?_⟩
      · exact ⟨_, hexec.trans (congrArg _ (patternMem_reads hr hv hmiss hpends hreads)), rfl, gotVector_keep ..⟩
      · have hpends : (rdBanks y.isRaw pl.rds).any (fun b => (s.strand n).bankPending b) = false := by
          rw [hraw]
          rfl
        have hreads : pl.st.patternReads n q pl.rds [] = (s1, [rawRead (y.va j) (.mem pa) w0 w1 bs m], true) := by
          rw [hrds]
          exact patternReads_one hload
        refine ⟨_, _, _, hexec.trans (congrArg _ (patternMem_reads hr hv hmiss hpends hreads)), gotVector_keep .., fun k hk => ?_⟩
        rw [hraw]
        exact decodeReg_rawRead _ _ _ _ m hbs _ _ hk
    case tile =>
      intro ht bd s1 r hb w6 hint hreq
      rw [ht] at hexec
      refine ⟨fun hr => hexec.trans (congrArg _ (patternTile_waits hb hreq hr)), ?_⟩
      intro k hr hraw x pin
      subst hr
      have hrow := hexec.trans (congrArg _ (patternTile_raw hb hreq hraw))
      refine ⟨fun hpart => ?_, fun hpart hpin => ?_, fun hpart hpin => ?_⟩
      · have hfault : rawRowFault (y.rowPart j).2 pin = some (tileTrap xTilerange) := if_pos hpart
        rw [hfault] at hrow
        exact hrow
      · have hfault : rawRowFault (y.rowPart j).2 pin = some pinTrap := (if_neg (not_not.mpr hpart)).trans (if_pos hpin)
        rw [hfault] at hrow
        exact hrow
      · have hfault : rawRowFault (y.rowPart j).2 pin = none :=
          (if_neg (not_not.mpr hpart)).trans (if_neg (ne_true_of_eq_false hpin))
        rw [hfault] at hrow
        obtain ⟨hval, hflags⟩ := readPart_raw x (y.rowPart j).1 (y.rowPart j).2 y.tyField BankCopy.reset
        refine ⟨_, _, hrow, ?_, hflags⟩
        rw [← hval]
        exact gotVector_keep ..

end

section
/-! Tile tasks that are carried out (R306, R313, R317): what the course of a due task makes of it, and what reading tiles and
changing an engine leave alone. -/

namespace Sys2Proof.Machine

/-! ### The course of a due task (R306, R313) -/

theorem State.runTask_of_due {s : State} {uid k : Nat} {t : Task} (h : DueTask s uid k t) (f : Task → State → Ran) :
    (∀ s1 d fl, f t s = .done s1 d fl → s.runTask uid k f = .next (s1.modTask uid (fun x => { x with
      phase := .dispatched (s.clk + d), ran := true, flags := x.flags ||| BitVec.ofNat 7 fl }))) ∧
    (∀ s1 x, f t s = .fault s1 x → s.runTask uid k f = .next (s1.faultTask uid x)) ∧
    (∀ s1, f t s = .again s1 →
      (∀ x, t.fault = some x → s.runTask uid k f = .next (s1.faultTask uid x)) ∧
      (t.fault = none → ∀ s2 r, s1.askTiles t = (s2, r) → s.runTask uid k f = .next (match r with
        | .fault x => s2.faultTask uid x
        | _ => s2))) := by
  obtain ⟨htask, hdisp, hran, hkind⟩ := h
  unfold State.runTask
  simp only [htask, hdisp, hran, hkind, Bool.not_true, Bool.false_or, bne_self_eq_false, Bool.false_eq_true, if_false]
  refine ⟨fun s1 d fl hf => ?_, fun s1 x hf => ?_, fun s1 hf => ⟨fun x hx => ?_, fun hn s2 r hr => ?_⟩⟩
  · rw [hf]
  · rw [hf]
  · rw [hf, hx]
  · rw [hf, hn]
    dsimp only
    rw [hr]
    cases r <;> rfl

/-- A collective step that has not been carried out goes the course of every task (R327). -/
theorem State.runColl_of_due {s : State} {uid k : Nat} {t : Task} (h : DueTask s uid k t) (f : Task → State → Ran) :
    s.runColl uid k f = s.runTask uid k f := by
  obtain ⟨htask, -, hran, -⟩ := h
  simp only [State.runColl, htask, hran, Bool.false_eq_true, false_and, if_false]

theorem execCbar_of_due {s : State} {uid : Nat} {t : Task} (h : DueTask s uid 16 t) : execCbar uid s = s.runTask uid 16 runCbar := by
  rw [← State.runColl_of_due h]
  obtain ⟨htask, -, hran, -⟩ := h
  simp only [execCbar, htask, hran]

theorem execItin_of_due {s : State} {uid : Nat} {t : Task} (h : DueTask s uid 11 t) : execItin uid s = .next (s.startItin t) := by
  obtain ⟨htask, hdisp, hran, hkind⟩ := h
  simp only [execItin, htask, hdisp, hran, hkind, Bool.not_true, Bool.false_or, bne_self_eq_false, Bool.false_eq_true, if_false]

theorem State.task?_uid {s : State} {uid : Nat} {t : Task} (h : s.task? uid = some t) : t.uid = uid := by
  simpa using List.find?_some h

/-- Every task of the number is what a change makes of one. -/
theorem State.mem_modTask {s : State} {uid : Nat} {f : Task → Task} {x : Task} (hx : x ∈ (s.modTask uid f).tasks)
    (hid : x.uid = uid) : ∃ y ∈ s.tasks, y.uid = uid ∧ x = f y := by
  obtain ⟨y, hy, rfl⟩ := List.mem_map.mp hx
  split at hid
  case isTrue h => exact ⟨y, hy, h, if_pos h⟩
  case isFalse h => exact absurd hid h

end Sys2Proof.Machine

namespace Sys2Proof

open Sys2Proof.Machine

theorem carriesOut_of_exec {s : State} {i : Nat → Instr} {k : Nat} {f : Task → State → Ran}
    (h : ∀ uid t, DueTask s uid k t → exec (i uid) s = s.runTask uid k f) : CarriesOut s i k f := fun uid t hd => by
  rw [h uid t hd]
  exact State.runTask_of_due hd f

/-- A task that is done stands carried out for its duration; only its own record differs from what its kind left. -/
theorem CarriesOut.done {s s1 : State} {i : Nat → Instr} {uid k d fl : Nat} {f : Task → State → Ran} {t : Task}
    (h : CarriesOut s i k f) (hd : DueTask s uid k t) (hf : f t s = .done s1 d fl) :
    ∃ g : Task → Task, exec (i uid) s = .next (s1.modTask uid g) ∧ Carried s (s1.modTask uid g) uid d ∧
      ∀ x, (g x).uid = x.uid ∧ (g x).out = x.out := by
  refine ⟨_, (h uid t hd).1 s1 d fl hf, fun x hx hid => ?_, fun _ => ⟨rfl, rfl⟩⟩
  obtain ⟨y, -, -, rfl⟩ := State.mem_modTask hx hid
  exact ⟨rfl, rfl⟩

end Sys2Proof

namespace Sys2Proof.Machine

/-! ### Engines (R318) -/

theorem State.engineOf_modTask (s : State) (uid : Nat) (f : Task → Task) (t : Task) :
    (s.modTask uid f).engineOf t = s.engineOf t := rfl

@[simp] theorem State.engineOf_setEngine (s : State) (t : Task) (e : Engine) : (s.setEngine t e).engineOf t = e := by
  simp [State.engineOf, State.setEngine]

/-- A change of a wing that keeps its engines. -/
theorem State.engineOf_modWing {f : Wing → Wing} (s : State) (w : Nat) (t : Task) (hf : ∀ g, (f g).engines = g.engines) :
    (s.modWing w f).engineOf t = s.engineOf t := by
  simp only [State.engineOf, State.wing_modWing]
  split
  case isTrue h => rw [hf, h]
  case isFalse => rfl

theorem State.freeSlot_engineOf (s : State) (w k : Nat) (t : Task) : (s.freeSlot w k).engineOf t = s.engineOf t :=
  State.engineOf_modWing (f := fun g => { g with slots := mdel g.slots k }) _ w t fun _ => rfl

theorem State.onceRead_engineOf (s : State) (w k : Nat) (who : Waiter) (t : Task) :
    (s.onceRead w k who).engineOf t = s.engineOf t := by
  unfold State.onceRead
  dsimp only
  split
  · rfl
  · split
    · rw [State.freeSlot_engineOf, State.engineOf_modWing _ _ _ (by exact fun _ => rfl),
        State.engineOf_modWing _ _ _ (by exact fun _ => rfl)]
    · exact State.engineOf_modWing _ _ _ fun _ => rfl

theorem State.readTiles_engineOf (s : State) (t u : Task) (hint : Nat) (l : List (Nat × Slot)) :
    (s.readTiles t hint l).engineOf u = s.engineOf u := by
  refine foldl_same (fun z : State => z.engineOf u) _ l s fun z x => ?_
  dsimp only
  rw [State.onceRead_engineOf]
  exact State.engineOf_modWing _ _ _ fun _ => rfl

theorem State.onceRead_mem (s : State) (w k : Nat) (who : Waiter) : (s.onceRead w k who).mem = s.mem := by
  unfold State.onceRead
  dsimp only
  split
  · rfl
  · split <;> rfl

theorem State.readTiles_mem (s : State) (t : Task) (hint : Nat) (l : List (Nat × Slot)) : (s.readTiles t hint l).mem = s.mem :=
  foldl_same State.mem _ l s fun _ _ => State.onceRead_mem _ _ _ _

/-! ### Rows of accumulators (R322, R325) -/

/-- Dropping the keys that a test picks leaves the others as they were. -/
theorem mget_filter {α : Type} (p : Nat → Bool) (m : AMap α) (k : Nat) (d : α) :
    mget (m.filter (fun x => !p x.1)) k d = if p k = true then d else mget m k d := by
  induction m with
  | nil => simp
  | cons x r ih =>
    obtain ⟨j, v⟩ := x
    rw [List.filter_cons]
    by_cases hj : j = k
    · subst hj
      cases h : p j <;> simp [h, mget, ih]
    · cases h : p j <;> simp [mget, hj, ih]

/-- Key `128 m + n` of column `n < 128` lies in row `m`. -/
theorem row_of_key {m n : Nat} (h : n < 128) : (128 * m + n) / 128 = m := by omega

/-! ### A row of codes through the weights (R322, R323) -/

/-- A row that damaged data or poisoned weights went through. -/
def Engine.soiled (e : Engine) (m : Nat) (bad : Bool) : Engine :=
  if bad || e.act.poison then { e with rowPoison := e.rowPoison ||| (1#256 <<< m) } else e

/-- Column `n` of row `m` of an engine of integer weights of `w` bits takes the row's codes (R322). -/
def intColumn (b : Buf) (w m : Nat) (a : List Nat) (x : Engine × Nat) (n : Nat) : Engine × Nat :=
  let k := 128 * m + n
  let (v, c) := satI 32 false (sIntN 32 (mget x.1.acc k 0).toNat + mmaInt b w n a)
  ({ x.1 with acc := mset x.1.acc k (BitVec.ofInt 32 v) }, if c then x.2 ||| fSA else x.2)

/-- Column `n` of row `m` of another engine: its partial sum takes the row's codes (R323). -/
def floatColumn (b : Buf) (fmt m : Nat) (a : List Nat) (ea : Nat → Int) (x : Engine × Nat) (n : Nat) : Engine × Nat :=
  let k := 128 * m + n
  let sR := (mmaSum b fmt n a ea).deliver .a26 .rne 0
  let p := (xAdd .rne (FFmt.a26.decode (mget x.1.part k 0).toNat) (FFmt.a26.decode sR.pat)).deliver .a26 .rne 0
  ({ x.1 with part := mset x.1.part k (BitVec.ofNat 26 p.pat) }, x.2 ||| sR.flags ||| p.flags)

/-- The count of row `m` goes up; the row is promoted once it is full (R323). -/
def Engine.counted (r : Engine × Nat) (pm1 m : Nat) : Engine × Nat :=
  let c := mget r.1.cnt m 0 + 1
  let e2 := { r.1 with cnt := mset r.1.cnt m c }
  if c = pm1 + 1 then
    let (e3, f) := e2.promote m
    (e3, r.2 ||| f)
  else (e2, r.2)

theorem Engine.feed_of_int {e : Engine} {w : Nat} (fmt pm1 m : Nat) (a : List Nat) (ea : Nat → Int) (bad : Bool)
    (hw : (EFmt.ofCode e.act.wt).int? = some w) :
    e.feed fmt pm1 m a ea bad = (List.range 128).foldl (intColumn e.act w m a) (e.soiled m bad, 0) := by
  simp only [Engine.feed, hw, Engine.soiled]
  exact congrArg (fun f => (List.range 128).foldl f _) (funext fun x => funext fun n => rfl)

theorem Engine.feed_of_float {e : Engine} (fmt pm1 m : Nat) (a : List Nat) (ea : Nat → Int) (bad : Bool)
    (hw : (EFmt.ofCode e.act.wt).int? = none) : e.feed fmt pm1 m a ea bad =
      Engine.counted ((List.range 128).foldl (floatColumn e.act fmt m a ea) (e.soiled m bad, 0)) pm1 m := by
  unfold Engine.feed Engine.soiled
  generalize List.range 128 = cols
  extract_lets b intW e0 r c src e2
  rw [show intW = none from hw]
  rfl

theorem intColumn_fst (b : Buf) (w m : Nat) (a : List Nat) (x : Engine × Nat) (n : Nat) : (intColumn b w m a x n).1 =
    { x.1 with acc := mset x.1.acc (128 * m + n) (sat32 ((mget x.1.acc (128 * m + n) 0).toInt + mmaInt b w n a)).1 } := by
  have hint : sIntN 32 (mget x.1.acc (128 * m + n) 0).toNat = (mget x.1.acc (128 * m + n) 0).toInt := by
    rw [sIntN_eq_bmod, BitVec.toInt_eq_toNat_bmod]
  unfold intColumn sat32
  dsimp only
  rw [hint]

/-- Whether a row is soiled shows in its poison bit alone. -/
theorem Engine.soiled_same {β : Type} (p : Engine → β) (hp : ∀ (e : Engine) r, p { e with rowPoison := r } = p e) (e : Engine)
    (m : Nat) (bad : Bool) : p (e.soiled m bad) = p e := by
  unfold Engine.soiled
  split
  · exact hp e _
  · rfl

/-- One column after another of a row of accumulators takes what `g` makes of it. -/
theorem foldl_columns {f : Engine × Nat → Nat → Engine × Nat} {row : Nat} {g : Nat → W32 → W32}
    (hf : ∀ x n, (f x n).1 = { x.1 with acc := mset x.1.acc (row + n) (g n (mget x.1.acc (row + n) 0)) }) (x : Engine × Nat)
    (cols : Nat) :
    (∀ n < cols, mget ((List.range cols).foldl f x).1.acc (row + n) 0 = g n (mget x.1.acc (row + n) 0)) ∧
    ∀ k, (∀ n < cols, k ≠ row + n) → mget ((List.range cols).foldl f x).1.acc k 0 = mget x.1.acc k 0 := by
  induction cols with
  | zero => exact ⟨fun _ h => absurd h (Nat.not_lt_zero _), fun _ _ => rfl⟩
  | succ c ih =>
    obtain ⟨hcols, hrest⟩ := ih
    rw [List.range_succ, List.foldl_append, List.foldl_cons, List.foldl_nil, hf]
    refine ⟨fun n hn => ?_, fun k hk => ?_⟩
    · rw [mget_mset]
      by_cases h : n = c
      · rw [if_pos (by rw [h]), h, hrest _ (by omega)]
      · rw [if_neg (by omega), hcols n (by omega)]
    · rw [mget_mset, if_neg (Ne.symm (hk c (by omega))), hrest k fun n hn => hk n (by omega)]

/-- The exact integer sum of a row's codes with a column of weights (R322). -/
theorem mmaInt_eq_sum (b : Buf) (w n : Nat) (a : List Nat) : mmaInt b w n a =
    ((List.range a.length).map (fun k => sIntN w ((a.drop k).headD 0) * sIntN w (mget b.w (128 * k + n) 0))).sum := by
  have hzip : a.zipIdx = (List.range a.length).map (fun k => ((a.drop k).headD 0, k)) := by
    refine List.ext_getElem (by simp) fun i hi _ => ?_
    have hi' : i < a.length := by simpa using hi
    simp [List.head?_drop, hi']
  rw [mmaInt, hzip, List.foldl_map, List.sum_eq_foldl, List.foldl_map]

/-- An engine of integer weights of `w` bits adds each column's sum to a row's accumulators and clamps it; other rows keep theirs
(R322). -/
theorem Engine.feed_int {e : Engine} {w : Nat} (fmt pm1 m : Nat) (a : List Nat) (ea : Nat → Int) (bad : Bool)
    (hw : (EFmt.ofCode e.act.wt).int? = some w) :
    (∀ n < 128, mget (e.feed fmt pm1 m a ea bad).1.acc (128 * m + n) 0 =
      (clamp32 ((mget e.acc (128 * m + n) 0).toInt + mmaInt e.act w n a)).1) ∧
    (∀ k, (∀ n < 128, k ≠ 128 * m + n) → mget (e.feed fmt pm1 m a ea bad).1.acc k 0 = mget e.acc k 0) := by
  rw [← Engine.soiled_same Engine.acc (fun _ _ => rfl) e m bad, Engine.feed_of_int fmt pm1 m a ea bad hw]
  obtain ⟨hcols, hrest⟩ := foldl_columns (row := 128 * m) (g := fun n x => (sat32 (x.toInt + mmaInt e.act w n a)).1)
    (intColumn_fst e.act w m a) (e.soiled m bad, 0) 128
  exact ⟨fun n hn => (hcols n hn).trans (by rw [sat32_eq]), hrest⟩

/-- What an engine's sums do not touch: its weight buffers. -/
def Engine.buffers (e : Engine) : Buf × Buf := (e.act, e.shadow)

theorem Engine.buffers_with (e : Engine) (acc : AMap W32) (part : AMap (BitVec 26)) (cnt : AMap Nat) :
    ({ e with acc := acc, part := part, cnt := cnt } : Engine).buffers = e.buffers := rfl

theorem Engine.promote_buffers (e : Engine) (m : Nat) : (e.promote m).1.buffers = e.buffers := by
  unfold Engine.promote
  generalize List.range 128 = cols
  exact (Engine.buffers_with ..).trans
    (foldl_same (fun a : Engine × Nat => a.1.buffers) _ cols (e, 0) fun _ _ => Engine.buffers_with ..)

theorem Engine.counted_buffers (r : Engine × Nat) (pm1 m : Nat) : (Engine.counted r pm1 m).1.buffers = r.1.buffers := by
  unfold Engine.counted
  extract_lets c src e2
  have hpromoted := e2.promote_buffers m
  generalize e2.promote m = z at hpromoted ⊢
  split
  · exact hpromoted.trans (Engine.buffers_with ..)
  · exact Engine.buffers_with ..

theorem intColumn_buffers (b : Buf) (w m : Nat) (a : List Nat) (x : Engine × Nat) (n : Nat) :
    (intColumn b w m a x n).1.buffers = x.1.buffers :=
  (congrArg Engine.buffers (intColumn_fst b w m a x n)).trans (Engine.buffers_with ..)

theorem floatColumn_buffers (b : Buf) (fmt m : Nat) (a : List Nat) (ea : Nat → Int) (x : Engine × Nat) (n : Nat) :
    (floatColumn b fmt m a ea x n).1.buffers = x.1.buffers := by
  unfold floatColumn
  exact Engine.buffers_with ..

/-- A row through the weights leaves both weight buffers. -/
theorem Engine.feed_buffers (e : Engine) (fmt pm1 m : Nat) (a : List Nat) (ea : Nat → Int) (bad : Bool) :
    (e.feed fmt pm1 m a ea bad).1.buffers = e.buffers := by
  rw [← e.soiled_same Engine.buffers (fun _ _ => rfl) m bad]
  cases hw : (EFmt.ofCode e.act.wt).int? with
  | some w =>
    rw [Engine.feed_of_int fmt pm1 m a ea bad hw]
    exact foldl_same (fun a : Engine × Nat => a.1.buffers) _ (List.range 128) (e.soiled m bad, 0) (intColumn_buffers e.act w m a)
  | none =>
    rw [Engine.feed_of_float fmt pm1 m a ea bad hw, Engine.counted_buffers]
    exact foldl_same (fun a : Engine × Nat => a.1.buffers) _ (List.range 128) (e.soiled m bad, 0) (floatColumn_buffers e.act fmt m a ea)

/-! ### Kinds that are done at once (R319 to R327) -/

theorem runDrain_done {s s1 : State} {t : Task} {x : Nat × Slot} {l : List (Nat × Slot)}
    (hprep : s.prepWrites t [(opnd t.rec_ 0).tag t.bound.asid 0 0] = .ok s1 (x :: l)) (hsck : x.2.tens.sck = 0)
    (hfmt : drainFmtOk (recK t.rec_ 39 37) x.2.tens.fmt = true) : ∃ u fl, runDrain t s = .done u 72 fl := by
  unfold runDrain
  generalize List.range 64 = rows
  extract_lets o r ar ch cvt rm sat
  have hok : ¬ (x.2.tens.sck ≠ 0 ∨ !drainFmtOk cvt x.2.tens.fmt) := by simp [hsck, hfmt, cvt, r]
  split
  case h_1 h => exact absurd (hprep.symm.trans h) (by simp)
  case h_2 h => exact absurd (hprep.symm.trans h) (by simp)
  case h_3 s2 l2 h =>
    obtain ⟨rfl, rfl⟩ : s1 = s2 ∧ x :: l = l2 := by simpa using hprep.symm.trans h
    split
    case h_1 h => cases h
    case h_2 k y r h =>
      obtain ⟨rfl, rfl⟩ : x = (k, y) ∧ l = r := by simpa using h
      rw [if_neg hok]
      split
      split
      exact ⟨_, _, rfl⟩

theorem runTset_done {s s1 : State} {t : Task} {l : List (Nat × Slot)}
    (hprep : s.prepWrites t ((opnd t.rec_ 0).tags t.bound.asid (opnd t.rec_ 0).n0) = .ok s1 l)
    (hok : ∀ y ∈ l, tsetOk t.rec_ y.2.tens = true) : ∃ u fl, runTset t s = .done u (16 * (opnd t.rec_ 0).tiles) fl := by
  have hnone : l.find? (fun p => !tsetOk t.rec_ p.2.tens) = none := List.find?_eq_none.mpr fun y hy => by simp [hok y hy]
  unfold runTset
  generalize List.range 64 = rows
  dsimp only
  rw [hprep]
  dsimp only
  rw [hnone]
  exact ⟨_, _, rfl⟩

/-- A task on pairs of tiles is done as its kind's own part is. -/
theorem State.pairTask_done {s s1 : State} {t : Task} {xs ys : List (Nat × Slot)} {d : Nat}
    {f : List ((Nat × Slot) × (Nat × Slot)) → State → Ran}
    (hprep : s.prepWrites t ((opnd t.rec_ 1).tags t.bound.asid (opnd t.rec_ 1).n0) = .ok s1 ys)
    (htiles : s1.tilesAt t ((opnd t.rec_ 0).tags t.bound.asid (opnd t.rec_ 0).n0) = some xs)
    (hf : ∀ s2, ∃ u fl, f (xs.zip ys) s2 = .done u d fl) : ∃ u fl, s.pairTask t f = .done u d fl := by
  obtain ⟨u, fl, hdone⟩ := hf (s1.raiseFork t xs)
  simp only [State.pairTask, hprep, htiles, hdone]
  exact ⟨_, fl, rfl⟩

section
variable {s s1 : State} {t : Task} {xs ys : List (Nat × Slot)}
  (hprep : s.prepWrites t ((opnd t.rec_ 1).tags t.bound.asid (opnd t.rec_ 1).n0) = .ok s1 ys)
  (htiles : s1.tilesAt t ((opnd t.rec_ 0).tags t.bound.asid (opnd t.rec_ 0).n0) = some xs)
include hprep htiles

theorem runTcpy_done (hok : ∀ y ∈ xs.zip ys, y.1.2.tens.fmt = y.2.2.tens.fmt ∧ y.1.2.tens.sck = y.2.2.tens.sck ∧
    y.1.2.tens.cbk = y.2.2.tens.cbk) : ∃ u fl, runTcpy t s = .done u (32 * (xs.zip ys).length) fl := by
  refine State.pairTask_done hprep htiles fun s2 => ?_
  rw [List.find?_eq_none.mpr fun y hy => by
    obtain ⟨hfmt, hsck, hcbk⟩ := hok y hy
    simp [hfmt, hsck, hcbk]]
  exact ⟨_, _, rfl⟩

theorem runTxps_done {a b : Nat × Slot} {r : List ((Nat × Slot) × (Nat × Slot))} (hpair : xs.zip ys = (a, b) :: r)
    (hfmt : a.2.tens.fmt = b.2.tens.fmt) (hsa : a.2.tens.sck = 0) (hsb : b.2.tens.sck = 0)
    (hw : a.2.tens.w = 8 ∨ a.2.tens.w = 16 ∨ a.2.tens.w = 32) (hfrom : 64 * recK t.rec_ 47 46 < a.2.tens.e)
    (hto : 64 * recK t.rec_ 45 44 < a.2.tens.e) : ∃ u fl, runTxps t s = .done u 40 fl := by
  have hok : ¬ (a.2.tens.fmt ≠ b.2.tens.fmt ∨ a.2.tens.sck ≠ 0 ∨ b.2.tens.sck ≠ 0 ∨
      !(a.2.tens.w == 8 || a.2.tens.w == 16 || a.2.tens.w == 32) ∨ a.2.tens.e ≤ 64 * recK t.rec_ 47 46 ∨
      a.2.tens.e ≤ 64 * recK t.rec_ 45 44) := by
    simp only [ne_eq, hfmt, hsa, hsb, not_true_eq_false, Bool.not_eq_true', Bool.or_eq_false_iff, beq_eq_false_iff_ne, false_or]
    omega
  refine State.pairTask_done hprep htiles fun s2 => ?_
  rw [hpair]
  exact ⟨_, _, if_neg hok⟩

theorem runTred_done (hok : ∀ y ∈ xs.zip ys, y.1.2.tens.fmt = y.2.2.tens.fmt ∧ y.1.2.tens.sck = 0 ∧ y.2.2.tens.sck = 0 ∧
    redFmt y.1.2.tens.fmt = true) : ∃ u fl, runTred t s = .done u (48 * (xs.zip ys).length) fl := by
  refine State.pairTask_done hprep htiles fun s2 => ?_
  generalize List.range 64 = rows
  dsimp only
  rw [List.find?_eq_none.mpr fun y hy => by
    obtain ⟨hfmt, hsx, hsy, hred⟩ := hok y hy
    simp [← hfmt, hsx, hsy, hred]]
  exact ⟨_, _, rfl⟩

end

/-- Where no copy of the tiles is dirty, `TWB` writes nothing back. -/
theorem runTwb_done {s : State} {t : Task} {xs : List (Nat × Slot)}
    (htiles : s.tilesAt t ((opnd t.rec_ 0).tags t.bound.asid (opnd t.rec_ 0).n0) = some xs)
    (hclean : ∀ g ∈ (opnd t.rec_ 0).tags t.bound.asid (opnd t.rec_ 0).n0, s.copiesOf (fun y => y.tag == g && y.dirty) = []) :
    runTwb t s = .done (s.readTiles t (opnd t.rec_ 0).hint xs) (32 * (opnd t.rec_ 0).tiles) 0 := by
  unfold runTwb
  extract_lets o dirty r
  have hr : r = (s, none) := by
    simp only [r, dirty, o, List.flatMap_eq_nil_iff.mpr hclean, List.foldl_nil]
  rw [show s.tilesAt t (o.tags t.bound.asid o.n0) = _ from htiles, hr]

theorem runKvq_done {s s1 : State} {t : Task} {x y : Nat × Slot} {l r : List (Nat × Slot)}
    (hprep : s.prepWrites t [(opnd t.rec_ 1).tag t.bound.asid 0 0] = .ok s1 (x :: l))
    (htiles : s1.tilesAt t ((opnd t.rec_ 0).tags t.bound.asid (s.kvqWide t)) = some (y :: r))
    (hsrc : y.2.tens.fmt = 6 ∨ y.2.tens.fmt = 7) (hsck : y.2.tens.sck = 0)
    (hfmt : kvqFormatOk x.2.tens.fmt x.2.tens.sck t.copy.mode = true) (hcb : fmtCb x.2.tens.fmt = false) :
    ∃ u fl, runKvq t s = .done u (64 + 32 * s.kvqWide t) fl := by
  have hok : ¬ ((!(y.2.tens.fmt == 6 || y.2.tens.fmt == 7) || y.2.tens.sck != 0 ||
      !kvqFormatOk x.2.tens.fmt x.2.tens.sck t.copy.mode) = true) := by
    simpa [hsck, hfmt, or_iff_not_imp_left] using hsrc
  have hindex : ¬ (fmtCb x.2.tens.fmt = true ∧ (qntCands t.copy (2 ^ x.2.tens.w)).isEmpty = true) := by simp [hcb]
  unfold runKvq
  generalize List.range 64 = rows
  extract_lets o q wide
  rw [show s.prepWrites t [q.tag t.bound.asid 0 0] = _ from hprep]
  dsimp only
  rw [show s1.tilesAt t (o.tags t.bound.asid wide) = _ from htiles]
  dsimp only
  rw [if_neg hok, if_neg hindex]
  exact ⟨_, _, rfl⟩

theorem runRows_done {crs : Bool} {s s1 : State} {t : Task} {x : Nat × Slot} {y : Slot}
    (htile : s.tile t ((opnd t.rec_ 0).tag t.bound.asid 0 0) = some x)
    (hwindow : s.windowTile t ((opnd t.rec_ 1).tag t.bound.asid 0 0) = (s1, .ok y))
    (hfmt : x.2.tens.fmt = y.tens.fmt) (hsck : x.2.tens.sck = y.tens.sck) (hcbk : x.2.tens.cbk = y.tens.cbk)
    (hcrs : crs = true → x.2.tens.sck = 0 ∧ (y.tens.fmt = 6 ∨ y.tens.fmt = 7 ∨ y.tens.fmt = 4)) :
    ∃ u fl, runRows crs t s = .done u 1 fl := by
  have hok : (if crs then x.2.tens.fmt == y.tens.fmt && x.2.tens.sck == 0 && y.tens.sck == 0 &&
      (x.2.tens.fmt == 6 || x.2.tens.fmt == 7 || x.2.tens.fmt == 4)
      else x.2.tens.fmt == y.tens.fmt && x.2.tens.sck == y.tens.sck && x.2.tens.cbk == y.tens.cbk) = true := by
    cases crs with
    | false => simp [hfmt, hsck, hcbk]
    | true =>
      obtain ⟨hzero, hkind⟩ := hcrs rfl
      simpa [hfmt, hzero, ← hsck, or_assoc] using hkind
  unfold runRows
  generalize List.range 64 = rows
  extract_lets o q
  rw [show s.tile t (o.tag t.bound.asid 0 0) = _ from htile]
  dsimp only
  rw [show s.windowTile t (q.tag t.bound.asid 0 0) = _ from hwindow]
  dsimp only
  rw [if_neg (by rw [hok]; decide)]
  exact ⟨_, _, rfl⟩

theorem runCbar_done {s s1 : State} {t : Task} {w dst pa : Nat} (h : s.barPlaces t = (s1, .ok (w, dst, pa))) :
    runCbar t s = .done (s1.modTask t.uid (fun z => { z with
      out := [⟨((t.rec_.drop 2).headD 0) &&& ~~~7#64, dst, .add, pa, atOffsets 0 (leBytes 8 1), w⟩]
      ops := [(((t.rec_.drop 3).headD 0) &&& ~~~7#64, (t.rec_.drop 4).headD 0)], step := 1 })) 1 0 := by
  rw [runCbar, h]

theorem State.startItin_of_list {s s1 : State} {t : Task} {ops : List (W64 × W64)} {p : W64}
    (hread : s.readList t ((t.rec_.drop 2).headD 0) (recK t.rec_ 47 40 + 1) [] t.fork = (s1, .ok (ops, p)))
    (hin : ∀ y ∈ ops, Opnd.passes y (Opnd.n0 y) = false) : s.startItin t = s1.modTask t.uid (fun y => { y with
      ran := true, phase := .dispatched s.clk, ops := ops, step := 0, fork := p }) := by
  have hkept : ops.filter (fun o => !Opnd.passes o (Opnd.n0 o)) = ops := List.filter_eq_self.mpr fun y hy => by rw [hin y hy]; rfl
  have hnone : ops.any (fun o => Opnd.passes o (Opnd.n0 o)) = false := List.any_eq_false.mpr fun y hy => by simp [hin y hy]
  simp only [State.startItin, hread, hkept, hnone, Bool.false_eq_true, if_false]

/-- Only a codebook's index can be invalid (R320). -/
theorem expandWeight_isNone {fmt : Nat} (h : fmtCb fmt = false) (sck code sc su : Nat) (cp : BankCopy) :
    (expandWeight fmt sck code sc su cp).isNone = false := by
  unfold expandWeight
  rw [h]
  dsimp only
  split <;> rfl

theorem runWpre_done {s : State} {t : Task} {x : Nat × Slot} {l : List (Nat × Slot)}
    (htiles : s.tilesAt t ((opnd t.rec_ 0).tags t.bound.asid 1) = some (x :: l)) (hcb : fmtCb x.2.tens.fmt = false)
    (hwt : weightType x.2.tens.fmt x.2.tens.sck t.copy.mode ≠ 0)
    (hke : weightKe (weightType x.2.tens.fmt x.2.tens.sck t.copy.mode) x.2.tens.sck * (recAr t.rec_ + 1) ≤ x.2.tens.e) :
    ∃ (u : State) (n fl : Nat), runWpre t s = .done u (64 + n) fl ∧ (u.engineOf t).act = (s.engineOf t).act ∧
      (u.engineOf t).acc = (s.engineOf t).acc ∧
      (u.engineOf t).shadow.wt = weightType x.2.tens.fmt x.2.tens.sck t.copy.mode ∧
      (u.engineOf t).shadow.ke = weightKe (weightType x.2.tens.fmt x.2.tens.sck t.copy.mode) x.2.tens.sck := by
  unfold runWpre
  generalize List.range 64 = rows
  extract_lets o cp seg
  rw [show s.tilesAt t (o.tags t.bound.asid 1) = _ from htiles]
  dsimp -zeta only
  extract_lets d cb wt ke ws all fl blocks live kept eb buf s2 e
  have hvalid : ¬ (ws.any (fun p => p.2.isNone) = true) := by
    simp only [ws, List.any_flatMap, List.any_map, Function.comp_def, d, expandWeight_isNone hcb]
    simp
  rw [if_neg (by simp [cb, d, hcb]), if_neg hwt, if_neg (Nat.not_lt.mpr hke), if_neg hvalid]
  have he : e = s.engineOf t := State.readTiles_engineOf s t t o.hint _
  refine ⟨_, _, _, rfl, ?_⟩
  rw [State.engineOf_setEngine, ← he]
  exact ⟨rfl, rfl, rfl, rfl⟩

theorem runMma_done {s : State} {t : Task} {sck : Nat} {l : List (Nat × Slot)}
    (htiles : s.tilesAt t ((opnd t.rec_ 0).tags t.bound.asid 1) = some l)
    (hok : ∀ y ∈ l, (s.engineOf t).act.wt ≠ 0 ∧
      acceptsA (s.engineOf t).act.wt (s.engineOf t).act.ke y.2.tens.fmt y.2.tens.sck = true ∧
      y.2.tens.e = (s.engineOf t).act.ke ∧ y.2.tens.sck = sck) :
    ∃ (e : Engine) (n fl : Nat), n ≤ 8 * l.length ∧ e.buffers = (s.engineOf t).buffers ∧
      runMma sck t s = .done ((s.readTiles t (opnd t.rec_ 0).hint l).setEngine t e) (12 + 8 * n) fl := by
  unfold runMma
  extract_lets o e
  rw [show s.tilesAt t (o.tags t.bound.asid 1) = _ from htiles]
  dsimp -zeta only
  rw [List.find?_eq_none.mpr fun y hy => by
    obtain ⟨hwt, hacc, he, hsck⟩ := hok y hy
    simp [hwt, hacc, he, ← hsck, e]]
  dsimp -zeta only
  extract_lets bands r
  refine ⟨r.1, bands.length, r.2, ?_, ?_, rfl⟩
  · have hcard := List.sum_le_card_nsmul (l.zipIdx.map fun x => ((List.range 8).filter fun b => !x.1.2.bandZero b).length) 8 (by
      simp only [List.forall_mem_map]
      exact fun x _ => (List.length_filter_le _ _).trans List.length_range.le)
    simpa [bands, List.length_flatMap, Nat.mul_comm] using hcard
  · refine foldl_same (fun a : Engine × Nat => a.1.buffers) _ bands (e, 0) fun a z => ?_
    obtain ⟨x, j, b⟩ := z
    generalize List.range 8 = rows
    exact foldl_same (fun a : Engine × Nat => a.1.buffers) _ rows a fun a i => Engine.feed_buffers ..

end Sys2Proof.Machine

namespace Sys2Proof

open Sys2Proof.Machine

/-! ### Each kind is carried out -/

theorem mma_carriesOut (s : State) : CarriesOut s .mma 1 (runMma 0) := carriesOut_of_exec fun _ _ _ => rfl
theorem mmas_carriesOut (s : State) : CarriesOut s .mmas 2 (runMma 1) := carriesOut_of_exec fun _ _ _ => rfl
theorem wpre_carriesOut (s : State) : CarriesOut s .wpre 3 runWpre := carriesOut_of_exec fun _ _ _ => rfl
theorem wswp_carriesOut (s : State) : CarriesOut s .wswp 4 runWswp := carriesOut_of_exec fun _ _ _ => rfl
theorem drain_carriesOut (s : State) : CarriesOut s .drain 5 runDrain := carriesOut_of_exec fun _ _ _ => rfl
theorem aclr_carriesOut (s : State) : CarriesOut s .aclr 6 runAclr := carriesOut_of_exec fun _ _ _ => rfl
theorem tcpy_carriesOut (s : State) : CarriesOut s .tcpy 7 runTcpy := carriesOut_of_exec fun _ _ _ => rfl
theorem tset_carriesOut (s : State) : CarriesOut s .tset 8 runTset := carriesOut_of_exec fun _ _ _ => rfl
theorem txps_carriesOut (s : State) : CarriesOut s .txps 9 runTxps := carriesOut_of_exec fun _ _ _ => rfl
theorem tred_carriesOut (s : State) : CarriesOut s .tred 10 runTred := carriesOut_of_exec fun _ _ _ => rfl
theorem twb_carriesOut (s : State) : CarriesOut s .twb 12 runTwb := carriesOut_of_exec fun _ _ _ => rfl
theorem kvq_carriesOut (s : State) : CarriesOut s .kvq 13 runKvq := carriesOut_of_exec fun _ _ _ => rfl
theorem crs_carriesOut (s : State) : CarriesOut s .crs 14 (runRows true) :=
  carriesOut_of_exec fun _ _ h => State.runColl_of_due h (runRows true)
theorem cag_carriesOut (s : State) : CarriesOut s .cag 15 (runRows false) :=
  carriesOut_of_exec fun _ _ h => State.runColl_of_due h (runRows false)
theorem cbar_carriesOut (s : State) : CarriesOut s .cbar 16 runCbar := carriesOut_of_exec fun _ _ h => execCbar_of_due h

/-- `CarriesOut.done` for a kind of which only the duration is stated. -/
theorem CarriesOut.carried {s : State} {i : Nat → Instr} {uid k d : Nat} {f : Task → State → Ran} {t : Task}
    (h : CarriesOut s i k f) (hd : DueTask s uid k t) (hf : ∃ s1 fl, f t s = .done s1 d fl) :
    ∃ u, exec (i uid) s = .next u ∧ Carried s u uid d := by
  obtain ⟨s1, fl, hf⟩ := hf
  obtain ⟨g, hexec, hcarried, -⟩ := h.done hd hf
  exact ⟨_, hexec, hcarried⟩

theorem wswp_exchanges {s : State} {uid : Nat} {t : Task} (hd : DueTask s uid 4 t) :
    ∃ u, exec (.wswp uid) s = .next u ∧ u.mem = s.mem ∧ Carried s u uid 1 ∧
      u.engineOf t = { s.engineOf t with act := (s.engineOf t).shadow, shadow := (s.engineOf t).act } := by
  obtain ⟨g, hexec, hcarried, -⟩ := (wswp_carriesOut s).done hd rfl
  refine ⟨_, hexec, rfl, hcarried, ?_⟩
  rw [State.engineOf_modTask, State.engineOf_setEngine]

theorem aclr_clears {s : State} {uid : Nat} {t : Task} (hd : DueTask s uid 6 t) :
    ∃ u, exec (.aclr uid) s = .next u ∧ u.mem = s.mem ∧
      let e := s.engineOf t
      let lo := 64 * recAr t.rec_
      let hi := lo + 64 * (recK t.rec_ 40 39 + 1)
      (∀ m n, n < 128 → mget (u.engineOf t).acc (128 * m + n) 0 = (if lo ≤ m ∧ m < hi then 0 else mget e.acc (128 * m + n) 0) ∧
        mget (u.engineOf t).part (128 * m + n) 0 = (if lo ≤ m ∧ m < hi then 0 else mget e.part (128 * m + n) 0)) ∧
      (∀ m, mget (u.engineOf t).cnt m 0 = if lo ≤ m ∧ m < hi then 0 else mget e.cnt m 0) ∧
      Carried s u uid (2 + 16 * (recK t.rec_ 40 39 + 1)) ∧
      (u.engineOf t).act = e.act ∧ (u.engineOf t).shadow = e.shadow := by
  obtain ⟨g, hexec, hcarried, -⟩ := (aclr_carriesOut s).done hd rfl
  refine ⟨_, hexec, rfl, ?_⟩
  intro e lo hi
  let inRows (m : Nat) : Bool := decide (lo ≤ m ∧ m < hi)
  rw [State.engineOf_modTask, State.engineOf_setEngine]
  refine ⟨fun m n hn => ⟨?_, ?_⟩, fun m => ?_, hcarried, rfl, rfl⟩
  · have h := mget_filter (fun k => inRows (k / 128)) e.acc (128 * m + n) 0
    simpa only [row_of_key hn, inRows, decide_eq_true_eq] using h
  · have h := mget_filter (fun k => inRows (k / 128)) e.part (128 * m + n) 0
    simpa only [row_of_key hn, inRows, decide_eq_true_eq] using h
  · have h := mget_filter inRows e.cnt m 0
    simpa only [inRows, decide_eq_true_eq] using h

/-! ### Where each completes -/

theorem wpre_completes {s : State} {uid : Nat} {t : Task} {x : Nat × Slot} {l : List (Nat × Slot)} (hd : DueTask s uid 3 t)
    (htiles : s.tilesAt t ((opnd t.rec_ 0).tags t.bound.asid 1) = some (x :: l)) (hcb : fmtCb x.2.tens.fmt = false)
    (hwt : weightType x.2.tens.fmt x.2.tens.sck t.copy.mode ≠ 0)
    (hke : weightKe (weightType x.2.tens.fmt x.2.tens.sck t.copy.mode) x.2.tens.sck * (recAr t.rec_ + 1) ≤ x.2.tens.e) :
    ∃ u n, exec (.wpre uid) s = .next u ∧ Carried s u uid (64 + n) ∧ (u.engineOf t).act = (s.engineOf t).act ∧
      (u.engineOf t).acc = (s.engineOf t).acc ∧
      (u.engineOf t).shadow.wt = weightType x.2.tens.fmt x.2.tens.sck t.copy.mode ∧
      (u.engineOf t).shadow.ke = weightKe (weightType x.2.tens.fmt x.2.tens.sck t.copy.mode) x.2.tens.sck := by
  obtain ⟨u, n, fl, hdone, hengine⟩ := runWpre_done htiles hcb hwt hke
  obtain ⟨g, hexec, hcarried, -⟩ := (wpre_carriesOut s).done hd hdone
  exact ⟨_, n, hexec, hcarried, hengine⟩

theorem mma_completes {s : State} {i : Nat → Instr} {uid k sck : Nat} {t : Task} {l : List (Nat × Slot)}
    (h : CarriesOut s i k (runMma sck)) (hd : DueTask s uid k t)
    (htiles : s.tilesAt t ((opnd t.rec_ 0).tags t.bound.asid 1) = some l)
    (hok : ∀ y ∈ l, (s.engineOf t).act.wt ≠ 0 ∧
      acceptsA (s.engineOf t).act.wt (s.engineOf t).act.ke y.2.tens.fmt y.2.tens.sck = true ∧
      y.2.tens.e = (s.engineOf t).act.ke ∧ y.2.tens.sck = sck) :
    ∃ u n, exec (i uid) s = .next u ∧ n ≤ 8 * l.length ∧ Carried s u uid (12 + 8 * n) ∧
      (u.engineOf t).act = (s.engineOf t).act ∧ (u.engineOf t).shadow = (s.engineOf t).shadow := by
  obtain ⟨e, n, fl, hn, hbuf, hdone⟩ := runMma_done htiles hok
  obtain ⟨g, hexec, hcarried, -⟩ := h.done hd hdone
  refine ⟨_, n, hexec, hn, hcarried, ?_⟩
  rw [State.engineOf_modTask, State.engineOf_setEngine]
  exact ⟨congrArg Prod.fst hbuf, congrArg Prod.snd hbuf⟩

theorem twb_completes {s : State} {uid : Nat} {t : Task} {xs : List (Nat × Slot)} (hd : DueTask s uid 12 t)
    (htiles : s.tilesAt t ((opnd t.rec_ 0).tags t.bound.asid (opnd t.rec_ 0).n0) = some xs)
    (hclean : ∀ g ∈ (opnd t.rec_ 0).tags t.bound.asid (opnd t.rec_ 0).n0, s.copiesOf (fun y => y.tag == g && y.dirty) = []) :
    ∃ u, exec (.twb uid) s = .next u ∧ Carried s u uid (32 * (opnd t.rec_ 0).tiles) ∧ u.mem = s.mem := by
  obtain ⟨g, hexec, hcarried, -⟩ := (twb_carriesOut s).done hd (runTwb_done htiles hclean)
  exact ⟨_, hexec, hcarried, State.readTiles_mem ..⟩

theorem cbar_completes {s s1 : State} {uid w dst pa : Nat} {t : Task} (hd : DueTask s uid 16 t)
    (hplaces : s.barPlaces t = (s1, .ok (w, dst, pa))) :
    ∃ u, exec (.cbar uid) s = .next u ∧ Carried s u uid 1 ∧ ∀ z ∈ u.tasks, z.uid = t.uid →
      z.out = [⟨((t.rec_.drop 2).headD 0) &&& ~~~7#64, dst, .add, pa, atOffsets 0 (leBytes 8 1), w⟩] := by
  have huid : t.uid = uid := State.task?_uid hd.1
  obtain ⟨g, hexec, hcarried, hg⟩ := (cbar_carriesOut s).done hd (runCbar_done hplaces)
  refine ⟨_, hexec, hcarried, fun z hz hid => ?_⟩
  obtain ⟨y, hy, hyid, rfl⟩ := State.mem_modTask hz (hid.trans huid)
  obtain ⟨y0, -, -, rfl⟩ := State.mem_modTask hy (hyid.trans huid.symm)
  exact (hg _).2

theorem itin_completes {s s1 : State} {uid : Nat} {t : Task} {ops : List (W64 × W64)} {p : W64} (hd : DueTask s uid 11 t)
    (hread : s.readList t ((t.rec_.drop 2).headD 0) (recK t.rec_ 47 40 + 1) [] t.fork = (s1, .ok (ops, p)))
    (hin : ∀ y ∈ ops, Opnd.passes y (Opnd.n0 y) = false) :
    ∃ u, exec (.itin uid) s = .next u ∧ ∀ z ∈ u.tasks, z.uid = t.uid → z.ran = true ∧ z.ops = ops := by
  refine ⟨_, (execItin_of_due hd).trans (congrArg Host.Outcome.next (State.startItin_of_list hread hin)), fun z hz hid => ?_⟩
  obtain ⟨y, -, -, rfl⟩ := State.mem_modTask hz hid
  exact ⟨rfl, rfl⟩

end Sys2Proof

open Sys2Proof Sys2Proof.Machine

/-- Settles O51. Each kind takes the course of `runTask`, and is done at once where its tiles, formats and places are in order; the
integer columns of a row are independent folds of `satI`. -/
theorem tileTasks : Obligations.TileTasks := by
  unfold Obligations.TileTasks
  refine ⟨fun s => ⟨wpre_carriesOut s, mma_carriesOut s, mmas_carriesOut s, drain_carriesOut s, tcpy_carriesOut s, tset_carriesOut s,
    txps_carriesOut s, tred_carriesOut s, twb_carriesOut s, kvq_carriesOut s, crs_carriesOut s, cag_carriesOut s, cbar_carriesOut s,
    fun _ _ => execItin_of_due, fun _ _ => wswp_exchanges, fun _ _ => aclr_clears⟩,
    fun s s1 uid t l l' xs ys x => ⟨wpre_completes, ?mma, ?drain, ?tset, ?pairs, twb_completes, ?kvq, ?rows,
      fun _ _ _ => cbar_completes, fun _ _ => itin_completes⟩, ?int⟩
  case mma =>
    rintro k (rfl | rfl) hd htiles hok
    · exact mma_completes (mma_carriesOut s) hd htiles hok
    · exact mma_completes (mmas_carriesOut s) hd htiles hok
  case drain => exact fun hd hprep hsck hfmt => (drain_carriesOut s).carried hd (runDrain_done hprep hsck hfmt)
  case tset => exact fun hd hprep hok => (tset_carriesOut s).carried hd (runTset_done hprep hok)
  case pairs =>
    refine fun k hprep htiles hd => ⟨?_, ?_, ?_⟩
    · rintro rfl hok
      exact (tcpy_carriesOut s).carried hd (runTcpy_done hprep htiles hok)
    · rintro rfl ⟨a, b, r, hpair, hfmt, hsa, hsb, hw, hfrom, hto⟩
      exact (txps_carriesOut s).carried hd (runTxps_done hprep htiles hpair hfmt hsa hsb hw hfrom hto)
    · rintro rfl hok
      exact (tred_carriesOut s).carried hd (runTred_done hprep htiles hok)
  case kvq =>
    rintro hd hprep ⟨y, htiles, hsrc, hsck⟩ hfmt hcb
    exact (kvq_carriesOut s).carried hd (runKvq_done hprep htiles hsrc hsck hfmt hcb)
  case rows =>
    refine fun y htile hwindow hfmt hsck hcbk => ⟨fun hd hzero hkind => ?_, fun hd => ?_⟩
    · exact (crs_carriesOut s).carried hd (runRows_done htile hwindow hfmt hsck hcbk fun _ => ⟨hzero, hkind⟩)
    · exact (cag_carriesOut s).carried hd (runRows_done htile hwindow hfmt hsck hcbk nofun)
  case int =>
    intro e fmt pm1 m w a ea bad hw sum
    obtain ⟨hcols, hrest⟩ := Engine.feed_int fmt pm1 m a ea bad hw
    refine ⟨fun n hn => ?_, fun m' n hn hm => hrest _ fun n' hn' => ?_, congrArg Prod.fst (Engine.feed_buffers ..)⟩
    · rw [hcols n hn, mmaInt_eq_sum]
    · omega

end

section
/-! Tile tasks that end (R308, R313): what ending a task, stopping a queue and passing RET change, and what they leave alone. -/

namespace Sys2Proof.Machine

/-! ### A task that ends (R308) -/

theorem State.releaseTask_offTlbs (s : State) (t : Task) : (s.releaseTask t).offTlbs = s.offTlbs :=
  foldl_same State.offTlbs _ _ _ fun _ _ => foldl_same State.offTlbs _ _ _ fun _ _ => rfl

/-- Changing a completion counter changes bound or saved strands alone. -/
theorem State.modTc_same {β : Type} (p : State → β) (hbound : ∀ (s : State) l, p { s with strands := l } = p s)
    (hsaved : ∀ (s : State) l, p { s with saved := l } = p s) (s : State) (t : Task) (f : Tc → Tc) : p (s.modTc t f) = p s := by
  unfold State.modTc
  dsimp only
  split
  · exact hsaved s _
  · split
    · exact hbound s _
    · rfl

theorem State.modLaunch_same {β : Type} (p : State → β) (hp : ∀ (s : State) l, p { s with launches := l } = p s) (s : State)
    (lid : Nat) (f : Launch → Launch) : p (s.modLaunch lid f) = p s := by
  unfold State.modLaunch
  split
  · rfl
  · exact hp s _

/-- What a task held, and the slots kept for it, are given back before its counter rises. -/
def State.yielded (s : State) (t : Task) : State := (s.releaseTask t).dropKept t

theorem State.yielded_offTlbs (s : State) (t : Task) : (s.yielded t).offTlbs = s.offTlbs := s.releaseTask_offTlbs t

@[simp] theorem State.endTask_mem (s : State) (t : Task) (f : Tc → Tc) : (s.endTask t f).mem = s.mem :=
  (State.modLaunch_mem _ _ _).trans ((State.modTc_same State.mem (fun _ _ => rfl) (fun _ _ => rfl) _ _ _).trans
    (congrArg State.mem (s.yielded_offTlbs t) :))

/-- The record of a task that is over. -/
def Task.ended (x : Task) : Task := { x with phase := .done, caps := [], out := [], tiles := [], ops := [] }

theorem State.endTask_tasks (s : State) (t : Task) (f : Tc → Tc) : (s.endTask t f).tasks = (s.modTask t.uid Task.ended).tasks := by
  have h (g : Tc → Tc) : ((s.yielded t).modTc t g).tasks = s.tasks :=
    (State.modTc_same State.tasks (fun _ _ => rfl) (fun _ _ => rfl) _ _ _).trans (congrArg State.tasks (s.yielded_offTlbs t) :)
  exact (State.modLaunch_same State.tasks (fun _ _ => rfl) _ _ _).trans (congrArg (List.map _) (h _))

theorem State.endTask_tqueues (s : State) (t : Task) (f : Tc → Tc) :
    (s.endTask t f).tqueues = (s.modTq t.qpa (fun q => { q with pts := wmax q.pts t.fork })).tqueues := by
  have h (g : Tc → Tc) : ((s.yielded t).modTc t g).tqueues = s.tqueues :=
    (State.modTc_same State.tqueues (fun _ _ => rfl) (fun _ _ => rfl) _ _ _).trans (congrArg State.tqueues (s.yielded_offTlbs t) :)
  exact (State.modLaunch_same State.tqueues (fun _ _ => rfl) _ _ _).trans (congrArg (List.map _) (h _))

/-- The counter of a task that is over rises by 1, where its strand is bound and not saved (R308). -/
theorem State.endTask_tc {s : State} {t : Task} (f : Tc → Tc) (hsaved : s.saved = [])
    (hbound : (s.strand t.strand).bound.any (fun b => b.lid == t.bound.lid && b.grp == t.bound.grp) = true) :
    ((s.endTask t f).strand t.strand).tc (recTc t.rec_) =
      let c := f ((s.strand t.strand).tc (recTc t.rec_))
      { c with count := c.count + 1, pts := wmax c.pts t.fork } := by
  have hstrands : (s.yielded t).strands = s.strands := (congrArg State.strands (s.yielded_offTlbs t) :)
  have hsaved' : (s.yielded t).saved = [] := ((congrArg State.saved (s.yielded_offTlbs t) :)).trans hsaved
  have hbound' : ((s.yielded t).strand t.strand).bound.any (fun b => b.lid == t.bound.lid && b.grp == t.bound.grp) = true := by
    rw [State.strand, hstrands]
    exact hbound
  have hlaunch (u : State) (g : Launch → Launch) : ((u.modLaunch t.bound.lid g).strand t.strand) = u.strand t.strand :=
    State.modLaunch_same (fun u => u.strand t.strand) (fun _ _ => rfl) _ _ _
  rw [State.endTask, hlaunch]
  change (((s.yielded t).modTc t _).strand t.strand).tc (recTc t.rec_) = _
  unfold State.modTc
  dsimp only
  rw [hsaved', List.any_nil, if_neg Bool.false_ne_true, if_pos hbound', State.strand_modStrand, if_pos rfl, Strand.tc, mget_mset,
    if_pos rfl, State.strand, hstrands]
  rfl

/-- A task after another's end is one as before, or one of the number that ended, which is over. -/
theorem State.of_mem_endTask {s : State} {t x : Task} {f : Tc → Tc} (hx : x ∈ (s.endTask t f).tasks) :
    x ∈ s.tasks ∧ x.uid ≠ t.uid ∨ ∃ y ∈ s.tasks, y.uid = t.uid ∧ x = y.ended := by
  rw [State.endTask_tasks] at hx
  obtain ⟨y, hy, rfl⟩ := List.mem_map.mp hx
  by_cases h : y.uid = t.uid
  · exact .inr ⟨y, hy, h, if_pos h⟩
  · rw [if_neg h]
    exact .inl ⟨hy, h⟩

/-- A task queue after a change of those at `qpa` is one elsewhere, or a changed one. -/
theorem State.of_mem_modTq {s : State} {qpa : Nat} {f : TaskQueue → TaskQueue} {q : TaskQueue} (hq : q ∈ (s.modTq qpa f).tqueues) :
    q ∈ s.tqueues ∧ q.qpa ≠ qpa ∨ ∃ q0 ∈ s.tqueues, q0.qpa = qpa ∧ q = f q0 := by
  obtain ⟨q0, hq0, rfl⟩ := List.mem_map.mp hq
  by_cases h : q0.qpa = qpa
  · exact .inr ⟨q0, hq0, h, if_pos h⟩
  · rw [if_neg h]
    exact .inl ⟨hq0, h⟩

/-- RET passing a task: the queue's number goes up and the task leaves the docent (R305). -/
def State.passed (s : State) (qpa : Nat) (n : Nat) : State :=
  { (s.modTq qpa (fun x => { x with ret := x.ret + 1 })) with tasks := s.tasks.filter (fun t => !(t.qpa == qpa && t.seqno == n)) }

/-- What RET's passing of one task keeps, its passing of all keeps. -/
theorem State.advanceRet_keeps {P : State → Prop} {qpa : Nat} (hstep : ∀ s n, P s → P (s.passed qpa n)) (f : Nat) {s : State}
    (h : P s) : P (s.advanceRet qpa f) := by
  induction f generalizing s with
  | zero => exact h
  | succ f ih =>
    unfold State.advanceRet
    split
    · exact h
    · next q _ =>
      split
      · exact ih (hstep s q.ret.toNat h)
      · exact h

theorem State.advanceRet_same {β : Type} (p : State → β) (hp : ∀ (s : State) l m, p { s with tqueues := l, tasks := m } = p s)
    (s : State) (qpa f : Nat) : p (s.advanceRet qpa f) = p s :=
  State.advanceRet_keeps (P := fun u => p u = p s) (fun u _ h => (hp u _ _).trans h) f rfl

theorem State.mem_of_advanceRet {s : State} {qpa f : Nat} {x : Task} (hx : x ∈ (s.advanceRet qpa f).tasks) : x ∈ s.tasks :=
  State.advanceRet_keeps (P := fun u => ∀ x ∈ u.tasks, x ∈ s.tasks) (fun _ _ h x hx => h x (List.mem_of_mem_filter hx)) f
    (fun _ h => h) x hx

theorem State.releaseClaim_same {β : Type} (p : State → β) (hp : ∀ (s : State) l, p { s with wings := l } = p s) (s : State)
    (t : Task) : p (s.releaseClaim t) = p s := by
  unfold State.releaseClaim
  split
  · exact hp s _
  · rfl

/-! ### A task that faults (R313) -/

/-- Where memory is as in `s`, the tasks of number `uid` are over and the queues at `qpa` are stopped. -/
structure State.FaultDone (s : State) (uid qpa : Nat) (u : State) : Prop where
  mem : u.mem = s.mem
  tasks : ∀ x ∈ u.tasks, x.uid = uid → x.phase = .done
  stopped : ∀ q ∈ u.tqueues, q.qpa = qpa → q.stop = true

theorem State.FaultDone.endTask {s u : State} {uid qpa : Nat} (h : s.FaultDone uid qpa u) (t : Task) (f : Tc → Tc) :
    s.FaultDone uid qpa (u.endTask t f) where
  mem := (u.endTask_mem t f).trans h.mem
  tasks x hx hid := by
    obtain ⟨hx, -⟩ | ⟨y, -, -, rfl⟩ := State.of_mem_endTask hx
    · exact h.tasks x hx hid
    · rfl
  stopped q hq hqpa := by
    rw [State.endTask_tqueues] at hq
    obtain ⟨hq, -⟩ | ⟨q0, hq0, -, rfl⟩ := State.of_mem_modTq hq
    · exact h.stopped q hq hqpa
    · exact h.stopped q0 hq0 hqpa

theorem State.FaultDone.passed {s u : State} {uid qpa : Nat} (h : s.FaultDone uid qpa u) (pa n : Nat) :
    s.FaultDone uid qpa (u.passed pa n) where
  mem := h.mem
  tasks x hx hid := h.tasks x (List.mem_of_mem_filter hx) hid
  stopped q hq hqpa := by
    obtain ⟨hq, -⟩ | ⟨q0, hq0, -, rfl⟩ := State.of_mem_modTq (f := fun x => { x with ret := x.ret + 1 }) hq
    · exact h.stopped q hq hqpa
    · exact h.stopped q0 hq0 hqpa

/-- A fault ends the task and stops its queue; memory stays. -/
theorem State.faultTask_done {s : State} {t : Task} (ht : s.task? t.uid = some t) (f : Trap) :
    s.FaultDone t.uid t.qpa (s.faultTask t.uid f) := by
  unfold State.faultTask
  rw [ht]
  dsimp only
  generalize hs1 : (if t.kind ≠ 3 then s else _ : State) = s1
  have hmem : s1.mem = s.mem := by
    rw [← hs1]
    split <;> rfl
  refine State.advanceRet_keeps (fun u n h => h.passed t.qpa n) 65 (foldl_keeps _ _ _ _ ?_ fun u x h => h.endTask x _)
  refine ⟨(State.endTask_mem ..).trans hmem, fun x hx hid => ?_, fun q hq hqpa => ?_⟩
  · obtain ⟨-, hne⟩ | ⟨y, -, -, rfl⟩ := State.of_mem_endTask hx
    · exact absurd hid hne
    · rfl
  · obtain ⟨-, hne⟩ | ⟨q0, -, -, rfl⟩ := State.of_mem_modTq hq
    · exact absurd hqpa hne
    · rfl

/-! ### `TASK_COMPLETE` (R308, R313) -/

theorem State.sendOut_of_none {s : State} {uid : Nat} {t : Task} (ht : s.task? uid = some t) (hout : t.out = []) (f : Nat) :
    s.sendOut uid f = s := by
  cases f with
  | zero => rfl
  | succ f =>
    unfold State.sendOut
    rw [ht]
    dsimp only
    rw [hout]

/-- A task that has been carried out and has nothing to send is judged as it stands. -/
theorem execTaskComplete_of_ran {s : State} {uid due : Nat} {t : Task} (ht : s.task? uid = some t) (hp : t.phase = .dispatched due)
    (hr : t.ran = true) (hout : t.out = []) : execTaskComplete uid s =
      if s.taskBusy t due then .next s
      else match t.fault with
        | some f => .next (s.faultTask t.uid f)
        | none => .next ((((t.wrote.foldl (fun (s : State) (g : Tag × Nat) => s.bumpVersion g.1 g.2) s).endTask t
            (fun c => { c with flags := c.flags ||| t.flags })).releaseClaim t).advanceRet t.qpa 65) := by
  unfold execTaskComplete
  rw [ht]
  dsimp only
  rw [hp]
  dsimp only
  rw [hr, State.sendOut_of_none ht hout, ite_self, ht]
  rfl

theorem taskComplete_done {s : State} {uid due : Nat} {t : Task} (ht : s.task? uid = some t) (hp : t.phase = .dispatched due)
    (hr : t.ran = true) (hout : t.out = []) (hidle : s.taskBusy t due = false) (hfault : t.fault = none) :
    ∃ u, exec (.taskComplete uid) s = .next u ∧ u.mem = s.mem ∧ (∀ x ∈ u.tasks, x.uid = uid → x.phase = .done) ∧
      (s.saved = [] → (s.strand t.strand).bound.any (fun b => b.lid == t.bound.lid && b.grp == t.bound.grp) = true →
        ((u.strand t.strand).tc (recTc t.rec_)).count = ((s.strand t.strand).tc (recTc t.rec_)).count + 1 ∧
        ((u.strand t.strand).tc (recTc t.rec_)).flags = ((s.strand t.strand).tc (recTc t.rec_)).flags ||| t.flags ∧
        ((u.strand t.strand).tc (recTc t.rec_)).fault = ((s.strand t.strand).tc (recTc t.rec_)).fault) := by
  have huid : t.uid = uid := State.task?_uid ht
  have hexec : exec (.taskComplete uid) s = _ := execTaskComplete_of_ran ht hp hr hout
  rw [hidle, hfault, if_neg Bool.false_ne_true] at hexec
  generalize hs2 : t.wrote.foldl (fun (s : State) (g : Tag × Nat) => s.bumpVersion g.1 g.2) s = s2 at hexec
  have hsame {β : Type} (p : State → β) (hcat : ∀ (s : State) l, p { s with catalogue := l } = p s) : p s2 = p s :=
    hs2 ▸ foldl_same p _ _ _ fun u g => hcat u _
  refine ⟨_, hexec, ?_, fun x hx hid => ?_, fun hsaved hbound => ?_⟩
  · rw [State.advanceRet_same State.mem fun _ _ _ => rfl, State.releaseClaim_same State.mem fun _ _ => rfl, State.endTask_mem]
    exact hsame State.mem fun _ _ => rfl
  · have hx := State.mem_of_advanceRet hx
    rw [State.releaseClaim_same State.tasks fun _ _ => rfl] at hx
    obtain ⟨-, hne⟩ | ⟨y, -, -, rfl⟩ := State.of_mem_endTask hx
    · exact absurd (hid.trans huid.symm) hne
    · rfl
  · have hstrand : s2.strand t.strand = s.strand t.strand := hsame (fun u => u.strand t.strand) fun _ _ => rfl
    have htc := State.endTask_tc (s := s2) (t := t) (fun c => { c with flags := c.flags ||| t.flags })
      ((hsame State.saved fun _ _ => rfl).trans hsaved) (by rw [hstrand]; exact hbound)
    rw [hstrand] at htc
    rw [State.advanceRet_same (fun u => u.strand t.strand) fun _ _ _ => rfl,
      State.releaseClaim_same (fun u => u.strand t.strand) fun _ _ => rfl, htc]
    exact ⟨rfl, rfl, rfl⟩

theorem taskComplete_faults {s : State} {uid due : Nat} {t : Task} {f : Trap} (ht : s.task? uid = some t)
    (hp : t.phase = .dispatched due) (hr : t.ran = true) (hout : t.out = []) (hidle : s.taskBusy t due = false)
    (hfault : t.fault = some f) :
    ∃ u, exec (.taskComplete uid) s = .next u ∧ u.mem = s.mem ∧ (∀ x ∈ u.tasks, x.uid = uid → x.phase = .done) ∧
      (∀ q ∈ u.tqueues, q.qpa = t.qpa → q.stop = true) := by
  obtain rfl : t.uid = uid := State.task?_uid ht
  have hexec : exec (.taskComplete t.uid) s = _ := execTaskComplete_of_ran ht hp hr hout
  rw [hidle, hfault, if_neg Bool.false_ne_true] at hexec
  obtain ⟨hmem, htasks, hstopped⟩ := State.faultTask_done ht f
  exact ⟨_, hexec, hmem, htasks, hstopped⟩

/-! ### `DOCENT_GRANT` (R102, R317) -/

/-- A fold whose members leave its start alone. -/
theorem foldl_members_same {α β : Type} {f : β → α → β} {b : β} {l : List α} (h : ∀ a ∈ l, f b a = b) : l.foldl f b = b := by
  induction l with
  | nil => rfl
  | cons a r ih => rw [List.foldl_cons, h a List.mem_cons_self, ih fun x hx => h x (List.mem_cons_of_mem a hx)]


/-- One item offered is the item served. -/
theorem Arbiter.pick_one (a : Arbiter) (o : Offer) : a.pick [o] = some o := by
  have hafter (p : Option Nat) (x : Nat) : afterPtr p [x] = some x := by
    cases p with
    | none => rfl
    | some k => by_cases h : k < x <;> simp [afterPtr, h]
  have hq : [o.q].eraseDups = [o.q] := by simp [List.eraseDups_cons]
  simp [Arbiter.pick, hafter, hq]

theorem Arbiter.pick_none (a : Arbiter) : a.pick [] = none := rfl

/-- A docent with no eligible task of its wing grants nothing; its arbiter alone may change. -/
theorem State.docentGo_of_none {s : State} {w : Nat} (h : ∀ t ∈ s.tasks, t.wing = w → s.eligible t = false) (skip : List Nat)
    (f : Nat) : ∃ a, s.docentGo w skip f = s ∨ s.docentGo w skip f = s.modWing w (fun g => { g with docent := a }) := by
  cases f with
  | zero => exact ⟨(s.wing w).docent, .inl rfl⟩
  | succ f =>
    have hel : s.tasks.filter (fun t => t.wing == w && s.eligible t) = [] := List.filter_eq_nil_iff.mpr fun t ht => by
      simpa using h t ht
    refine ⟨(s.wing w).docent.enter [], .inr ?_⟩
    unfold State.docentGo
    dsimp only
    rw [hel]
    rfl

/-- Where the tasks of a wing that are not dispatched are queued, without a fault and not cancelled, the clock is its docent's. -/
theorem execDocentGrant_of_queued {s : State} {w : Nat} (h : ∀ t ∈ s.tasks, t.wing = w → t.phase = .queued ∨ t.phase = .parked →
      t.phase = .queued ∧ t.cancelled = false ∧ t.fault = none) :
    execDocentGrant w s = if s.docentHeld w then .next s else .next (s.docentGo w [] 4) := by
  unfold execDocentGrant
  extract_lets idle s0 s1 s2
  have hidle : ∀ t ∈ idle s, t.phase = .queued ∧ t.cancelled = false ∧ t.fault = none := fun t ht => by
    obtain ⟨hmem, hw⟩ := List.mem_filter.mp ht
    simp only [Bool.and_eq_true, beq_iff_eq, Bool.or_eq_true, decide_eq_true_eq] at hw
    exact h t hmem hw.1 hw.2
  have hcancel : (idle s).filter Task.cancelled = [] := List.filter_eq_nil_iff.mpr fun t ht => by simp [(hidle t ht).2.1]
  have hs0 : s0 = s := by simp only [s0, hcancel, List.foldl_nil]
  have hs1 : s1 = s := by
    simp only [s1, hs0]
    exact foldl_members_same fun t ht => by rw [(hidle t ht).2.2]
  have hs2 : s2 = s := by
    simp only [s2, hs1]
    rw [List.filter_eq_nil_iff.mpr fun t ht => by simp [(hidle t ht).1], List.foldl_nil]
  rw [hs2]

section
variable {s s1 s2 : State} {t t' : Task} (htasks : s.tasks = [t]) (hel : s.eligible t = true)
  (htake : (s.modWing t.wing (fun g => { g with docent := (s.wing t.wing).docent.enter [t.bound.qnum] })).takeUp t = (s1, t'))
  (hask : s1.askTiles t' = (s2, .ready))
include htasks hel htake hask

/-- The one task of a module, eligible and with its tiles ready, is granted: it is dispatched, and the docent looks again. -/
theorem State.docentGo_of_one (f : Nat) :
    let o : Offer := ⟨t.bound.qnum, t.bound.lid, t.qpa, Nat.min (s.nominal t) 16384, t.uid⟩
    let u1 := (s2.modWing t.wing (fun g => { g with docent :=
      ((s.wing t.wing).docent.enter [t.bound.qnum]).grant (s.tickets o.q) o })).dispatchTask t'
    s.docentGo t.wing [] (f + 1) = u1.docentGo t.wing [] f := by
  intro o u1
  have hq : [t.bound.qnum].eraseDups = [t.bound.qnum] := by simp [List.eraseDups_cons]
  have hfilter : s.tasks.filter (fun x => x.wing == t.wing && s.eligible x) = [t] := by simp [htasks, hel]
  have hfind (f : Wing → Wing) : (s.modWing t.wing f).task? t.uid = some t := by
    rw [State.task?, State.modWing_tasks, htasks]
    simp
  generalize hr : u1.docentGo t.wing [] f = r
  unfold State.docentGo
  extract_lets el cand source least offers arb s0
  have harb : arb = (s.wing t.wing).docent.enter [t.bound.qnum] := by simp only [arb, el, hfilter, List.map_cons, List.map_nil, hq]
  have hoffers : offers = [o] := by simp [offers, least, cand, el, hfilter, source, o]
  rw [hoffers, Arbiter.pick_one]
  dsimp only
  rw [hfind]
  dsimp only [s0]
  rw [harb, htake]
  dsimp only
  rw [hask]
  exact hr

theorem docentGrant_dispatches (hheld : s.docentHeld t.wing = false) :
    let o : Offer := ⟨t.bound.qnum, t.bound.lid, t.qpa, Nat.min (s.nominal t) 16384, t.uid⟩
    let u1 := (s2.modWing t.wing (fun g => { g with docent :=
      ((s.wing t.wing).docent.enter [t.bound.qnum]).grant (s.tickets o.q) o })).dispatchTask t'
    (∀ x ∈ u1.tasks, u1.eligible x = false) →
    ∃ u, exec (.docentGrant t.wing) s = .next u ∧ u.tasks = u1.tasks ∧ u.mem = s2.mem := by
  intro o u1 hrest
  have hqueued : t.phase = .queued ∧ t.cancelled = false ∧ t.fault = none := by
    simp only [State.eligible, Bool.and_eq_true, decide_eq_true_eq, Option.isNone_iff_eq_none, Bool.not_eq_true'] at hel
    tauto
  have hexec : exec (.docentGrant t.wing) s = _ := execDocentGrant_of_queued (w := t.wing) fun x hx _ _ => by
    rw [htasks, List.mem_singleton] at hx
    exact hx ▸ hqueued
  rw [if_neg (by rw [hheld]; exact Bool.false_ne_true), State.docentGo_of_one htasks hel htake hask] at hexec
  refine ⟨_, hexec, ?_⟩
  have hmem : u1.mem = s2.mem := by
    simp only [u1, State.dispatchTask, State.claimEngine]
    split <;> rfl
  obtain ⟨a, hgo | hgo⟩ := State.docentGo_of_none (fun x hx _ => hrest x hx) (w := t.wing) [] 3
  · rw [hgo]
    exact ⟨rfl, hmem⟩
  · rw [hgo]
    exact ⟨rfl, hmem⟩

end

theorem docentGrant_idle {s : State} {w : Nat} (h : ∀ t ∈ s.tasks, t.wing = w → t.phase ≠ .queued ∧ t.phase ≠ .parked) :
    ∃ u, exec (.docentGrant w) s = .next u ∧ u.mem = s.mem ∧ u.tasks = s.tasks ∧ u.agenda = s.agenda := by
  have hexec : exec (.docentGrant w) s = _ := execDocentGrant_of_queued fun t ht hw hp => by
    have := h t ht hw
    tauto
  rw [hexec]
  split
  · exact ⟨s, rfl, rfl, rfl, rfl⟩
  · obtain ⟨a, hgo | hgo⟩ := State.docentGo_of_none (s := s) (w := w) (fun t ht hw => by simp [State.eligible, (h t ht hw).1]) [] 4
    · exact ⟨_, rfl, by rw [hgo], by rw [hgo], by rw [hgo]⟩
    · exact ⟨_, rfl, by rw [hgo]; rfl, by rw [hgo]; rfl, by rw [hgo]; rfl⟩

/-! ### `QUEUE_DETACH` (R304) -/

theorem State.tqueue?_qpa {s : State} {qpa : Nat} {q : TaskQueue} (h : s.tqueue? qpa = some q) : q.qpa = qpa := by
  simpa using List.find?_some h

theorem queueDetach_keeps {s : State} {qpa : Nat} {q : TaskQueue} (hq : s.tqueue? qpa = some q)
    (hbusy : (decide (q.seqno = q.ret) && !q.stop && !(s.wing q.wing).engines.any (fun e => e.2.claim == some qpa) &&
      !s.tasks.any (fun t => t.qpa == qpa)) = false) : exec (.queueDetach qpa) s = .next s := by
  change execQueueDetach qpa s = _
  unfold execQueueDetach
  rw [hq]
  refine if_pos ?_
  simp only [Bool.and_eq_false_iff, decide_eq_false_iff_not, Bool.not_eq_false'] at hbusy
  tauto

theorem queueDetach_detaches {s : State} {qpa : Nat} {q : TaskQueue} (hq : s.tqueue? qpa = some q)
    (hidle : (decide (q.seqno = q.ret) && !q.stop && !(s.wing q.wing).engines.any (fun e => e.2.claim == some qpa) &&
      !s.tasks.any (fun t => t.qpa == qpa)) = true) :
    let old := leNat (s.readBytes (qpa + 16) 1)
    let header := leBytes 8 q.seqno.toNat ++ leBytes 8 q.ret.toNat ++ leBytes 1 (old - old % 2)
    ∃ u, exec (.queueDetach qpa) s = .next u ∧ u.tqueue? qpa = none ∧ u.tasks = s.tasks ∧
      ∀ a, u.readBytes a 1 = if qpa ≤ a ∧ a < qpa + 17 then (header.drop (a - qpa)).take 1 else s.readBytes a 1 := by
  intro old header
  obtain rfl : q.qpa = qpa := State.tqueue?_qpa hq
  have hlen : header.length = 17 := by simp [header, leBytes]
  have hexec : exec (.queueDetach q.qpa) s = .next { s.writeHeader q false with
      tqueues := (s.writeHeader q false).tqueues.filter (fun x => x.qpa != q.qpa) } := by
    change execQueueDetach q.qpa s = _
    unfold execQueueDetach
    rw [hq]
    refine if_neg ?_
    simp only [Bool.and_eq_true, decide_eq_true_eq, Bool.not_eq_true'] at hidle
    obtain ⟨⟨⟨hseq, hstop⟩, hclaim⟩, htasks⟩ := hidle
    simp [hseq, hstop, hclaim, htasks]
  refine ⟨_, hexec, ?_, ?_, fun a => ?_⟩
  · exact List.find?_eq_none.mpr fun x hx => by simpa using (List.mem_filter.mp hx).2
  · exact (congrArg State.tasks (s.store_offMemory q.pts _) :)
  · rw [← hlen]
    exact State.readBytes_of_stored_run (s.store_view q.pts (atOffsets q.qpa header)) a

/-! ### `TILE_FILL_COMPLETE` (R284, R288, R289) -/

section
variable {s s1 : State} {w id : Nat} {f : Fill}
  (hfind : (s.wing w).fills.find? (fun f => f.id == id && !f.done && f.placed && !f.zero) = some f)
include hfind

theorem tileFill_described (hdesc : f.desc = false) {g : Got Tensor}
    (hget : s.tileDesc f.bound w f.tag (f.waiters.foldl (fun p who => wmax p (s.waiterPts who)) 0) .poison = (s1, g)) :
    (∀ t, g = .bad t → exec (.tileFillComplete w id) s = .next (s1.failFill w f t)) ∧
    (g = .wait → exec (.tileFillComplete w id) s = .next s1) := by
  have hexec (r : Result) : exec (.tileFillComplete w id) s = r ↔ execTileFillComplete w id s = r := .rfl
  simp only [hexec]
  unfold execTileFillComplete State.describe
  rw [hfind]
  dsimp only
  rw [hdesc, if_neg Bool.false_ne_true, hget]
  constructor
  · rintro t rfl
    rfl
  · rintro rfl
    rfl

theorem tileFill_planned (hdesc : f.desc = true) (hplan : f.planned = false) :
    let p := s.planFill w f.bound f.tag f.tens
    (∀ t, p.plan.verdict = some t → exec (.tileFillComplete w id) s = .next (p.plan.st.failFill w f t)) ∧
    (p.plan.verdict = none → p.plan.miss = true → exec (.tileFillComplete w id) s = .next (p.plan.st.modWing w (fun y =>
      { y with fills := y.fills.map (fun x => if x.id = id then f else x) }))) := by
  intro p
  have hdescribe : s.describe w f = (s, .ok f) := if_pos hdesc
  have hexec (r : Result) : exec (.tileFillComplete w id) s = r ↔ execTileFillComplete w id s = r := .rfl
  simp only [hexec]
  unfold execTileFillComplete
  rw [hfind]
  dsimp only
  rw [hdescribe]
  dsimp only
  rw [hplan, if_neg Bool.false_ne_true]
  refine ⟨fun t ht => ?_, fun hnone hmiss => ?_⟩
  · rw [show (s.planFill w f.bound f.tag f.tens).plan.verdict = some t from ht]
  · rw [show (s.planFill w f.bound f.tag f.tens).plan.verdict = none from hnone]
    exact if_pos hmiss

theorem tileFill_installs {l : List Rd} (hdesc : f.desc = true) (hplan : f.planned = true)
    (hreads : s.windowReads (.fill w f.id) f.bound.part f.rds [] = (s1, l, true)) (hfull : s1.sliceFull f.tag f.slice = false)
    (hnew : (s1.wing w).find f.tag = none) :
    exec (.tileFillComplete w id) s = .next (s1.installFill w { f with rds := l } l) := by
  have hdescribe : s.describe w f = (s, .ok f) := if_pos hdesc
  have heta : { f with planned := true, rds := f.rds, pages := f.pages } = f := by
    rw [← hplan]
  change execTileFillComplete w id s = _
  unfold execTileFillComplete
  rw [hfind]
  dsimp only
  rw [hdescribe]
  dsimp only
  rw [if_pos hplan]
  have hverdict : ({ st := s, rds := f.rds } : Plan).verdict = none := rfl
  simp only [hverdict, heta, hreads, hplan]
  rw [if_neg Bool.false_ne_true, if_neg (by simp [hfull, hnew])]

omit hfind in
theorem tileFill_absent (hnone : (s.wing w).fills.find? (fun f => f.id == id && !f.done && f.placed && !f.zero) = none) :
    exec (.tileFillComplete w id) s = .next s := by
  change execTileFillComplete w id s = _
  unfold execTileFillComplete
  rw [hnone]

end

/-- What a slot holds: whether a valid copy, of which tile, under which descriptor. -/
def Slot.held (x : Slot) : Bool × Tag × Tensor := (x.v, x.tag, x.tens)

theorem Slot.pinned_held (x : Slot) (hint p : Nat) : (x.pinned hint p).held = x.held := rfl

@[simp] theorem State.slotOf_setSlot (s : State) (w k : Nat) (x : Slot) : (s.setSlot w k x).slotOf w k = x := by
  rw [State.slotOf, State.setSlot, State.wing_modWing, if_pos rfl, Wing.slot, Wing.setSlot, mget_mset, if_pos rfl]

/-- A change of wings that keeps their slots. -/
theorem State.slotOf_modWing {f : Wing → Wing} (s : State) (v w k : Nat) (hf : ∀ g, (f g).slots = g.slots) :
    (s.modWing v f).slotOf w k = s.slotOf w k := by
  unfold State.slotOf Wing.slot
  rw [State.wing_modWing]
  split
  · next h => rw [hf, h]
  · rfl

theorem State.touch_slotOf (s : State) (v j w k : Nat) : (s.touch v j).slotOf w k = s.slotOf w k := by
  unfold State.touch
  exact State.slotOf_modWing _ _ _ _ fun _ => rfl

theorem State.modCat_slotOf (s : State) (g : Tag) (slice : Nat) (f : CatEntry → CatEntry) (w k : Nat) :
    (s.modCat g slice f).slotOf w k = s.slotOf w k := rfl

theorem State.pinAsked_held (s : State) (w k : Nat) (l : List (Nat × Nat)) :
    ((s.pinAsked w k l).slotOf w k).held = (s.slotOf w k).held :=
  foldl_same (fun u : State => (u.slotOf w k).held) _ l s fun u h => by
    dsimp only
    split
    · rfl
    · rw [State.slotOf_setSlot, Slot.pinned_held]

theorem State.release_slotOf (s : State) (v w k : Nat) : (s.release v).slotOf w k = s.slotOf w k :=
  State.slotOf_modWing _ _ _ _ fun _ => rfl

theorem State.release_fills (s : State) (w : Nat) : ((s.release w).wing w).fills = (s.wing w).fills := by
  unfold State.release
  dsimp only
  rw [State.wing_modWing, if_pos rfl]

/-- The last steps of an installation: the copy in its slot, the catalogue's holder, pins, the fill's end (R288 steps 5 and 6). -/
def State.placeCopy (s : State) (w : Nat) (f : Fill) (l : List Rd) (x : Slot) : State :=
  let k := 16 * f.set + f.way
  (((((s.setSlot w k x).touch w k).modCat f.tag f.slice (fun e => { e with holders := e.holders ||| (1#64 <<< w) })).pinAsked w k
    f.hints).modWing w (fun y => { y with fills := (y.fills.filter (fun h => h.id != f.id)) ++
      (if x.once then [{ f with done := true, rds := l }] else []) })).release w

theorem State.installFill_places (s : State) (w : Nat) (f : Fill) (rds : List Rd) :
    ∃ (u : State) (l : List Rd) (x : Slot), s.installFill w f rds = u.placeCopy w f l x ∧ x.held = (true, f.tag, f.tens) :=
  ⟨_, _, _, rfl, rfl⟩

theorem State.placeCopy_held (s : State) (w : Nat) (f : Fill) (l : List Rd) (x : Slot) :
    ((s.placeCopy w f l x).slotOf w (16 * f.set + f.way)).held = x.held := by
  rw [State.placeCopy, State.release_slotOf, State.slotOf_modWing _ _ _ _ (by exact fun _ => rfl), State.pinAsked_held,
    State.modCat_slotOf, State.touch_slotOf, State.slotOf_setSlot]

theorem State.placeCopy_fills {s : State} {w : Nat} {f : Fill} {l : List Rd} {x : Slot} {h : Fill}
    (hh : h ∈ ((s.placeCopy w f l x).wing w).fills) (hid : h.id = f.id) : h.done = true := by
  rw [State.placeCopy, State.release_fills, State.wing_modWing, if_pos rfl] at hh
  obtain hh | hh := List.mem_append.mp hh
  · simp [hid] at hh
  · split at hh
    · rw [List.mem_singleton.mp hh]
    · cases hh

end Sys2Proof.Machine

open Sys2Proof Sys2Proof.Machine

/-- Settles O52: each event by what it does in the case stated; the frames of a task's end and of RET's advance. -/
theorem taskLifecycle : Obligations.TaskLifecycle := by
  unfold Obligations.TaskLifecycle
  refine ⟨?grant, fun _ _ => docentGrant_idle, ?complete, ?early, ?detach, ?fill, fun _ _ _ => tileFill_absent⟩
  case grant =>
    rintro s s1 s2 _ t t' htasks rfl hel hheld o arb htake hask u1 hrest
    exact docentGrant_dispatches htasks hel htake hask hheld hrest
  case complete =>
    intro s uid due t ht hp hr hops hout hpend hdue hkind
    have hidle : s.taskBusy t due = false := by
      simp [State.taskBusy, hkind, hops, hout, hpend, hdue]
    exact ⟨fun hfault => taskComplete_done ht hp hr hout hidle hfault, fun f hfault => taskComplete_faults ht hp hr hout hidle hfault⟩
  case early =>
    intro s uid due t ht hp hr hdue hfault hkind hout
    have hbusy : s.taskBusy t due = true := by simp [State.taskBusy, hkind, hfault, hdue]
    exact (execTaskComplete_of_ran ht hp hr hout).trans (if_pos hbusy)
  case detach =>
    exact fun s qpa q hq => ⟨fun hbusy => queueDetach_keeps hq hbusy, fun hidle => queueDetach_detaches hq hidle⟩
  case fill =>
    intro s s1 w id f l hfind p
    refine ⟨fun hdesc g hget => tileFill_described hfind hdesc hget, fun hdesc hplan => tileFill_planned hfind hdesc hplan,
      fun hdesc hplan hreads hfull hnew => ?_⟩
    obtain ⟨u, l', y, hplace, hheld⟩ := s1.installFill_places w { f with rds := l } l
    rw [← u.placeCopy_held w { f with rds := l } l' y] at hheld
    simp only [Slot.held, Prod.mk.injEq] at hheld
    obtain ⟨hv, htag, htens⟩ := hheld
    exact ⟨_, (tileFill_installs hfind hdesc hplan hreads hfull hnew).trans (congrArg _ hplace), hv, htag, htens,
      fun x => State.placeCopy_fills⟩

end

section
/-! What strands do to task queues and launch queues (R84, R156, R309 to R312, R314, R338): a write of slot C leaves the task queues, and
each instruction does what its clock says. -/

namespace Sys2Proof.Machine

/-! ### A write of slot C leaves the task queues -/

theorem State.walkPut_offMemory (s : State) (sp : Space) (w : Nat) (va : W64) (d : Bool) :
    (s.walkPut sp w va d).1.offMemory = s.offMemory := by
  rw [← s.walk_offMemory sp va d]
  unfold State.walkPut
  dsimp only
  split <;> rfl

theorem State.xlateNow_offMemory (s : State) (sp : Space) (w : Nat) (va : W64) (acc : Acc) :
    (s.xlateNow sp w va acc).1.offMemory = s.offMemory := by
  unfold State.xlateNow
  extract_lets found r
  clear_value found
  have hr : r.1.offMemory = s.offMemory := by
    simp only [r]
    split
    · rfl
    · exact s.walkPut_offMemory ..
  clear_value r
  obtain ⟨s1, e⟩ := r
  split
  · rfl
  cases e with
  | fault k x => exact hr
  | leaf t =>
    dsimp only at hr ⊢
    split
    · exact hr
    split
    · have hput := (s1.walkPut_offMemory sp w va true).trans hr
      split
      · next h => rwa [h] at hput
      · next h => rwa [h] at hput
    · exact hr

theorem State.logWrite_offMemory (s : State) (sp : Space) (va : W64) (bytes : List Byte) :
    (s.logWrite sp va bytes).1.offMemory = s.offMemory :=
  foldl_same (fun a : State × Bool => a.1.offMemory) _ _ _ fun a j => by
    have hx := a.1.xlateNow_offMemory sp (8 * sp.die) (va + BitVec.ofNat 64 (64 * j)) .store
    dsimp only
    split
    · exact hx
    · split
      · exact hx
      · exact (State.recall_offMemory _ _).trans hx

theorem State.modLaunch_tqueues (s : State) (lid : Nat) (f : Launch → Launch) : (s.modLaunch lid f).tqueues = s.tqueues :=
  State.modLaunch_same State.tqueues (fun _ _ => rfl) s lid f

theorem State.logLine_tqueues (s : State) (lid die line : Nat) : (s.logLine lid die line).tqueues = s.tqueues := by
  unfold State.logLine
  split
  · rfl
  split
  · rfl
  split
  · exact s.modLaunch_tqueues _ _
  extract_lets cw k sp t img h mk bytes
  split
  · exact s.modLaunch_tqueues _ _
  · have hlog : (t.logWrite sp (ctxWlbase cw + BitVec.ofNat 64 (320 * k)) bytes).1.tqueues = s.tqueues :=
      (congrArg State.tqueues ((t.logWrite_offMemory sp _ bytes).trans (s.recall_offMemory line)) :)
    dsimp only
    split
    · exact (State.modLaunch_tqueues _ _ _).trans hlog
    · exact (State.modLaunch_tqueues _ _ _).trans hlog

theorem State.storeBy_tqueues (s : State) (n : Nat) (bytes : List (Nat × Byte)) : (s.storeBy n bytes).tqueues = s.tqueues := by
  unfold State.storeBy
  extract_lets s0
  have h0 : s0.tqueues = s.tqueues := by
    simp only [s0]
    split
    · rfl
    · exact foldl_same State.tqueues _ _ _ fun u l => u.logLine_tqueues _ _ l
  exact ((congrArg State.tqueues (s0.store_offMemory _ bytes) :)).trans h0

theorem State.emit_tqueues (s : State) (dst seqno part : Nat) (kind : PktKind) (pa : Nat) (bytes : List (Nat × Byte)) (who : Waiter) :
    (s.emit dst seqno part kind pa bytes who).tqueues = s.tqueues := by
  unfold State.emit State.portGrant State.sendOver
  dsimp only
  repeat' split
  all_goals rfl

theorem State.request_tqueues (s : State) (dst part : Nat) (kind : PktKind) (pa : Nat) (bytes : List (Nat × Byte)) (who : Waiter)
    (window : Option Nat) (va : W64) : (s.request dst part kind pa bytes who window va).1.tqueues = s.tqueues := by
  unfold State.request
  dsimp only
  split
  · rfl
  · exact State.emit_tqueues ..

theorem State.post_tqueues (s : State) (n id : Nat) (va : W64) (dst : Nat) (kind : PktKind) (pa : Nat) (bytes : List (Nat × Byte))
    (window : Option Nat) : (s.post n id va dst kind pa bytes window).tqueues = s.tqueues := by
  have hrst : (s.loseRstOf n).tqueues = s.tqueues := by
    unfold State.loseRstOf
    split
    · rfl
    · exact s.modLaunch_tqueues _ _
  exact (State.request_tqueues ..).trans hrst

theorem State.oneWrite_tqueues {s t : State} {n : Nat} {e : Entry} {va : W64} {bs : List Byte} (h : s.oneWrite n e va bs = (t, true)) :
    t.tqueues = s.tqueues := by
  have haccess := Plan.access_offTlbs { st := s } n e.slot .store va bs.length
  unfold State.oneWrite at h
  extract_lets p at h
  have hp : p.st.tqueues = s.tqueues := (congrArg State.tqueues haccess :)
  split at h
  · cases h
  · split at h
    · cases h
      exact (State.storeBy_tqueues ..).trans hp
    · next w dst pa _ =>
      obtain ⟨q, hq⟩ := p.st.askAllow_frame w (.op n e.id) 1
      dsimp only at h
      split at h
      · cases h
        rw [State.post_tqueues, hq]
        exact hp
      · cases h
  · cases h

/-- The header's translation leaves all but the cores' and wings' TLBs and miss tables, where it succeeds. -/
theorem State.queuePa_offTlbs {s t : State} {n qpa : Nat} {e : Entry} {q : W64} (h : s.queuePa n e q = (t, some qpa)) :
    t.offTlbs = s.offTlbs := by
  have haccess := Plan.access_offTlbs { st := s } n e.slot .load q 64
  unfold State.queuePa at h
  extract_lets p at h
  split at h
  · cases h
  · split at h
    · cases h
      exact haccess
    · cases h
  · cases h

/-! ### The open operation that goes on (R426) -/

theorem State.entry?_of_resuming {s : State} {i : Instr} {e : Entry} (h : s.resuming i = some e) : s.entry? s.cur e.id = some e := by
  unfold State.resuming at h
  split at h
  · cases h
  · next id _ =>
    obtain ⟨he, -⟩ := Option.filter_eq_some_iff.mp h
    have hid : e.id = id := by simpa using List.find?_some he
    rwa [hid]

/-- The end of a waiting operation changes its strand and the agenda alone. -/
theorem State.finishC_same {β : Type} (p : State → β) (hp : ∀ (s : State) l a, p { s with strands := l, agenda := a } = p s)
    (s : State) (n : Nat) (e : Entry) (vals : List DVal) : p (s.finishC n e vals) = p s := by
  unfold State.finishC
  dsimp only
  split
  · exact hp s _ _
  · exact hp s _ _

theorem State.finishC_entry? (s : State) (n : Nat) (e : Entry) (vals : List DVal) : (s.finishC n e vals).entry? n e.id = none := by
  have hdrop : (s.dropEntry n e.id).entry? n e.id = none := by
    rw [State.entry?, State.dropEntry_strand, if_pos rfl]
    exact Strand.find?_dropped ..
  unfold State.finishC
  dsimp only
  split
  · exact hdrop
  · change ((s.dropEntry n e.id).sendFlight n _).entry? n e.id = none
    rw [State.entry?, State.sendFlight_strand, if_pos rfl]
    exact hdrop

/-! ### `TENQ` (R309) -/

/-- A record enqueued in a queue that runs, with no bank to capture. -/
theorem State.enqueue_of_running {q : TaskQueue} (hstop : q.stop = false) (s : State) (n : Nat) (e : Entry) (bd : Bound) (r : List W64) :
    ∃ (u : State) (t : Task), s.enqueue n e bd q r none = u.finishC n e [.s ⟨q.seqno, false⟩] ∧ u.mem = s.mem ∧
      u.tasks = s.tasks ++ [t] ∧ u.tqueues = (s.modTq q.qpa (fun x => { x with seqno := x.seqno + 1 })).tqueues ∧
      t.rec_ = r ∧ t.seqno = q.seqno.toNat ∧ t.qpa = q.qpa ∧ t.phase = .queued ∧ t.strand = n ∧ t.wing = q.wing ∧
      t.bound = bd := by
  unfold State.enqueue
  rw [hstop]
  exact ⟨_, _, rfl, rfl, rfl, rfl, rfl, rfl, rfl, rfl, rfl, rfl, rfl⟩

theorem State.tqueue?_modTq {s : State} {qpa : Nat} {q : TaskQueue} {f : TaskQueue → TaskQueue} (h : s.tqueue? qpa = some q)
    (hf : ∀ x, (f x).qpa = x.qpa) : (s.modTq qpa f).tqueue? qpa = some (f q) := by
  have hkey : ((fun q : TaskQueue => q.qpa == qpa) ∘ fun q => if q.qpa = qpa then f q else q) = fun q => q.qpa == qpa := by
    funext q
    dsimp only [Function.comp]
    split
    · rw [hf]
    · rfl
  rw [State.tqueue?, State.modTq, List.find?_map, hkey, show s.tqueues.find? _ = some q from h, Option.map_some,
    if_pos (State.tqueue?_qpa h)]

/-- The bytes of the record that a `TENQ` has read, and its words. -/
def Entry.recordImage (e : Entry) : List Byte := leBytes 64 (e.z.headD VV.zero).v.toNat
def Entry.record (e : Entry) : List W64 := (List.range 8).map (fun i => word64 e.recordImage i)

/-- Once its record is in, `TENQ` writes it to the slot of a queue with room. -/
theorem tenqGo_enqueues {s s1 s3 : State} {e : Entry} {bd : Bound} {qpa : Nat} {tq : TaskQueue} (hbound : s.me.bound = some bd)
    (hready : s.me.performedBefore e.seq e.slot = true) (hstep : e.step ≠ 0)
    (hqueue : s.queuePa s.cur e (e.yv &&& ~~~63#64) = (s1, some qpa)) (hfound : s1.tqueue? qpa = some tq)
    (hwing : tq.wing = wingOf s.cur) (hroom : tq.seqno - tq.ret ≠ 64)
    (hwaits : ∀ x ∈ recWaits e.record tq.seqno.toNat, x < (tq.seqno.toNat : Int)) (hbank : bankOpnd e.record = none)
    (hwrite : s1.oneWrite s.cur e ((e.yv &&& ~~~63#64) + 64 + BitVec.ofNat 64 (64 * (tq.seqno.toNat % 64))) e.recordImage =
      (s3, true)) :
    tenqGo e s = s3.enqueue s.cur e bd tq e.record none := by
  unfold tenqGo
  extract_lets n q recVa w illins img r
  rw [show (s.strand n).bound = some bd from hbound]
  dsimp only
  rw [show (s.strand n).performedBefore e.seq e.slot = true from hready, if_neg (by decide), if_neg hstep,
    show s.queuePa n e q = _ from hqueue]
  dsimp only
  rw [hfound]
  dsimp only
  rw [if_neg (not_or.mpr ⟨not_not.mpr hwing, hroom⟩), List.find?_eq_none.mpr fun x hx => by simpa using hwaits x hx]
  dsimp only
  rw [show bankOpnd r = none from hbank]
  dsimp only
  rw [Option.any_none, if_neg Bool.false_ne_true, show s1.oneWrite n e _ img = _ from hwrite]
  rfl

/-! ### `TCANCEL` (R314) -/

theorem State.modTc_entry? (s : State) (t : Task) (f : Tc → Tc) (n id : Nat) : (s.modTc t f).entry? n id = s.entry? n id := by
  unfold State.modTc
  dsimp only
  split
  · rfl
  · split
    · rw [State.entry?, State.strand_modStrand]
      split
      · next h => rw [← h, State.entry?]
      · rfl
    · rfl

theorem State.endTask_entry? (s : State) (t : Task) (f : Tc → Tc) (n id : Nat) : (s.endTask t f).entry? n id = s.entry? n id :=
  (State.modLaunch_same (fun u => u.entry? n id) (fun _ _ => rfl) _ _ _).trans ((State.modTc_entry? ..).trans
    (congrArg (fun u : State => u.entry? n id) (s.yielded_offTlbs t) :))

/-- A task that has not been dispatched (R314). -/
def Task.waiting (x : Task) : Bool := decide (x.phase = .queued) || decide (x.phase = .parked)

/-- End one task as cancelled. -/
def State.cancelTask (s : State) (t : Task) : State := (s.endTask t id).modTask t.uid (fun x => { x with cancelled := true })

/-- A task after another's cancellation is one as before, or is over. -/
theorem State.of_mem_cancelTask {s : State} {t x : Task} (hx : x ∈ (s.cancelTask t).tasks) :
    x ∈ s.tasks ∧ x.uid ≠ t.uid ∨ x.waiting = false := by
  obtain ⟨y, hy, rfl⟩ := List.mem_map.mp hx
  obtain ⟨hmem, hne⟩ | ⟨y0, -, hid, rfl⟩ := State.of_mem_endTask hy
  · rw [if_neg hne]
    exact .inl ⟨hmem, hne⟩
  · exact .inr (by rw [if_pos (by exact hid)]; rfl)

/-- When each task of a kind that waits has been cancelled, none of the kind waits. -/
theorem State.none_waits_of_cancelled {p : Task → Prop} {l : List Task} {s : State}
    (h : ∀ x ∈ s.tasks, p x → x.waiting = true → ∃ t ∈ l, x.uid = t.uid) :
    ∀ x ∈ (l.foldl State.cancelTask s).tasks, p x → x.waiting = false := by
  induction l generalizing s with
  | nil =>
    intro x hx hp
    by_contra hw
    obtain ⟨t, ht, -⟩ := h x hx hp (by simpa using hw)
    cases ht
  | cons t r ih =>
    refine ih fun x hx hp hw => ?_
    obtain ⟨hmem, hne⟩ | hover := State.of_mem_cancelTask hx
    · obtain ⟨t', ht', hid⟩ := h x hmem hp hw
      obtain rfl | ht' := List.mem_cons.mp ht'
      · exact absurd hid hne
      · exact ⟨t', ht', hid⟩
    · rw [hover] at hw
      cases hw

/-- The tasks that a `TCANCEL` of the queue at `qpa` from number `lo` on ends. -/
def State.cancels (s : State) (qpa lo : Nat) : List Task :=
  s.tasks.filter (fun x => x.qpa == qpa && decide (lo ≤ x.seqno) && (decide (x.phase = .queued) || decide (x.phase = .parked)))

section
variable {s s1 : State} {e : Entry} {qpa : Nat} {tq : TaskQueue} (hready : s.me.performedBefore e.seq e.slot = true)
  (hqueue : s.queuePa s.cur e (e.xv &&& ~~~63#64) = (s1, some qpa)) (hfound : s1.tqueue? qpa = some tq) (hwing : tq.wing = wingOf s.cur)
include hready hqueue hfound hwing

theorem tcancelGo_of_queue : tcancelGo e s = if e.step = 0 then
      (((s1.cancels qpa e.yv.toNat).foldl State.cancelTask s1).advanceRet qpa 65).modEntry s.cur e.id (fun x => { x with
        step := 1, aux := BitVec.ofNat 64 (s1.cancels qpa e.yv.toNat).length, z := [⟨tq.seqno.setWidth 2048, 0⟩] })
    else if s1.tasks.any (fun t => t.qpa == qpa && decide (e.yv.toNat ≤ t.seqno ∧ t.seqno < e.zv.toNat) && !t.isDone) then s1
    else (s1.modTq qpa (fun x => { x with stop := false, stopTrap := none })).finishC s.cur e [.s ⟨e.aux, false⟩] := by
  unfold tcancelGo
  extract_lets n q s0
  rw [show (s.strand n).performedBefore e.seq e.slot = true from hready, if_neg (by decide), show s.queuePa n e q = _ from hqueue]
  dsimp only
  rw [hfound]
  exact if_neg (not_not.mpr hwing)

end

end Sys2Proof.Machine

namespace Sys2Proof

open Sys2Proof.Machine

/-! ### The instructions -/

theorem tenq_completes {d a b : BitVec 6} {p q : Bool} {s s1 s3 : State} {e : Entry} {bd : Bound} {qpa : Nat} {tq : TaskQueue}
    (hresume : s.resuming (.tenq d a b p q) = some e) (hfound : s1.tqueue? qpa = some tq) (hstop : tq.stop = false)
    (htqueues : s3.tqueues = s1.tqueues) {r : List W64} (hgo : tenqGo e s = s3.enqueue s.cur e bd tq r none) :
    ∃ u, exec (.tenq d a b p q) s = .next u ∧ u.mem = s3.mem ∧ u.entry? s.cur e.id = none ∧
      (∃ t, u.tasks = s3.tasks ++ [t] ∧ t.rec_ = r ∧ t.seqno = tq.seqno.toNat ∧ t.qpa = tq.qpa ∧ t.phase = .queued ∧
        t.strand = s.cur ∧ t.wing = tq.wing ∧ t.bound = bd) ∧
      (u.tqueue? qpa).map TaskQueue.seqno = some (tq.seqno + 1) ∧
      (∀ y, e.dests = [.s y] → ∃ f ∈ (u.strand s.cur).flights, f.id = e.id ∧ f.wbs = [.s y ⟨tq.seqno, false⟩]) := by
  obtain ⟨u, t, hu, hmem, htasks, hqueues, ht⟩ := State.enqueue_of_running hstop s3 s.cur e bd r
  have hexec : exec (.tenq d a b p q) s = .next (u.finishC s.cur e [.s ⟨tq.seqno, false⟩]) :=
    (execTenq.eq_1 ..).trans ((runWaitC_of_resuming _ _ _ hresume).trans (congrArg _ (hgo.trans hu)))
  refine ⟨_, hexec, (State.finishC_mem ..).trans hmem, State.finishC_entry? .., ⟨t, ?_, ht⟩, ?_, fun y hy => ?_⟩
  · exact (State.finishC_same State.tasks (fun _ _ _ => rfl) ..).trans htasks
  · rw [State.finishC_same (fun v : State => v.tqueue? qpa) fun _ _ _ => rfl]
    have hfound3 : s3.tqueue? qpa = some tq := by rwa [State.tqueue?, htqueues]
    rw [State.tqueue?, hqueues, State.tqueue?_qpa hfound]
    exact congrArg (Option.map TaskQueue.seqno)
      (State.tqueue?_modTq (f := fun x => { x with seqno := x.seqno + 1 }) hfound3 fun _ => rfl)
  · rw [State.finishC_of_scalar u s.cur _ hy, State.sendFlight_strand, if_pos rfl]
    exact ⟨_, List.mem_append_right _ (List.mem_singleton_self _), rfl, rfl⟩

theorem tcancel_cancels {d a b : BitVec 6} {p q : Bool} {s s1 : State} {e : Entry} {qpa : Nat} {tq : TaskQueue}
    (hresume : s.resuming (.tcancel d a b p q) = some e) (hready : s.me.performedBefore e.seq e.slot = true)
    (hqueue : s.queuePa s.cur e (e.xv &&& ~~~63#64) = (s1, some qpa)) (hfound : s1.tqueue? qpa = some tq) (hwing : tq.wing = wingOf s.cur)
    (hstep : e.step = 0) :
    ∃ t y, exec (.tcancel d a b p q) s = .next t ∧ t.entry? s.cur e.id = some y ∧ y.step = 1 ∧
      y.aux = BitVec.ofNat 64 (s1.cancels qpa e.yv.toNat).length ∧
      ∀ x ∈ t.tasks, x.qpa = qpa → e.yv.toNat ≤ x.seqno → x.phase ≠ .queued ∧ x.phase ≠ .parked := by
  have hexec : exec (.tcancel d a b p q) s = .next (tcancelGo e s) :=
    (execTcancel.eq_1 ..).trans (runWaitC_of_resuming _ _ _ hresume)
  rw [tcancelGo_of_queue hready hqueue hfound hwing, if_pos hstep] at hexec
  have hentry : (((s1.cancels qpa e.yv.toNat).foldl State.cancelTask s1).advanceRet qpa 65).entry? s.cur e.id = some e := by
    rw [State.advanceRet_same (fun u => u.entry? s.cur e.id) fun _ _ _ => rfl,
      foldl_same (fun u : State => u.entry? s.cur e.id) State.cancelTask _ _ fun u t => u.endTask_entry? t id s.cur e.id,
      ← State.entry?_of_resuming hresume]
    exact (congrArg (fun u : State => u.entry? s.cur e.id) (State.queuePa_offTlbs hqueue) :)
  refine ⟨_, _, hexec, State.entry?_changed hentry fun _ => rfl, rfl, rfl, fun x hx hqpa hlo => ?_⟩
  have hover := State.none_waits_of_cancelled (p := fun x => x.qpa = qpa ∧ e.yv.toNat ≤ x.seqno) (l := s1.cancels qpa e.yv.toNat)
    (s := s1) (fun x hx hp hw => ⟨x, List.mem_filter.mpr ⟨hx, by simpa [hp.1, hp.2, Task.waiting] using hw⟩, rfl⟩)
    x (State.mem_of_advanceRet hx) ⟨hqpa, hlo⟩
  simpa [Task.waiting] using hover

theorem State.passGo_passes {s s2 : State} {e : Entry} {n w ws : Nat} {fa : W64} {add : Bool}
    (hwrites : s.writePending e.id (unpackTlb ((e.z.drop 1).headD VV.zero)).page = false)
    (htasks : s.taskPending (unpackTlb ((e.z.drop 1).headD VV.zero)).page = false)
    (hback : s.writeBackAll (fun x => x.touches (unpackTlb ((e.z.drop 1).headD VV.zero)).page) = (s2, none)) :
    let pg := unpackTlb ((e.z.drop 1).headD VV.zero)
    let fg := unpackTlb ((e.z.drop 2).headD VV.zero)
    let lines := ((s.copiesOf (fun x => x.dirty && x.touches pg.page)).flatMap (fun k =>
      ((s.slotOf k.1 k.2).lines (List.range 64) ++ (s.slotOf k.1 k.2).own.map Prod.fst).filter
        (fun l => inPage pg.page (256 * l)))).eraseDups
    s.passGo n w ws fa add e = ((s2.passStamp n pg fg fa w ws add e.zv lines).openPage e.id).finishC n e [] := by
  intro pg fg lines
  unfold State.passGo
  dsimp only
  rw [hwrites, htasks, Bool.or_self, if_neg Bool.false_ne_true, hback]

theorem launchGo_publishes {s s1 : State} {e : Entry} (hready : s.me.performedBefore e.seq e.slot = true) (hstep : e.step = 6)
    (hposted : s.me.posted.any (fun x => decide (x.id ≤ e.id) && !x.acked && !x.refused) = false)
    (hwrite : s.oneWrite s.cur e ((e.yv &&& ~~~63#64) + 8) (leBytes 8 ((e.aux + 1).toNat)) = (s1, true)) :
    launchGo e s = s1.finishC s.cur e [.s ⟨e.aux, false⟩] := by
  unfold launchGo
  extract_lets n rec_ q adv lg
  rw [show (s.strand n).performedBefore e.seq e.slot = true from hready, if_neg (by decide), hstep]
  dsimp only
  rw [show (s.strand n).posted.any _ = false from hposted, if_neg Bool.false_ne_true, show s.oneWrite n e (q + 8) _ = _ from hwrite]
  rfl

end Sys2Proof

open Sys2Proof Sys2Proof.Machine

/-- Settles O50: each instruction by the one clock stated; what a write, a cancellation and the end of an operation leave alone. -/
theorem strandTasks : Obligations.StrandTasks := by
  unfold Obligations.StrandTasks
  intro s d a b p q w l c1 tcn sel ws n
  refine ⟨?tenq, waitsC_of_exec (fun _ => execTwait.eq_1 ..) ?twait, ?satisfy, runsC_of_exec (execTstat.eq_1 ..) ?tstat,
    ?tcancel, ?launch, ?pgpass⟩
  case tenq =>
    intro e bd s1 s3 qpa tq hresume hbound hready hstep qa img r hqueue hfound hwing hroom hwaits hbank hwrite hstop
    exact tenq_completes hresume hfound hstop (State.oneWrite_tqueues hwrite)
      (tenqGo_enqueues hbound hready hstep hqueue hfound hwing hroom hwaits hbank hwrite)
  case twait =>
    rintro e t hcur
    unfold twaitGo
    rw [hcur]
    rfl
  case satisfy =>
    intro m e dd aa pp cc hopen hinstr
    change execTwaitSatisfy m s = _
    unfold execTwaitSatisfy
    rw [hopen]
    dsimp only
    rw [hinstr]
  case tstat =>
    intro g
    have hcur : (poppedC s g).cur = n := poppedC_cur s g
    clear_value n
    generalize poppedC s g = t at hcur ⊢
    subst hcur
    extract_lets n x v t1 t2 x' t1' cleared t2'
    have hv : v = if sel = 0 then x.count else if sel = 1 then x.fault else if sel = 2 then x.addr else x.flags.zeroExtend 64 := by
      obtain rfl | rfl | rfl | rfl : sel = 0 ∨ sel = 1 ∨ sel = 2 ∨ sel = 3 := by bv_omega
      all_goals rfl
    have hcur : t2.cur = n := by
      simp only [t2, t1]
      split <;> split <;> rfl
    rw [← resultC_of_cur hcur, hv]
  case tcancel =>
    intro e s1 qpa tq hresume hready hqueue hfound hwing
    refine ⟨tcancel_cancels hresume hready hqueue hfound hwing, fun hstep hover => ?_⟩
    refine (execTcancel.eq_1 ..).trans ((runWaitC_of_resuming _ _ _ hresume).trans (congrArg _ ?_))
    rw [tcancelGo_of_queue hready hqueue hfound hwing, if_neg hstep, hover, if_neg Bool.false_ne_true]
  case launch =>
    intro e s1 hresume hready hstep hposted hwrite
    refine (execLaunch.eq_1 ..).trans ((runWaitC_of_resuming _ _ _ hresume).trans (congrArg _ ?_))
    exact launchGo_publishes hready hstep hposted hwrite
  case pgpass =>
    intro e s2 hresume hstep pg fg fa lines hwrites htasks hback
    refine (execPgpass.eq_1 ..).trans ((runWaitC_of_resuming _ _ _ hresume).trans (congrArg _ ?_))
    have hplace : flagPlace w e.yv = (if w then 4 else 8, fa) := by cases w <;> rfl
    unfold pgpassGo
    dsimp only
    rw [hplace, if_pos hstep]
    dsimp only
    exact State.passGo_passes hwrites htasks hback

end
